-- ==== Sys2Proof/Word.lean ====
section
/-! DEFINITION. The word types of the Skomir (CK-S1288) and the plainest arithmetic on them. -/

namespace Sys2Proof

/-- One byte. -/
abbrev Byte := BitVec 8
/-- A 24-bit fabric identifier: group [23:16], device [15:8], endpoint [7:0] (R25, R68). -/
abbrev Fid := BitVec 24
/-- A 56-bit address (R68, R167). -/
abbrev Addr := BitVec 56
/-- A 40-bit operation identifier (R68, R70). -/
abbrev Opid := BitVec 40
/-- A fabric port FP_n (R17). -/
abbrev Port := Fin 128
/-- A host port HOST_n. -/
abbrev HostPort := Fin 2
/-- An output: 0-127 for FP_n, 128 and 129 for HOST_0 and HOST_1 (R163). -/
abbrev Output := Fin 130
/-- A tile (R16). -/
abbrev Tile := Fin 16
/-- A quill (R16). -/
abbrev Quill := Fin 64
/-- A hardware partition (R382). -/
abbrev Part := Fin 32
/-- A key slot 1-3, held as 0-3 where 0 is "clear" (R68). -/
abbrev KeySlot := BitVec 2

/-- Little-endian bytes of `v`, `n` of them (R14). -/
def leBytes : (n v : Nat) → List Byte
  | 0, _ => []
  | n + 1, v => BitVec.ofNat 8 v :: leBytes n (v / 256)

/-- The number whose little-endian bytes are `bs` (R14). -/
def leNat : List Byte → Nat
  | [] => 0
  | b :: bs => b.toNat + 256 * leNat bs

/-- Big-endian bytes of `v`, `n` of them (R13). -/
def beBytes (n v : Nat) : List Byte := (leBytes n v).reverse

/-- Bits [hi:lo] of `v`. -/
def bits (v hi lo : Nat) : Nat := v / 2 ^ lo % 2 ^ (hi + 1 - lo)

/-- Bit `i` of `v`. -/
def bit (v i : Nat) : Bool := v / 2 ^ i % 2 == 1

/-- A number as one bit. -/
def b2n (b : Bool) : Nat := if b then 1 else 0

/-- `n` bytes of `bs` from offset `off`, zero beyond the end. -/
def slice (bs : List Byte) (off n : Nat) : List Byte :=
  let t := (bs.drop off).take n
  t ++ List.replicate (n - t.length) 0#8

/-- The little-endian number of `n` bytes of `bs` at offset `off`. -/
def leAt (bs : List Byte) (off n : Nat) : Nat := leNat (slice bs off n)

/-- `v` rounded up to a multiple of `m`. -/
def roundUp (v m : Nat) : Nat := (v + m - 1) / m * m

/-- Pads with zero bytes to a multiple of `m`. -/
def padTo (m : Nat) (bs : List Byte) : List Byte :=
  bs ++ List.replicate (roundUp bs.length m - bs.length) 0#8

end Sys2Proof
end

