-- ==== Sys2Proof/Syntax.lean ====
section
/-! DEFINITION. The commands of the Skomir: one constructor of `Instr` for each row of spec/opcode_table.json, and the
plain data they carry (packets, messages, link items, dictionary messages, frames, sensor readings). -/

namespace Sys2Proof

/-- The 32-byte Lualyn header (R68), but for its reserved bits: a sender zeroes them, a receiver ignores them (R9, R10). -/
structure Hdr where
  ver  : BitVec 2
  cls  : BitVec 3
  ep   : Bool
  ks   : KeySlot
  op   : BitVec 8
  flg  : BitVec 8
  plen : BitVec 8
  dst  : Fid
  src  : Fid
  part : BitVec 5
  val  : Bool
  hop  : BitVec 4
  tag  : BitVec 16
  mid  : BitVec 16
  opid : Opid
  addr : Addr
  aux  : BitVec 32
  deriving DecidableEq, Repr, Inhabited

/-- A packet in clear form: the header and a payload of 16 × PLEN bytes (R67). -/
structure Packet where
  hdr     : Hdr
  payload : List Byte
  deriving DecidableEq, Repr, Inhabited

/-- A packet as it stands on a link: the payload as sent (ciphertext when KS ≠ 0), the 16-byte tag when KS ≠ 0, the
received CRC-32C, and whether every codeword that carried it decoded (R53, R67). `rsv` holds header bits [170:168] and
[162:160], which the CRC and the tag cover though a receiver ignores them (R10). -/
structure WirePacket where
  hdr         : Hdr
  rsv         : BitVec 6 := 0
  payload     : List Byte
  tag         : List Byte
  crc         : BitVec 32
  codewordsOk : Bool
  deriving DecidableEq, Repr, Inhabited

/-- Codewords that the FEC sublayer corrected, and found uncorrectable, in a reception: those that no earlier reception
counted (0x3002.01, 0x3002.02). -/
structure Fec where
  corrected : BitVec 16 := 0
  uncorr    : BitVec 16 := 0
  deriving DecidableEq, Repr, Inhabited

/-- A link block as decoded (R43): its 514 bytes, the body words that an uncorrectable codeword carried, and the sender's
LSEQ of each packet that begins in it (R52). -/
structure LinkBlock where
  bytes : List Byte
  bad   : BitVec 128
  lseqs : List (BitVec 16)
  deriving DecidableEq, Repr, Inhabited

/-- What the receiver of a port takes from the link. -/
inductive Rx where
  /-- A packet that the framing has delimited, with the LSEQ it bears by the sender's count (R52). -/
  | packet (lseq : BitVec 16) (fec : Fec) (w : WirePacket)
  /-- A unit that the framing finds in error: a reserved LTYPE, or a failed HCHK (R45). -/
  | badFrame
  /-- A link block, whose words the receiver reads itself (R43 to R45). -/
  | block (fec : Fec) (b : LinkBlock)
  deriving DecidableEq, Repr

/-- A whole request or response message: the header of its packets (PIDX 0) and the payload in PIDX order (R73-R76). -/
structure Msg where
  hdr  : Hdr
  body : List Byte
  deriving DecidableEq, Repr, Inhabited

/-- The fields every 16-byte link item carries (R47); `lcrcOk` says whether its LCRC was correct (R48). -/
structure LinkItem where
  lcrcOk : Bool
  ackv   : Bool
  xoff   : BitVec 16
  ackseq : BitVec 16
  deriving DecidableEq, Repr, Inhabited

/-- TSPEC of a CAPX item (R49). -/
structure Capx where
  pfid  : Fid
  pport : BitVec 8
  pver  : BitVec 4
  prate : BitVec 2
  pccls : BitVec 3
  penc  : Bool
  prole : BitVec 2
  deriving DecidableEq, Repr, Inhabited

/-- Roles of dictionary sessions (R390). -/
inductive Role where
  | opr | prt | vnd | att
  deriving DecidableEq, Repr, Inhabited

/-- Who performs a dictionary access: the session, its role and its partition (R390, R480). -/
structure Caller where
  sid  : BitVec 16
  role : Role
  part : Part
  deriving DecidableEq, Repr, Inhabited

/-- Transport address of a dictionary client (R488). -/
inductive TAddr where
  | host (h : HostPort) (ip : BitVec 128) (udp : BitVec 16)
  | ring (mac : BitVec 48)
  deriving DecidableEq, Repr, Inhabited

/-- A dictionary message (R485): header fields, payload as sent, and the 16-byte tag when PROT is set. `rsv` holds the
reserved header bits [244:240] and [47:0], which the tag covers though a receiver ignores them (R10). -/
structure DMsg where
  rsv     : BitVec 53 := 0
  mver    : BitVec 4
  mtype   : BitVec 4
  resp    : Bool
  more    : Bool
  prot    : Bool
  dstat   : BitVec 8
  sid     : BitVec 16
  seq     : BitVec 32
  xid     : BitVec 16
  index   : BitVec 16
  sub     : BitVec 8
  segno   : BitVec 16
  total   : BitVec 32
  auxr    : BitVec 32
  payload : List Byte
  tag     : List Byte
  deriving DecidableEq, Repr, Inhabited

/-- A Lualyn packet in a UDP datagram on a host port (R91). -/
structure Datagram where
  ip  : BitVec 128
  udp : BitVec 16
  pkt : Packet
  deriving DecidableEq, Repr, Inhabited

/-- The MACsec view of a host frame (R407): association number, packet number, and whether the ICV holds. -/
structure SecTag where
  an    : BitVec 2
  pn    : BitVec 64
  icvOk : Bool
  deriving DecidableEq, Repr, Inhabited

/-- What a host-port frame carries (R483). -/
inductive FrameBody where
  | arp (target : BitVec 32)
  | nd (target : BitVec 128)
  | icmpEcho (dst : BitVec 32)
  | icmp6Echo (dst : BitVec 128)
  | dictUdp (ip : BitVec 128) (udp : BitVec 16) (m : DMsg)
  | encapUdp (d : Datagram)
  | macControl
  | fragment
  | other
  deriving DecidableEq, Repr

/-- A frame on a host port. -/
structure HostFrame where
  sec  : Option SecTag
  body : FrameBody
  /-- The IEEE 802.1Q VLAN of its tag; none: untagged (R513). -/
  vlan : Option (BitVec 12) := none
  deriving DecidableEq, Repr

/-- A frame on the management ring (R484, R539). -/
structure RingFrame where
  dst   : BitVec 48
  src   : BitVec 48
  etype : BitVec 16
  fcsOk : Bool
  msg   : DMsg
  deriving DecidableEq, Repr

/-- The readings of one 1 ms sample (R524), as F32 bit patterns. -/
structure Readings where
  pIn    : BitVec 32
  vIn    : BitVec 32
  iIn    : BitVec 32
  diodes : Vector (BitVec 32) 64
  stackT : Vector (BitVec 32) 6
  coolIn  : BitVec 32
  coolOut : BitVec 32
  rails  : Vector (BitVec 32 × BitVec 32) 8
  deriving DecidableEq, Repr

/-- Names one outstanding request: SRC, PART, TAG and OPID (R183). -/
structure ReqKey where
  src  : Fid
  part : BitVec 5
  tag  : BitVec 16
  opid : Opid
  deriving DecidableEq, Repr, Inhabited

/-- A sampled pin of the sideband (R578): the bit of its bit map. -/
inductive Sideband where
  | resetN | pwrEn | throttleN | faultInN
  deriving DecidableEq, Repr

/-- The three colours of a meter (R152). -/
inductive Colour where
  | green | yellow | red
  deriving DecidableEq, Repr, Inhabited

/-- The field of a drop profile a write names (R163). -/
inductive ProfField where
  | min | max | maxp
  deriving DecidableEq, Repr

/-- The key of a batch window (R280): opcode, table, PART and WIN. -/
structure WinKey where
  op    : BitVec 8
  table : BitVec 12
  part  : BitVec 5
  win   : BitVec 16
  deriving DecidableEq, Repr, Inhabited

/-- Something a bank held that could not be read when the bank was copied to its stand-in (R438). -/
inductive Lost where
  /-- A 32-byte word of a quill's store, by its number from the store's start. -/
  | word (q : Quill) (n : BitVec 18)
  /-- A chunk slot or an escalation entry of a context. -/
  | chunk (ctx : BitVec 16)
  /-- A coalescer entry or an accumulator of a pass under way on a quill. -/
  | pass (q : Quill)
  /-- A cell of a packet the device holds, by its age. -/
  | packet (age : Nat)
  | blotter (k : ReqKey)
  /-- A completed-operation record of the Blotter. -/
  | opRecord (src : Fid) (part : BitVec 5) (opid : Opid)
  | directory (line : Nat) (chk : BitVec 8)
  deriving DecidableEq, Repr

/-- The commands: one constructor for each row of spec/opcode_table.json, in the table's order. -/
inductive Instr where
  | portEnable (by_ : Caller) (p : Port) (v : BitVec 8)
  | signalDetect (p : Port)
  | trainComplete (p : Port)
  | trainTimeout (p : Port)
  | blockLock (p : Port)
  | alignTimeout (p : Port)
  | capxSendTick (p : Port)
  | capx (p : Port) (i : LinkItem) (c : Capx)
  | exchangeTimeout (p : Port)
  | uncorrectableLimit (p : Port)
  | rtrn (p : Port) (i : LinkItem)
  | retrain (by_ : Caller) (p : Port) (v : BitVec 8)
  | retrainTimeout (p : Port)
  | down (p : Port) (i : LinkItem)
  | lossOfSignal (p : Port)
  | blockLockLoss (p : Port)
  | packetReceive (p : Port) (r : Rx)
  | lstat (p : Port) (i : LinkItem)
  | nak (p : Port) (i : LinkItem) (nakseq : BitVec 16)
  | hbeat (p : Port) (i : LinkItem) (count : BitVec 32)
  | hbeatSend (p : Port)
  | ackSend (p : Port)
  | linkReplayTimeout (p : Port)
  | msgAssemblyTimeout (k : ReqKey)
  | hostDatagram (h : HostPort) (d : Datagram)
  | hostLinkChange (h : HostPort) (up : Bool) (rate : BitVec 2)
  | hostEnable (by_ : Caller) (h : HostPort) (v : BitVec 8)
  | forwardingDecision (ingress : BitVec 8)
  | spineTransfer (src dst : Tile)
  | entryWrite (by_ : Caller) (slot : Bool) (recs : List (BitVec 32 × BitVec 128))
  | ilistWrite (by_ : Caller) (slot : Bool) (recs : List (BitVec 32 × BitVec 32))
  | commit (by_ : Caller) (slot : Bool) (v : BitVec 8)
  | retire (by_ : Caller) (slot : Bool) (v : BitVec 8)
  | clear (by_ : Caller) (slot : Bool) (v : BitVec 8)
  | drainTimerExpire (slot : Bool)
  | slotDrained (slot : Bool)
  | origEp (by_ : Caller) (v : BitVec 8)
  | epochNotify (by_ : Caller) (rgen : BitVec 32)
  | epochNoticeTimeout (p : Port)
  | ligWrite (by_ : Caller) (recs : List (BitVec 32 × BitVec 256))
  | ligRecordTimeout (k : ReqKey)
  | outputSelect (o : Output)
  | dwrrStarveTimeout (o : Output) (c : BitVec 3)
  | refillBoundary
  | strictMask (by_ : Caller) (o : Output) (v : BitVec 8)
  | dropProfileWrite (by_ : Caller) (o : Output) (c : Colour) (f : ProfField) (v : BitVec 32)
  | meterWrite (by_ : Caller) (recs : List (BitVec 32 × BitVec 192))
  | load (m : Msg)
  | store (m : Msg)
  | atomic (m : Msg)
  | bulkLoad (m : Msg)
  | bulkStore (m : Msg)
  | tgtDeadTimeout (k : ReqKey)
  | completion (ingress : BitVec 8) (p : Packet)
  | rdShared (m : Msg)
  | rdOwn (m : Msg)
  | upgrade (m : Msg)
  | writeback (m : Msg)
  | evict (m : Msg)
  | homeAtomic (m : Msg)
  | cohStore (m : Msg)
  | snoopResp (p : Packet)
  | dataFwd (p : Packet)
  | snoopWaitTimeout (d : Part) (agent : Fin 16)
  | domainActivate (by_ : Caller) (d : Part)
  | teardown (by_ : Caller) (d : Part)
  | domainReset (by_ : Caller) (d : Part)
  | dirSlices (by_ : Caller) (v : BitVec 32)
  | folioWrite (by_ : Caller) (recs : List (BitVec 32 × BitVec 256))
  | folioRevoke (by_ : Caller) (i : BitVec 16)
  | folioDrained (i : BitVec 16)
  | revokeBoundExpire (i : BitVec 16)
  | folioScrubDone (i : BitVec 16) (status : BitVec 8)
  | folioClear (by_ : Caller) (i : BitVec 16)
  | regionWrite (by_ : Caller) (recs : List (BitVec 64))
  | publish (m : Msg)
  | publishRelease (region : BitVec 12)
  | tagReserve (by_ : Caller) (p : Part) (v : BitVec 32)
  | open_ (m : Msg)
  | mirrorOpen (m : Msg)
  | join (m : Msg)
  | close (m : Msg)
  | abort (m : Msg)
  | contrib (m : Msg)
  | creditRefresh
  | credit (m : Msg)
  | ctxAbort (by_ : Caller) (ctx : BitVec 16)
  | chunkSlots (by_ : Caller) (v : BitVec 16)
  | tableWrite (by_ : Caller) (recs : List (BitVec 16 × BitVec 512))
  | tableStage (by_ : Caller) (recs : List (BitVec 16 × BitVec 512))
  | tableSwitch (by_ : Caller) (t : BitVec 16)
  | tableDelete (by_ : Caller) (t : BitVec 16)
  | tableSync (by_ : Caller) (t : BitVec 16)
  | bag (m : Msg)
  | scatterAdd (m : Msg)
  | filter (m : Msg)
  | winTimeout (q : Quill) (k : WinKey)
  | passStart (q : Quill)
  | gatherRequestDone (q : Quill)
  | popHalving
  | wdigestStage (by_ : Caller) (recs : List (BitVec 16 × BitVec 256))
  | objWrite (by_ : Caller) (recs : List (BitVec 16 × BitVec 512))
  | objMove (m : Msg)
  | moveStart (engine : Fin 22)
  | pieceLanded (engine : Fin 22) (status : BitVec 8)
  | objDelete (by_ : Caller) (o : BitVec 16)
  | pfSchedWrite (by_ : Caller) (recs : List (BitVec 64))
  | pfEntryWrite (by_ : Caller) (recs : List (BitVec 16 × BitVec 128))
  | pfActivate (by_ : Caller) (s : BitVec 8)
  | pfStop (by_ : Caller) (s : BitVec 8)
  | trigger (m : Msg)
  | fill (m : Msg)
  | copy (m : Msg)
  | compare (m : Msg)
  | memReduce (m : Msg)
  | build (m : Msg)
  | encode (m : Msg)
  | basisLoad (m : Msg)
  | basisRetire (m : Msg)
  | basisWritten (slot : Fin 512) (entry : Fin 4)
  | encodeDone (k : ReqKey)
  | genWaitTimeout (k : ReqKey)
  | expand (m : Msg)
  | expandBlockDone (stack : Fin 6)
  | slotWrite (by_ : Caller) (recs : List (BitVec 64))
  | basisSlice (by_ : Caller) (v : BitVec 8)
  | genRetire (by_ : Caller) (v : BitVec 32)
  | cgInput (by_ : Caller) (key : BitVec 64) (cw : Vector (BitVec 32) 4) (bad : List (Fin 80 × BitVec 128))
  | batchSign (by_ : Caller) (p : Part) (v : BitVec 8)
  | batchSigned (p : Part)
  | create (by_ : Caller) (p : Part)
  | seal (by_ : Caller) (p : Part)
  | sealTimeout (p : Part)
  | remove (by_ : Caller) (p : Part)
  | atReq (m : Msg)
  | atFinish (m : Msg)
  | attReq (by_ : Caller) (nonce : BitVec 256)
  | attFinish (by_ : Caller) (payload : List Byte)
  | ports (by_ : Caller) (p : Part) (v : BitVec 128)
  | hosts (by_ : Caller) (p : Part) (v : BitVec 8)
  | quills (by_ : Caller) (p : Part) (v : BitVec 64)
  | sliceMap (by_ : Caller) (p : Part) (v : Vector Byte 128)
  | hfid (by_ : Caller) (p : Part) (h : HostPort) (v : BitVec 32)
  | kxInit (port : Port) (m : Msg)
  | kxResp (port : Port) (m : Msg)
  | kxActive (port : Port) (m : Msg)
  | kxRetire (port : Port) (m : Msg)
  | keyEstablish (by_ : Caller) (p : Part) (v : BitVec 16)
  | keyRetire (by_ : Caller) (p : Part) (v : BitVec 16)
  | receiveKeyErase (port : Port) (p : Part) (slot : KeySlot)
  | keyxTimeout (port : Port) (p : Part) (slot : KeySlot)
  | hostRekey (by_ : Caller) (p : Part) (v : BitVec 8)
  | peerAllow (by_ : Caller) (p : Part) (digests : List (BitVec 256))
  | prtCred (by_ : Caller) (p : Part) (cred : BitVec 256)
  | replayTimeExpire (k : ReqKey)
  | orphanTimeExpire (k : ReqKey)
  | opRecordExpire (src : Fid) (part : BitVec 5) (opid : Opid)
  | unitError (u : BitVec 32) (lost : List Lost)
  | selftestDone (u : BitVec 32) (pass : Bool) (repairable : Bool)
  | selftestRun (by_ : Caller) (u : BitVec 32)
  | mirrorOpenTimeout (ctx : BitVec 16)
  | mirrorPromote (by_ : Caller) (ctx : BitVec 16)
  | mirrorRetarget (by_ : Caller) (ctx : BitVec 16) (partner : BitVec 32)
  | peerSilenceTimeout (f : Fid)
  | heartbeatTick
  | heartbeat (p : Packet)
  | hbWatchExpire (w : BitVec 32)
  | hbWatch (by_ : Caller) (recs : List (BitVec 32))
  | fence (m : Msg)
  | fenceWrite (by_ : Caller) (recs : List (BitVec 128))
  | memberStage (by_ : Caller) (bytes : List Byte)
  | memberNow (by_ : Caller) (v : BitVec 8)
  | memberNotify (by_ : Caller) (v : BitVec 8)
  | stragClear (by_ : Caller) (mon : Fin 16) (v : BitVec 8)
  | sessOpen (a : TAddr) (m : DMsg)
  | sessAuth (a : TAddr) (m : DMsg)
  | sessClose (a : TAddr) (m : DMsg)
  | read (a : TAddr) (m : DMsg)
  | write (a : TAddr) (m : DMsg)
  | segment (a : TAddr) (m : DMsg)
  | segAck (a : TAddr) (m : DMsg)
  | dictAbort (a : TAddr) (m : DMsg)
  | keepalive (a : TAddr) (m : DMsg)
  | sessAuthTimeout (sid : BitVec 16)
  | sessionIdleTimeout (sid : BitVec 16)
  | authRefusalEnd (a : TAddr)
  | segAckTimer (sid : BitVec 16)
  | segmentResendTimer (sid : BitVec 16)
  | transferTimeout (sid : BitVec 16)
  | sessionKill (by_ : Caller) (sid : BitVec 16)
  | evtAck (by_ : Caller) (n : BitVec 32)
  | evtNotifyRepeat (sid : BitVec 16)
  | oprCred (by_ : Caller) (cred : BitVec 256)
  | oprCredClear (by_ : Caller) (v : BitVec 8)
  | hrbPulseEnd (h : HostPort)
  | hrbPulseSpacingExpire (h : HostPort)
  | hostFrame (h : HostPort) (f : HostFrame)
  | ringFrame (portB : Bool) (f : RingFrame)
  | objectWrite (by_ : Caller) (index : BitVec 16) (sub : BitVec 8) (value : List Byte)
  | vstbyApply
  | vstbyLoss
  | watchdogExpire (core : Fin 4)
  | sensorSample (r : Readings)
  | hwThermalTrip (diode : Fin 64)
  | loopUpdate
  | throttleReleaseTimer (power : Bool)
  | powerLimitCount
  | coolantInletTimer
  | pumpTachTimer (low : Bool)
  | loopSaturationTimer
  | vinLost
  | ringLinkChange (portB : Bool) (up : Bool)
  | plogPersist (logno : BitVec 32)
  | fwStage (by_ : Caller) (image : List Byte)
  | fwVerify (by_ : Caller)
  | fwVerifyDone
  | fwInstall (by_ : Caller)
  | fwInstallDone (match_ : Bool)
  | fwActivate (by_ : Caller)
  | fwDiscard (by_ : Caller)
  | plogClear (by_ : Caller) (v : BitVec 8)
  | powerStageStart (durationMs : BitVec 32) (failedChannels : List (BitVec 32))
  | railFault (rail : Fin 8)
  | pwrEnLow
  | vinUndervoltage
  | refclkLost (standby : Bool)
  | refclkRestored (durationMs : BitVec 32) (failedChannels : List (BitVec 32))
  | resetNAssert
  | resetNRelease (durationMs : BitVec 32) (failedChannels : List (BitVec 32))
  | portReset (by_ : Caller) (o : BitVec 8)
  | tileReset (by_ : Caller) (t : BitVec 8)
  | dataPathReset (by_ : Caller) (durationMs : BitVec 32) (failedChannels : List (BitVec 32))
  | tileResetWindowEnd (t : Tile)
  | throttleNChange (active : Bool)
  | faultInNChange (active : Bool)
  | stuckTimer (i : Sideband)
  | inputChatter (i : Sideband)
  | inputQuiet (i : Sideband) (raw : Bool)
  | tachGate (fan : Bool) (edges : BitVec 32)
  | vioLoss
  | vioApply (levels : BitVec 4)
  | pwrEnHigh
  | resetZeroingDone
  | macsecOldSaErase (h : HostPort)
  | msgDiscardEnd (k : ReqKey)
  | windowKeyServedEnd (q : Quill) (k : WinKey)
  deriving DecidableEq, Repr

end Sys2Proof
end

