-- ==== Sys2Proof/Machine/Cgen.lean ====
section
/-! DEFINITION. The counter generator (R368, R369). -/

namespace Sys2Proof.Machine

/-- Four 32-bit words of the generator. -/
structure CgWords where
  x0 : BitVec 32
  x1 : BitVec 32
  x2 : BitVec 32
  x3 : BitVec 32
  deriving DecidableEq, Repr, Inhabited

def mulHi (a b : BitVec 32) : BitVec 32 := BitVec.ofNat 32 (a.toNat * b.toNat / 2 ^ 32)
def mulLo (a b : BitVec 32) : BitVec 32 := a * b

/-- One round: the four new words are formed together from the old (R368). -/
def cgRound (k0 k1 : BitVec 32) (x : CgWords) : CgWords :=
  { x0 := mulHi 0xCB4F3A65 x.x2 ^^^ x.x1 ^^^ k0
    x1 := mulLo 0xCB4F3A65 x.x2
    x2 := mulHi 0xD2A98B27 x.x0 ^^^ x.x3 ^^^ k1
    x3 := mulLo 0xD2A98B27 x.x0 }

/-- `n` rounds, each key word advancing after every round (R368). -/
def cgRounds : Nat → BitVec 32 → BitVec 32 → CgWords → CgWords
  | 0, _, _, x => x
  | n + 1, k0, k1, x => cgRounds n (k0 + 0x9E3779B9) (k1 + 0xBB67AE85) (cgRound k0 k1 x)

/-- ctrgen(KEY, CW0, CW1, CW2, CW3): ten rounds (R368). -/
def ctrgen (key : BitVec 64) (cw0 cw1 cw2 cw3 : BitVec 32) : CgWords :=
  cgRounds 10 (key.setWidth 32) ((key >>> 32).setWidth 32) { x0 := cw0, x1 := cw1, x2 := cw2, x3 := cw3 }

/-- Output bit b is bit (b mod 32) of W(b div 32) (R369). -/
def CgWords.bitAt (w : CgWords) (b : Nat) : Bool :=
  match b / 32 % 4 with
  | 0 => w.x0.getLsbD (b % 32)
  | 1 => w.x1.getLsbD (b % 32)
  | 2 => w.x2.getLsbD (b % 32)
  | _ => w.x3.getLsbD (b % 32)

end Sys2Proof.Machine
end

