-- ==== Sys2Proof/Config.lean ====
section
/-! DEFINITION. What the spec names but does not define: functions of outside standards, what each part holds from its
manufacture, and the free values. Each is a constant without a body, so no proof can see its value. -/

namespace Sys2Proof.Config

/-- Byte `i` of the SHAKE256 output over a message. The spec uses SHAKE256 (R366, R375, R395, R399, R403, R408, R490) and
leaves its definition to its standard. UNVERIFIED: uninterpreted; safe. -/
opaque shakeByte : List Byte → Nat → Byte

/-- KMAC256 with a 256-bit output: key, customisation string, message (R399, R490). Uninterpreted; safe. -/
opaque kmac256 : List Byte → List Byte → List Byte → BitVec 256

/-- Byte `i` of the AES-256-GCM keystream for a key and nonce (R84, R491). Uninterpreted; safe. -/
opaque gcmStream : BitVec 256 → BitVec 96 → Nat → Byte

/-- The AES-256-GCM tag: key, nonce, additional data, ciphertext (R84, R491). Uninterpreted; safe. -/
opaque gcmTag : BitVec 256 → BitVec 96 → List Byte → List Byte → BitVec 128

/-- Byte `i` of draw `n` of the device's AES-256 CTR_DRBG (R393). A free value; safe. -/
opaque drbgByte : Nat → Nat → Byte

/-- Byte `i` of the ML-DSA-65 public key of the key pair made by draw `n` (R387, R394); draw 0 is the identity key. -/
opaque dsaPub : Nat → Nat → Byte

/-- Byte `i` of the ML-DSA-65 signature under the key pair of draw `n` over a message (R379, R396, R400). -/
opaque dsaSign : Nat → List Byte → Nat → Byte

/-- ML-DSA-65 verification: public key, message, signature (R402, R546). -/
opaque dsaVerify : List Byte → List Byte → List Byte → Bool

/-- Byte `i` of the ML-KEM-768 encapsulation key of the pair made by draw `n` (R396, R400). -/
opaque kemPub : Nat → Nat → Byte

/-- The secret that the pair of draw `n` decapsulates from a ciphertext (R399, R403). -/
opaque kemDecap : Nat → List Byte → BitVec 256

/-- Byte `i` of the ciphertext encapsulated to a public key with draw `n`, and the secret (R403). -/
opaque kemCipher : List Byte → Nat → Nat → Byte
opaque kemSecret : List Byte → Nat → BitVec 256

/-- Per part: identity certificates, serial number, base MAC address, mask-ROM version and digest (M0), stepping, the VND
credential, the Niestyo firmware public key, the lifecycle fuse byte (R394, R395, R492, R510, R546). -/
opaque idCerts : List Byte
opaque serial : List Byte
opaque baseMac : BitVec 48
opaque romVersion : BitVec 32
opaque romDigest : BitVec 256
opaque vndCred : BitVec 256
opaque fwKey : List Byte
opaque lifecycle : Byte

/-- Per part: FWVER of the image the part left manufacture with, and the digest of that image (R395, R510). -/
opaque factoryVersion : BitVec 32
opaque factoryDigest : BitVec 256

/-- STEPPING of the part (R365): 0xA1 or 0xB0. -/
opaque stepping : Byte

/-- The nib of a quill that holds the quill's generator instance: R434 quarantines a nib for its mismatch and names none. -/
opaque cgNib : Nat → Fin 9

/-- The home quill that serves PUBLISH of a region, and of a line: fixed by the device, not stated (R190, R213). -/
opaque homeQuill : Nat → Nat

/-- The channel of a stack or of a tile's Inkwell that a 128-byte line lies in, and the quill-store bank of a T0 unit: the
spec names them (R434, R439) and does not lay them out. -/
opaque lineChannel : Nat → Nat
opaque unitBank : Nat → Nat

/-- The 8-byte record of a spill for a row, a bag of the pass and a count: R284 gives its length and no layout. -/
opaque spillRecord : Nat → Nat → Nat → BitVec 64

/-- Whether a FILTER score satisfies VOP against a VREF that is NaN, by VOP and score: R298 orders scores by R239, which has no
place for NaN. A free value. -/
opaque filterNanRef : Nat → Int → Bool

/-- Element `i` of column `l` of a BUILD basis whose orthonormalisation meets a norm that is not finite, by the FP32 patterns of
Y: R350 divides by the norm and states no quotient there. A free value. -/
opaque basisOpen : List (List Nat) → Nat → Nat → BitVec 32

/-- A value the spec leaves open: which open point, and the count of free values taken so far. -/
opaque freeValue : Nat → Nat → BitVec 64

end Sys2Proof.Config
end

