-- ==== Sys2Proof/Machine/State.lean ====
section
/-! DEFINITION. The state of the Skomir as plain data: every register, queue, record, counter, mode and pin the spec gives
it, the queue of waiting commands, the reasons a step may stop, and the state after reset. -/

namespace Sys2Proof.Machine

/-- A finite map from numbers, held in one canonical form: keys strictly rising, no entry equal to the map's default. -/
abbrev Sparse (α : Type) := List (Nat × α)

/-! ### Link layer (02_lualyn_link.md) -/

/-- States of a fabric port (R39), codes 0-7 in this order. -/
inductive LinkSt where
  | disabled | detect | train | align | exchange | active | retrain | halted
  deriving DecidableEq, Repr, Inhabited

/-- A packet sent on a port and not yet acknowledged (R52, R55). -/
structure TxRec where
  lseq : BitVec 16
  pkt  : WirePacket
  deriving DecidableEq, Repr

/-- The link registers of one fabric port (R39 to R66, R95). -/
structure PortSt where
  st        : LinkSt := .disabled
  /-- Within RETRAIN: training is over and the port waits for block lock (R39). -/
  realign   : Bool := false
  /-- Rate tried next: 1 for 212.5 Gb/s, 2 for 106.25 Gb/s (R40). -/
  tryRate   : Nat := 1
  /-- Consecutive TRAIN or ALIGN failures at `tryRate` (R40). -/
  fails     : Nat := 0
  /-- Rate reached (0x3001.02). -/
  rate      : Nat := 0
  peerFid   : Fid := 0
  peerPort  : BitVec 8 := 0
  peerRole  : BitVec 2 := 0
  effClass  : BitVec 3 := 0
  /-- A CAPX has been received since reset, so `peerFid` names a peer (R453). -/
  capxLast  : Option Capx := none
  /-- Consecutive items identical to `capxLast` received in EXCHANGE (R39). -/
  capxRun   : Nat := 0
  txLseq    : BitVec 16 := 0
  /-- Unacknowledged packets, oldest first (R55). -/
  unacked   : List TxRec := []
  /-- Packets still to be resent, in original order, before any new packet (R55, R65, R143). -/
  resend    : List TxRec := []
  rxLseq    : BitVec 16 := 0
  /-- The receiver discards every packet until the expected LSEQ arrives intact (R54). -/
  refusing  : Bool := false
  /-- LSEQ and time of the last NAK sent (R54). -/
  lastNak   : Option (BitVec 16 × Nat) := none
  nakTxRun  : Nat := 0
  /-- LSEQ of the last NAK received, and how many in a row named it (R41). -/
  nakRxLast : Option (BitVec 16) := none
  nakRxRun  : Nat := 0
  /-- Accepted packets not yet acknowledged (R56). -/
  ackOwed   : Nat := 0
  /-- HBEAT items sent (R46). -/
  hbCount   : BitVec 32 := 0
  /-- Count of the last HBEAT received (R46). -/
  hbRx      : Option (BitVec 32) := none
  xoffRx    : BitVec 16 := 0
  /-- XOFF bits last sent: the buffer condition or a meter hold (R154). -/
  xoffTx    : BitVec 16 := 0
  /-- The buffer condition of R63 per VC. -/
  xoffBuf   : BitVec 16 := 0
  /-- BCNT of the last link block with a valid HCHK, and how many such blocks with successive BCNT have come in a row (R39, R44). -/
  rxBcnt    : Option (BitVec 4) := none
  lockRun   : Nat := 0
  /-- The receiver waits for the next FPTR that is not 0xFF (R45). -/
  resync    : Bool := false
  /-- The unit in reception: its bytes so far, whether an uncorrectable codeword carried any of them, and the LSEQ of a packet
  (R45, R53). -/
  rxHeld    : List Byte := []
  rxBad     : Bool := false
  rxSeq     : BitVec 16 := 0
  deriving DecidableEq, Repr, Inhabited

/-- A key slot of a port for one partition (R84 to R87, R400 to R405, R414). -/
structure KeySt where
  /-- 0 empty, 1 active, 2 at KCNT limit, 3 retiring, 4 establishing (0x2002.02). -/
  st     : Nat := 0
  order  : Nat := 0
  txKey  : BitVec 256 := 0
  txSalt : BitVec 32 := 0
  rxKey  : BitVec 256 := 0
  rxSalt : BitVec 32 := 0
  /-- The transmitter may send under it (R404). -/
  txOn   : Bool := false
  kcnt   : Nat := 0
  rcnt   : Nat := 0
  deriving DecidableEq, Repr, Inhabited

/-- A key exchange this device has started on a port (R402, R403). -/
structure Kx where
  port    : Port
  part    : Part
  slot    : KeySlot
  /-- The KX_INIT payload as sent: part of T (R403). -/
  payload : List Byte
  /-- The draw that made the encapsulation key sent. -/
  kem     : Nat
  tag     : BitVec 16
  opid    : Opid
  deriving DecidableEq, Repr

/-! ### Switching and queues (03_switching_routing.md, 04_queues_scheduling.md) -/

/-- States of a route version slot (R120). -/
inductive SlotSt where
  | empty | loading | serving | draining
  deriving DecidableEq, Repr, Inhabited

/-- One route version slot (R110, R117, R120, R121). -/
structure RouteSlot where
  st      : SlotSt := .empty
  rgen    : BitVec 32 := 0
  entries : Sparse (BitVec 128) := []
  ilist   : Sparse (BitVec 32) := []
  /-- The drain timer has expired (R121). -/
  expired : Bool := false
  deriving DecidableEq, Repr, Inhabited

/-- Where a completion of a host request returns (R93). -/
structure HostRet where
  h   : HostPort
  ip  : BitVec 128
  udp : BitVec 16
  deriving DecidableEq, Repr

/-- How a packet came to be held. -/
inductive HeldKind where
  /-- It arrived on a link or from the host bridge. -/
  | wire
  /-- A unit of this device originated it. -/
  | unit
  /-- A Blotter replay, or an attempt of R425 (R420). -/
  | replay
  /-- A completion this device makes as the accepting device: nothing is left to match (R184, R420). -/
  | final
  /-- A KEYX message of this device, sent on its port as it stands (R401). -/
  | raw
  deriving DecidableEq, Repr, Inhabited

/-- A packet the device holds, with what its decision and its buffer accounting need (R97, R104, R137). -/
structure Held where
  pkt     : Packet
  /-- Ingress code of R116 (190 for the memory path). -/
  ingress : BitVec 8
  /-- The tile whose packet buffer holds it (R103). -/
  tile    : Tile
  /-- The input of that tile it is charged to: 0-7 fabric port, 8 spine, 9 memory crossbar, 10-13 quill (R104). -/
  input   : Nat
  /-- The VC it is charged to (R61, R104). -/
  vc      : Nat
  /-- Order of arrival, the age of R137. -/
  age     : Nat
  /-- Bytes it occupies: its length on the link it came by (R67, R104). -/
  len     : Nat
  colour  : Colour := .green
  kind    : HeldKind := .wire
  /-- Return address of a completion to a host (R93). -/
  ret     : Option HostRet := none
  deriving DecidableEq, Repr, Inhabited

/-- A whole packet waiting to cross the spine, with its output (R102). -/
structure SpineItem where
  src  : Tile
  dst  : Tile
  out  : Nat
  held : Held
  /-- Branch ports of a ligature copy, as the ingress tile read the entry (R128, R133). -/
  ports : List Nat := []
  deriving DecidableEq, Repr

/-- Scheduler, shaper and drop state of one output (R136 to R160). -/
structure OutSt where
  q     : List Held := []
  /-- DEF, FRESH and PTR of R141. -/
  deficit : List Nat := [0, 0, 0, 0, 0, 0, 0, 0]
  fresh : List Bool := [true, true, true, true, true, true, true, true]
  ptr   : Nat := 0
  /-- Token counts: classes 0-7, then the port bucket (R145). -/
  tokens : List Int := [8192, 8192, 8192, 8192, 8192, 8192, 8192, 8192, 16384]
  /-- Average C7 depth in 1/1,024 cells (R157). -/
  avg   : Nat := 0
  /-- C7 packets decided (R158). -/
  c7n   : BitVec 32 := 0
  /-- Shaper objects written in the latest timebase cycle with such a write: key, value before that cycle, and the cycle (R148). -/
  wrote : List (Nat × Nat × Nat) := []
  deriving DecidableEq, Repr, Inhabited

/-- One ingress meter (R150 to R155); CBS and PBS are 2,100 by default. -/
structure MeterSt where
  word   : BitVec 192 := BitVec.ofNat 192 (2100 * 2 ^ 64 + 2100 * 2 ^ 32)
  staged : Option (BitVec 192) := none
  tp     : Nat := 0
  tc     : Nat := 0
  green  : Nat := 0
  yellow : Nat := 0
  red    : Nat := 0
  deriving DecidableEq, Repr, Inhabited

/-- A meter hold at a fabric port (R154). -/
structure Hold where
  port  : Port
  cls   : Nat
  meter : Nat
  deriving DecidableEq, Repr

/-- An outstanding route or membership notice (R124, R463). -/
structure Notice where
  port : Port
  fid  : Fid
  tag  : BitVec 16
  opid : Opid
  /-- 0 route epoch, 1 membership epoch. -/
  kind : Nat
  /-- It belongs to the latest write of EPOCH_NOTIFY or MEMBER_NOTIFY (0x3800.09, 0x3800.0A). -/
  latest : Bool := true
  deriving DecidableEq, Repr

/-- A message under assembly at its target (R76, R77). -/
structure Asm where
  key     : ReqKey
  hdr     : Hdr
  pcnt    : Nat
  parts   : List (Nat × List Byte)
  ingress : BitVec 8
  deriving DecidableEq, Repr

/-- A whole message delivered inside the device and not yet served. -/
structure Delivered where
  msg     : Msg
  ingress : BitVec 8
  deriving DecidableEq, Repr

/-! ### Requests, replay (05 R178 to R187, 12 R417 to R432) -/

/-- An entry of the outstanding-request table (R178 to R183). -/
structure TagEntry where
  key     : ReqKey
  op      : BitVec 8
  cls     : BitVec 3
  dst     : Fid
  ingress : BitVec 8
  /-- It comes from the quill tags of R20. -/
  quill   : Bool
  ret     : Option HostRet
  /-- PIDX values the current attempt holds, and whether a RETRY packet started it (R425). -/
  held    : List Nat
  retrying : Bool := false
  /-- Attempts made after the first, as ATT of the journal record (R425). -/
  att     : Nat := 0
  /-- PIDX values of a clashing message with the entry's own OPID (R183). -/
  clashed : List Nat := []
  /-- PIDX values of the completion that have passed back. -/
  back    : List Nat := []
  deriving DecidableEq, Repr

/-- A journal record (R418), with the body a HELD record can send again. -/
structure JRec where
  tile   : Tile
  key    : ReqKey
  hdr    : Hdr
  body   : List Byte
  /-- 1 forwarded, 2 performed here, 3 originated here. -/
  rkind  : Nat
  held   : Bool
  att    : Nat
  egress : BitVec 8
  tacc   : BitVec 32
  tlast  : BitVec 32
  ingr   : BitVec 8
  deriving DecidableEq, Repr

/-- A branch of a ligature record that has not reported (R130). -/
inductive Branch where
  /-- An endpoint: reports when an ACKSEQ covers its copy, once it has been sent with that LSEQ. -/
  | endpoint (p : Port)
  /-- A switch peer: reports by aggregate CMPL. -/
  | switch (p : Port)
  | local_
  deriving DecidableEq, Repr

/-- A ligature record (R130, R131). One closed at its timeout stays, without its Blotter entry, to know the aggregate CMPLs that are
still to come. -/
structure LigRec where
  tile    : Tile
  key     : ReqKey
  lig     : BitVec 12
  cls     : BitVec 3
  ep      : Bool
  retry   : Bool
  hop     : BitVec 4
  ingress : BitVec 8
  deliv   : Nat
  fencd   : Nat
  open_   : List Branch
  closed  : Bool := false
  deriving DecidableEq, Repr

/-- A completed-operation record (R428). -/
structure OpRec where
  tile   : Tile
  src    : Fid
  part   : BitVec 5
  opid   : Opid
  done   : Bool
  ndup   : Nat
  status : BitVec 8
  cflg   : BitVec 8
  cdat   : BitVec 16
  /-- OLD of an atomic; absent where the completion is a CMPL (R428, R429). -/
  res    : Option (BitVec 64)
  tdone  : Nat
  deriving DecidableEq, Repr

/-! ### Memory, coherence, folios, regions (05_memory_semantics_coherence.md) -/

/-- DSTATE of a directory entry (R190). -/
inductive DState where
  | i | s | x | o
  deriving DecidableEq, Repr, Inhabited

/-- A directory entry (R190). -/
structure DirEntry where
  st      : DState := .i
  owner   : Nat := 0
  sharers : BitVec 16 := 0
  /-- DCHK, as its difference from the check code over [31:8], which the spec does not give: 0 where it passes. -/
  chk     : BitVec 8 := 0
  deriving DecidableEq, Repr, Inhabited

/-- Where a run of bytes lies: in a memory of this device, or at a tray or lender named by a folio record (R304, R206). -/
inductive Loc where
  | phys (a : Nat)
  | remote (folio : Nat) (fid : Fid) (raddr : Nat)
  deriving DecidableEq, Repr, Inhabited

/-- A run of bytes that a request touches, within one home. -/
structure Seg where
  loc  : Loc
  len  : Nat
  /-- ADDR that names its first byte: in the owner's SPACE 0x00 or 0x01, or in SPACE 0x02 where the home is quill store. -/
  addr : Nat
  tier : Nat
  /-- Object and piece, for SPACE 0x02. -/
  obj  : Option (Nat × Nat) := none
  /-- The coherence domain whose window it lies in. -/
  dom  : Option Nat := none
  /-- The folio record it lies in. -/
  folio : Option Nat := none
  deriving DecidableEq, Repr, Inhabited

/-- A range that a request reads or writes: runs fixed when it was decoded, or a range of an object, whose runs are taken when the
request reaches its pieces (R313), with the partition that owns the object. -/
inductive Want where
  | runs (l : List Seg)
  | pieces (p a len : Nat)
  deriving DecidableEq, Repr, Inhabited

/-- One part of a memory operation: performed here, or sent to RFID as a C3 request of its own (R206). -/
structure Sub where
  key   : ReqKey
  seg   : Seg
  /-- Bytes that its LOAD reads before those of `seg`, since a LOAD reads whole 16-byte units (R169). -/
  skip  : Nat := 0
  /-- The part covers some bytes of one 16-byte unit: these bytes are stored, from this quill, once its LOAD has brought the unit
  (R169). -/
  put   : Option (Nat × List Byte) := none
  done  : Bool := false
  st    : BitVec 8 := 0
  cflg  : BitVec 8 := 0
  cdat  : BitVec 16 := 0
  data  : List Byte := []
  deriving DecidableEq, Repr, Inhabited

/-- A C3 or C7 memory request as decoded (R167, R208, R214). -/
structure MemReq where
  msg     : Msg
  reads   : List Want
  writes  : List Want
  /-- What its reads gave, once only its writes are left (COPY and MEM_REDUCE). -/
  got     : List Sub := []
  /-- Time of the decode, and whether a stall has been counted (R324). -/
  start   : Nat
  counted : Bool
  deriving DecidableEq, Repr

/-- A transaction a home quill is serving on one line (R192 to R199). A C3 request holds one for each window line it
touches. -/
structure Txn where
  domain : Part
  /-- Physical address of the line, and the ADDR that names it. -/
  line   : Nat
  addr   : Addr
  req    : Msg
  /-- The requesting agent; none for a C3 request, which `job` gives. -/
  agent  : Option Nat
  job    : Option MemReq
  /-- The C3 request writes the line. -/
  write  : Bool
  /-- Agents whose SNOOP_RESP is awaited. -/
  await  : List Nat
  /-- The owner snooped for data, if any, and its answer. -/
  owner  : Option Nat
  res    : Option (BitVec 4)
  /-- The home awaits a DATA_FWD itself (FWD_FID DEV_FID), and the line once it has arrived. -/
  wantData : Bool
  data   : Option (List Byte)
  /-- A placement under a write hint whose answer is awaited (R199). -/
  place  : Option Nat
  /-- When the snoops left (R202). -/
  since  : Nat
  deriving DecidableEq, Repr

/-- A request that waits for its lines at the home (R192). -/
structure CohReq where
  msg     : Msg
  /-- Lines it needs, by physical address. -/
  lines   : List Nat
  /-- A C3 or C7 request, as decoded; none for a C1 request. -/
  job     : Option MemReq
  deriving DecidableEq, Repr

/-- A request that waits on a piece of an object in TRANSIT, since a time (R313, R324). -/
structure PieceWait where
  job   : MemReq
  obj   : Nat
  since : Nat
  deriving DecidableEq, Repr

/-- States of a coherence domain (R200). -/
inductive DomainSt where
  | idle | active | held | tornDown
  deriving DecidableEq, Repr, Inhabited

/-- What a domain holds beside its dictionary values (R200, R202, R220). -/
structure Domain where
  st        : DomainSt := .idle
  heldCause : Nat := 0
  heldAgent : Nat := 0
  deriving DecidableEq, Repr, Inhabited

/-- States of a folio record (R207). -/
inductive FolioSt where
  | free | granted | draining | scrubbing | revoked
  deriving DecidableEq, Repr, Inhabited

/-- A folio record and its state (R204, R207). -/
structure Folio where
  word        : BitVec 256 := 0
  st          : FolioSt := .free
  scrubFailed : Bool := false
  /-- The fill in progress repeats after FOLIO_CLEAR: the record enters FREE when it succeeds (R209). -/
  clearing    : Bool := false
  /-- FILL requests of the scrub that are still out, at HOMEK 1 or 2 (R209). -/
  fills       : List ReqKey := []
  /-- A reset left the record REVOKED, to be filled once the data path has returned (R413, R475). -/
  refill      : Bool := false
  deriving DecidableEq, Repr, Inhabited

/-- A memory operation of which parts have been re-issued (R206, R328). -/
structure Reissue where
  /-- The request as it arrived. -/
  orig   : Msg
  subs   : List Sub
  /-- The writes to make once every read of `subs` is done; none when `subs` are the writes or nothing is written. -/
  writes : Option (List Want)
  /-- Time of the decode, and whether a stall has been counted (R324). -/
  start  : Nat
  counted : Bool
  deriving DecidableEq, Repr

/-- A published region (R211). -/
structure Region where
  owner   : Part
  readers : BitVec 32
  version : BitVec 64
  base    : Addr
  len     : BitVec 64
  fid     : Fid
  deriving DecidableEq, Repr

/-- A versioned load whose last byte has not left (R214, R215). -/
structure VLoad where
  region  : Nat
  version : BitVec 64
  key     : ReqKey
  deriving DecidableEq, Repr

/-- A PUBLISH whose completion waits for readers of the version it superseded (R215). -/
structure WaitPub where
  region  : Nat
  /-- The superseded version. -/
  old     : BitVec 64
  req     : Msg
  cdat    : BitVec 16
  deriving DecidableEq, Repr

/-! ### Exact accumulation and collectives (06_arithmetic_exact_reduction.md) -/

/-- What R227 and R235 distinguish of an element beside the fields of R227: a finite non-zero term has positioned the window, a NaN was
among the inputs and not created by arithmetic, and at least one finite term has arrived. -/
structure ElemNote where
  set   : Bool := false
  nanIn : Bool := false
  any   : Bool := false
  deriving DecidableEq, Repr, Inhabited

/-- A compact element (R227): the value held is (SV + CV) × 2^(WEXP − 160). When `esc` is set SV[13:0] is its entry of the quill's
escalation pool. MAX and MIN hold their one value in SV. -/
structure Elem where
  sv   : BitVec 56 := 0
  cv   : BitVec 56 := 0
  wexp : BitVec 9 := 0
  esc  : Bool := false
  nan  : Bool := false
  pinf : Bool := false
  ninf : Bool := false
  nz   : Bool := true
  note : ElemNote := {}
  deriving DecidableEq, Repr, Inhabited

/-- A full accumulator entry (R230): bit 0 of `value` weighs 2^-160. -/
structure Acc where
  value : BitVec 352 := 0
  nan   : Bool := false
  pinf  : Bool := false
  ninf  : Bool := false
  nz    : Bool := true
  /-- OWNER_EL. -/
  owner : BitVec 16 := 0
  deriving DecidableEq, Repr, Inhabited

/-- States of a collective context (R247). -/
inductive CtxSt where
  | free | running | done | failed | mirror
  deriving DecidableEq, Repr, Inhabited

/-- A collective context (R242 to R260, R443 to R451). -/
structure Ctx where
  st      : CtxSt := .free
  cgen    : BitVec 8 := 0
  desc    : BitVec 512 := 0
  part    : Part := 0
  /-- FIDs joined, by CIDX (R248). -/
  joined  : Sparse Fid := []
  low     : Nat := 0
  limit   : Nat := 0
  /-- Chunks delivered at or above `low`. -/
  delivered : List Nat := []
  escHold : Bool := false
  failSt  : BitVec 8 := 0
  /-- Current PARTNER FID, or the home of a mirror; 0 for none (R244, R443, R447, R451). -/
  partner : Fid := 0
  oepoch  : BitVec 32 := 0
  /-- 0 unmirrored, 1 mirror open pending, 2 mirrored, 3 incomplete mirror held, 4 complete mirror held (0xA600.02). -/
  mirror  : Nat := 0
  /-- The recorded LIMIT and LOWC of a mirror (R445). -/
  recLimit : Nat := 0
  recLow   : Nat := 0
  /-- The opener's request, waiting for the mirror open (R444), and the mirror open that is out. -/
  opener  : Option Msg := none
  mirrorKey : Option ReqKey := none
  /-- The device a REDUCE_TO_MEM result is stored at: the home (R452). -/
  memFid  : Fid := 0
  /-- The slot has held a collective, under `cgen` last. -/
  used    : Bool := false
  deriving DecidableEq, Repr, Inhabited

/-- An open chunk in its slot (R251). -/
structure Chunk where
  ctx   : Nat
  idx   : Nat
  /-- Order of opening, over all contexts of the device (R254). -/
  seq   : Nat
  /-- CIDX values whose bit is set (R250). -/
  bits  : List Nat
  elems : List Elem
  /-- The payload of a BROADCAST's contribution, whose bits are copied (R256). -/
  raw   : List Byte
  /-- Timebase of the first accepted contribution (R465). -/
  first : Nat
  /-- The STORE that is out, for REDUCE_TO_MEM (R256). -/
  storing : Option ReqKey
  deriving DecidableEq, Repr

/-! ### Tables and gather (07_gather_filter_embeddings.md) -/

/-- States of a table (R265). -/
inductive TableSt where
  | free | serving | switching | retiring
  deriving DecidableEq, Repr, Inhabited

/-- A table (R263, R265, R292, R376, counters of R302). -/
structure Table where
  st       : TableSt := .free
  word     : BitVec 512 := 0
  tgen     : BitVec 16 := 0
  staged   : Option (BitVec 512) := none
  wstaged  : Option (BitVec 256) := none
  wdigest  : BitVec 256 := 0
  /-- TGEN of generations that a swap replaced and that have not been reported retired (R303). -/
  oldGens  : List (BitVec 16) := []
  requests : Nat := 0
  hits     : List Nat := [0, 0, 0, 0]
  defUsed  : Nat := 0
  missing  : Nat := 0
  invalid  : Nat := 0
  deriving DecidableEq, Repr, Inhabited

/-- A request queued, held in a window or running at a quill (R280, R291, R294). -/
structure GReq where
  msg   : Msg
  table : Nat
  deriving DecidableEq, Repr

/-- An open window (R280). -/
structure Win where
  key  : WinKey
  wcnt : Nat
  reqs : List GReq
  deriving DecidableEq, Repr

/-- A closed window, or a request started alone, that waits in the queue (R280, R282). -/
structure Job where
  /-- It is a closed window: its passes start by PASS_START. -/
  win  : Bool
  reqs : List GReq
  deriving DecidableEq, Repr

/-- What an index resolves to (R271); `fail` where its directory read failed (R279). -/
inductive IdxRes where
  | invalid
  | missing
  | fail (st : BitVec 8)
  | row (wcls addr : Nat)
  deriving DecidableEq, Repr, Inhabited

/-- A row that a pass reads, or writes back: its index, none for the default row (R278), and the parts of the access. -/
structure RowOp where
  index : Option Nat
  wcls  : Nat
  addr  : Nat
  subs  : List Sub
  /-- It waits on a piece of this object in TRANSIT (R313). -/
  wait  : Option Nat := none
  deriving DecidableEq, Repr

/-- What a started window or request is doing. -/
inductive RunStage where
  /-- Between passes. -/
  | idle
  | reading
  /-- Write-backs of a scatter-add are out. -/
  | writing
  deriving DecidableEq, Repr, Inhabited

/-- A started window or request: the generation it started on, whether TABLE_SYNC marked it, and its pass (R272, R282,
R288, R294). -/
structure Run where
  id    : Nat
  /-- Requests not yet completed. -/
  reqs  : List GReq
  table : Nat
  word  : BitVec 512
  tgen  : BitVec 16
  wdigest : BitVec 256
  sync  : Bool := false
  stage : RunStage := .idle
  /-- Items of the pass: bags from the front of `reqs`, or rows from the front of `rows`. -/
  cur   : Nat := 0
  /-- Distinct present rows of a scatter-add that no pass has taken yet or that the pass holds, ascending. -/
  rows  : List Nat := []
  res   : List (Nat × IdxRes) := []
  ops   : List RowOp := []
  /-- Rows of a scatter-add whose access failed, and rows with a NaN from an input. -/
  fails : List (Nat × BitVec 8) := []
  nans  : List Nat := []
  /-- Rows that the later sub-passes of the pass read (R285). -/
  more  : List RowOp := []
  /-- Accumulator elements held in chunk slots, escalation pool entries held once its terms are added, coalescer entries in use, and the
  spill area held (R282 to R284). -/
  elems : Nat := 0
  esc   : Option Nat := none
  entries : Nat := 0
  spill : Option Nat := none
  /-- Order of starting among chunks (R283), and the time the pass started. -/
  seq   : Nat := 0
  start : Nat := 0
  deriving DecidableEq, Repr

/-- An entry of a popularity table (R273). -/
structure Pop where
  table : Nat
  index : Nat
  count : Nat
  deriving DecidableEq, Repr

/-- The gather state of one quill (R273, R280 to R291). -/
structure QuillSt where
  /-- Requests and closed windows that have not started, in queue order. -/
  jobs    : List Job := []
  wins    : List Win := []
  served  : List WinKey := []
  /-- The pass at the head waits for chunk slots (R282). -/
  waiting : Bool := false
  /-- Entries of the escalation pool in use, by index (R229). -/
  pool    : Sparse (Option Acc) := []
  runs    : List Run := []
  pop     : List Pop := []
  deriving DecidableEq, Repr, Inhabited

/-! ### Objects, moves, prefetch (08_memory_tiers.md) -/

/-- OSTATE of an object (R306). -/
inductive ObjSt where
  | free | home | moving | split
  deriving DecidableEq, Repr, Inhabited

/-- An object (R306, R313 to R323). -/
structure Obj where
  st     : ObjSt := .free
  owner  : Part := 0
  okind  : Nat := 0
  /-- Size in 64 KiB pieces. -/
  size   : Nat := 0
  homea  : Addr := 0
  dsta   : Addr := 0
  /-- Where each piece lives, when not at HOMEA (pieces at DSTA or at an older home of a SPLIT object), as its
  place plus 1 (R313, R317). -/
  pieces : Sparse Nat := []
  moved  : Nat := 0
  /-- Units held at HOMEA and at DSTA when those are T0 homes (R307). -/
  unitsH : List Nat := []
  unitsD : List Nat := []
  pending : Bool := false
  /-- The schedule that started the move in progress, if one did, with SRCT (R324). -/
  sched  : Option (Nat × Nat) := none
  deriving DecidableEq, Repr, Inhabited

/-- A queued or running move (R315). -/
structure Move where
  obj    : Nat
  engine : Nat
  /-- The OBJ_MOVE to complete; none when a schedule started it. -/
  req    : Option Msg
  /-- The next piece to land. -/
  piece  : Nat
  /-- Pieces this move has moved (R316). -/
  count  : Nat
  /-- The piece is in TRANSIT (R313, R314). -/
  transit : Bool := false
  /-- Source and destination of the piece, as they were resolved when it entered TRANSIT. -/
  ends   : Option (Seg × Seg) := none
  /-- The LOAD and the STORE of a piece with a home at T3 or T4. -/
  rd     : Option Sub := none
  wr     : Option Sub := none
  deriving DecidableEq, Repr

/-- A prefetch schedule (R320). -/
structure Sched where
  valid  : Bool := false
  owner  : Part := 0
  base   : Nat := 0
  nent   : Nat := 0
  active : Bool := false
  step   : BitVec 32 := 0
  layer  : Nat := 1
  deriving DecidableEq, Repr, Inhabited

/-! ### Checkpoint compression (09_checkpoint_compression.md) -/

/-- States of a generation entry (R342). -/
inductive GenSt where
  | empty | loading | ready | retiring
  deriving DecidableEq, Repr, Inhabited

/-- A generation entry: its columns lie in the BASIS_SLICE (R340). -/
structure GenEntry where
  st     : GenSt := .empty
  gen    : BitVec 8 := 0
  rank   : Nat := 0
  refs   : Nat := 0
  /-- Digest of the basis image (R375). -/
  digest : BitVec 256 := 0
  deriving DecidableEq, Repr, Inhabited

/-- A basis slot (R340, R343). -/
structure BasisSlot where
  valid   : Bool := false
  owner   : Part := 0
  /-- The generation most recently assigned or loaded (R343). -/
  last    : BitVec 8 := 0
  entries : List GenEntry := [{}, {}, {}, {}]
  deriving DecidableEq, Repr, Inhabited

/-- A read of an address range of a partition for a unit of this device. -/
structure Fetch where
  addr : Nat
  len  : Nat
  /-- It waits on a piece in TRANSIT (R313). -/
  wait : Bool := false
  /-- Since when, and the tier of the piece (R324). -/
  since : Nat := 0
  tier  : Nat := 0
  subs : List Sub := []
  deriving DecidableEq, Repr, Inhabited

/-- What a BUILD or LOAD is doing. -/
inductive BasisStage where
  /-- A LOAD reads its image's header. -/
  | header
  /-- No EMPTY entry (R344). -/
  | waiting
  /-- The tensors, or the image's columns, are read; the entry is LOADING. -/
  | reading
  /-- A BUILD writes its image to IADDR. -/
  | writing
  deriving DecidableEq, Repr, Inhabited

/-- A BUILD or LOAD in progress (R344, R349, R350). -/
structure BasisJob where
  msg   : Msg
  stage : BasisStage
  slot  : Nat
  entry : Nat := 0
  gen   : BitVec 8 := 0
  rank  : Nat := 0
  reads : List Fetch := []
  writes : List Sub := []
  /-- The image of R341. -/
  image : List Byte := []
  deriving DecidableEq, Repr

/-- An ENCODE in progress (R351, R352). -/
structure EncJob where
  msg   : Msg
  slot  : Nat
  entry : Nat
  /-- The block in work, the offset from DADDR of its bytes, and blocks stored RAW. -/
  block : Nat := 0
  off   : Nat := 0
  nraw  : Nat := 0
  /-- The block has been encoded and its writes are `writes`. -/
  wrote : Bool := false
  /-- The block is written and its index entry is being written (R347). -/
  indexed : Bool := false
  /-- DSIZE and kind of the block being written. -/
  size  : Nat := 0
  raw   : Bool := false
  reads : List Fetch := []
  writes : List Sub := []
  deriving DecidableEq, Repr

/-- A block queued at an expander (R354, R355). -/
structure ExpBlock where
  /-- The response it belongs to. -/
  id    : Nat
  part  : Part
  /-- Position in the request's list. -/
  n     : Nat
  baddr : Addr
  hdr   : List Byte
  slot  : Nat
  entry : Option Nat
  /-- The read of its DSIZE bytes, once the expander has begun it. -/
  read  : Option Fetch := none
  deriving DecidableEq, Repr

/-- What an EXPAND has for one block: its status once decided, the output, the DW part of a Seal if it passed R355, and the
bytes that enter DI (R358, R375). -/
structure ExpPart where
  st   : Option (BitVec 8) := none
  data : List Byte := []
  dw   : Option (List Byte) := none
  di   : List Byte := []
  deriving DecidableEq, Repr, Inhabited

/-- An EXPAND: header reads not yet done, then the response being collected (R355, R358). -/
structure ExpResp where
  id     : Nat
  msg    : Msg
  /-- Reads of the headers, before acceptance. -/
  heads  : List Fetch
  accepted : Bool := false
  blocks : List ExpPart := []
  deriving DecidableEq, Repr

/-! ### Determinism (10_determinism_seals.md) -/

/-- The Seal batches of a partition (R378, R379). -/
structure Batch where
  /-- Records of the open batch, oldest first. -/
  open_   : List (List Byte) := []
  /-- The closed batch whose signature is pending: records and key at closing. -/
  closed  : Option (List (List Byte)) := none
  signed  : List Byte := []
  number  : BitVec 32 := 0
  deriving DecidableEq, Repr, Inhabited

/-! ### Partitions (11_partitions_security.md) -/

/-- States of a partition (R386). -/
inductive PartSt where
  | free | open_ | sealing | sealed | removing
  deriving DecidableEq, Repr, Inhabited

/-- An accepted AT_FINISH whose scrub has not ended: the report digest, the bytes of K, and the message if it came as one
(R398 step 4, R399). -/
structure Finish where
  rd  : List Byte
  k   : List Byte
  msg : Option Msg
  deriving DecidableEq, Repr, Inhabited

/-- A partition's records beside its dictionary values (R382 to R416). -/
structure Partition where
  st        : PartSt := .free
  removeStep : Nat := 0
  /-- When REMOVE was written, while the partition's work in flight still runs on (R410 step 3). -/
  removeAt  : Option Nat := none
  /-- When step 6 began, while KX_RETIRE requests still have to leave by ports that return with the partition (R410 steps 4 and 7). -/
  releaseAt : Option Nat := none
  ports     : BitVec 128 := 0
  hosts     : BitVec 2 := 0
  quills    : BitVec 64 := 0
  /-- Device slice of partition slice s; 0xFF unmapped. -/
  slices    : List Byte := List.replicate 128 0xFF#8
  peerAllow : List (BitVec 256) := []
  cred      : Option (BitVec 256) := none
  /-- The attestation key pair in use and the fresh pair of SEALING, named by the DRBG draw that made them (R387). -/
  attKey    : Option Nat := none
  freshKey  : Option Nat := none
  reports   : BitVec 32 := 0
  /-- Latest report, its bytes and the KEM key pair it carries (R396, R397). -/
  report    : List Byte := []
  kemKey    : Option Nat := none
  reportOp  : Option ReqKey := none
  /-- OPID key and answer of the accepted AT_FINISH (R399, R431). -/
  finishOp  : Option ReqKey := none
  confirm   : List Byte := []
  /-- When SEAL was written, while the work then in flight may still run (R398 step 1). -/
  sealAt    : Option Nat := none
  finishing : Option Finish := none
  deriving DecidableEq, Repr, Inhabited

/-- MACsec state of a host port (R407, R408). -/
structure Macsec where
  on      : Bool := false
  sakNo   : BitVec 32 := 0
  key     : BitVec 256 := 0
  salt    : BitVec 96 := 0
  /-- The association being transmitted under, and whether an older one is still installed. -/
  txAn    : BitVec 2 := 0
  rxAn    : BitVec 2 := 0
  oldKey  : Option (BitVec 256 × BitVec 96) := none
  /-- Highest packet number accepted under the new and under the old association. -/
  rxHi    : Nat := 0
  oldHi   : Nat := 0
  deriving DecidableEq, Repr, Inhabited

/-! ### Units, peers, fences, membership (12_faults_replay_spares.md) -/

/-- A unit of R434 that is not in its initial state (R435, R442). -/
structure UnitSt where
  /-- 0 in its first state (in service; a spare: idle), 1 quarantined, 2 retired, 3 an idle spare that was in service before,
  4 a spare in service. -/
  st    : Nat := 0
  /-- A bank that erred while its tile had no free spare (R437). -/
  erred : Bool := false
  /-- What serves in its place while it is quarantined: bank or lane i of the tile as i + 1, 0 none (R434). -/
  stand : Nat := 0
  /-- Failed tests of the self-test in progress (R435). -/
  fails : Nat := 0
  /-- Transients in the last hour (R437), as the times they were counted. -/
  trans : List Nat := []
  deriving DecidableEq, Repr, Inhabited

/-- A watched prefix (R454). -/
structure Watch where
  word   : BitVec 32
  missed : Nat
  /-- No whole interval has begun since the write that added it. -/
  fresh  : Bool
  deriving DecidableEq, Repr

/-- The staged member list (R460). -/
structure Staged where
  mepoch : BitVec 32
  step   : BitVec 32
  sched  : BitVec 8
  list   : List (BitVec 32)
  deriving DecidableEq, Repr

/-- A straggler monitor (R465, R466). -/
structure Strag where
  /-- Eight bins per contributor (R465), by CIDX. -/
  hist  : Sparse (List Nat) := []
  last  : Sparse Nat := []
  /-- Consecutive chunks in which a contributor's lateness reached the limit, by CIDX. -/
  run   : Sparse Nat := []
  deriving DecidableEq, Repr, Inhabited

/-! ### Dictionary (13_tabmas_dictionary.md) -/

/-- An event record of a session's queue or of the log (R501, R542). -/
structure Event where
  eseq   : BitVec 32
  code   : BitVec 16
  epart  : BitVec 8
  coarse : Bool
  tstamp : BitVec 64
  edata  : BitVec 128
  deriving DecidableEq, Repr, Inhabited

/-- A log record (R542). -/
structure LogRec where
  ev   : Event
  boot : BitVec 32
  pno  : BitVec 32
  deriving DecidableEq, Repr, Inhabited

/-- A segmented transfer in progress (R498 to R500). -/
structure Transfer where
  write  : Bool
  xid    : BitVec 16
  index  : BitVec 16
  sub    : BitVec 8
  total  : Nat
  /-- Segments held of a WRITE. -/
  segs   : List (Nat × List Byte)
  /-- The captured value of a READ. -/
  value  : List Byte
  /-- Segments acknowledged (AUXR), and segments sent. -/
  auxr   : Nat
  sent   : Nat
  deriving DecidableEq, Repr

/-- A kept answer to a WRITE (R497). -/
structure Kept where
  xid   : BitVec 16
  index : BitVec 16
  sub   : BitVec 8
  dstat : BitVec 8
  auxr  : BitVec 32
  value : List Byte
  deriving DecidableEq, Repr

/-- A dictionary session (R487 to R505). -/
structure Session where
  sid    : BitVec 16
  role   : Role
  part   : Part
  addr   : TAddr
  nc     : BitVec 256
  nd     : BitVec 256
  authed : Bool
  /-- OPR on the ring with the unset credential (R492). -/
  zeroCred : Bool
  ckey   : BitVec 256
  csalt  : BitVec 32
  dkey   : BitVec 256
  dsalt  : BitVec 32
  rxHi   : BitVec 32
  rxSeen : List Nat
  txSeq  : BitVec 32
  /-- Selector values of the session (R477), by object. -/
  sel    : Sparse Nat
  xfer   : Option Transfer
  kept   : List Kept
  events : List Event
  eseq   : BitVec 32
  lost   : BitVec 32
  /-- Records lost since the last EVENTS_LOST record (R504). -/
  lostNew : Nat
  mask   : BitVec 256
  notify : Bool
  deriving DecidableEq, Repr

/-- An HRB pin (R506 to R508). -/
structure Hrb where
  /-- An attention pulse is being driven. -/
  pulse    : Bool := false
  /-- The 10 µs after the start of the last pulse have not passed. -/
  spacing  : Bool := false
  deferred : Bool := false
  deriving DecidableEq, Repr, Inhabited

/-- Link of a host port (R513). -/
structure HostSt where
  up   : Bool := false
  rate : Nat := 0
  deriving DecidableEq, Repr, Inhabited

/-! ### Scribe (14_scribe_management.md) and power (15_pins_power_reset.md) -/

/-- What the Scribe is doing (R522, R523, R550). -/
inductive ScribeSt where
  | off | running | recovery
  deriving DecidableEq, Repr, Inhabited

/-- FW_STATE (R552), codes 0-7 in this order. -/
inductive FwSt where
  | empty | receiving | staged | verifying | verified | installing | installed | failed
  deriving DecidableEq, Repr, Inhabited

/-- The Scribe (R518 to R553). -/
structure Scribe where
  st       : ScribeSt := .off
  bootCount : BitVec 32 := 0
  lastRestart : Nat := 0
  -- sensors (R524, R551), F32 patterns
  pIn      : BitVec 32 := 0
  vIn      : BitVec 32 := 0
  iIn      : BitVec 32 := 0
  tHot     : BitVec 32 := 0x7FC00000
  tHotSite : Nat := 0
  diodes   : List (BitVec 32) := List.replicate 64 0x7FC00000
  stackT   : List (BitVec 32) := List.replicate 6 0x7FC00000
  coolIn   : BitVec 32 := 0x7FC00000
  coolOut  : BitVec 32 := 0x7FC00000
  tach0    : Nat := 0
  tach1    : Nat := 0
  rails    : List (BitVec 32 × BitVec 32) := List.replicate 8 (0, 0)
  /-- Input energy in units of 2^-149 mJ: the exact sum of the F32 samples. -/
  energy   : Nat := 0
  /-- P_IN and T_HOT at the last 100 ms of Scribe time (R392). -/
  pHeld    : BitVec 32 := 0
  tHeld    : BitVec 32 := 0x7FC00000
  /-- Sensors now invalid (R525): 0-63 diodes, 64 and 65 thermistors. -/
  invalid  : List Nat := []
  -- coolant loop (R526, R527)
  demand   : BitVec 32 := 0
  integral : BitVec 32 := 0
  pumpDuty : BitVec 32 := 0
  valveDuty : BitVec 32 := 0
  /-- Samples since the data path came up, while below ten (R526: e is 0 for the first 10 ms). -/
  upMs     : Nat := 0
  inletHigh : Bool := false
  tachLow  : Bool := false
  -- throttling (R531 to R534)
  divisor  : Nat := 6
  tempDiv  : Nat := 6
  powDiv   : Nat := 6
  /-- Consecutive samples above POWER_LIMIT (R531). -/
  powHigh  : Nat := 0
  /-- Thermal trip or FAULT_IN_ACTION 2 power-down latched, with the time of the trip (R533 to R535). -/
  tripped  : Option Nat := none
  /-- PWR_EN has been low since the trip. -/
  tripLow  : Bool := false
  -- ring (R538 to R540)
  linkA    : Bool := false
  linkB    : Bool := false
  bypass   : Bool := true
  -- log (R542 to R544)
  log      : List LogRec := []
  logNext  : BitVec 32 := 1
  plog     : List LogRec := []
  plogNext : BitVec 32 := 1
  toPersist : List (BitVec 32) := []
  /-- Records persisted in the 1 s interval named (R544, R597). -/
  persistIv : Nat := 0
  persistN  : Nat := 0
  -- firmware (R545 to R550)
  fwSt     : FwSt := .empty
  fwResult : Nat := 0
  staging  : List Byte := []
  /-- The image in flash; none is the image the part left manufacture with. -/
  flash    : Option (List Byte) := none
  -- the image in service
  fwVer    : BitVec 32 := 0
  fwSvn    : Nat := 0
  fwDigest : BitVec 256 := 0
  rollback : Nat := 0
  /-- FW_RECOVERY is to be logged at the next boot (R553). -/
  recovered : Bool := false
  deriving DecidableEq, Repr, Inhabited

/-- Supplies, clocks, reset and sideband (R554 to R579). -/
structure Power where
  vstby    : Bool := false
  vio      : Bool := false
  vin      : Bool := false
  pwrEn    : Bool := false
  resetLow : Bool := false
  throttle : Bool := false
  faultIn  : Bool := false
  /-- PWR_STATE (0x1481.01). -/
  state    : Nat := 0
  bringupStep : Nat := 0
  bringupMs : BitVec 32 := 0
  refclkOk : Bool := false
  /-- A rail fault holds FAULT_OUT_N low until PWR_EN goes low (R562). -/
  railLatch : Bool := false
  /-- VIN was lost while PWR_EN was high (R535). -/
  vinLost  : Bool := false
  /-- When THROTTLE_N and FAULT_IN_N last became inactive (R575). -/
  throttleOff : Nat := 0
  faultOff : Nat := 0
  /-- Inputs reported STUCK, by bit of R578 (R575). -/
  stuck    : BitVec 8 := 0
  chatter  : BitVec 8 := 0
  tachSat  : BitVec 8 := 0
  /-- Tiles within 1 ms of a tile reset (R571). -/
  tileWin  : List Tile := []
  /-- Zeroing of R413 is under way, so CREATE is refused. -/
  zeroing  : Bool := false
  /-- Facilities of scan, trace and memory inspection are closed (R391). -/
  scanOff  : Bool := false
  deriving DecidableEq, Repr, Inhabited

/-- The counters at the last 10 ms boundary of the timebase while a partition was SEALED (R392). -/
structure Snap where
  ctr    : Sparse Nat := []
  tables : Sparse Table := []
  meters : Sparse MeterSt := []
  strags : Sparse Strag := []
  deriving DecidableEq, Repr, Inhabited

/-- The disabled-unit map (R441). -/
structure DuMap where
  tfuse : BitVec 16 := 0
  pret  : BitVec 128 := 0
  qret  : BitVec 64 := 0
  /-- Retired nibs per quill, 9 bits each. -/
  nibs  : List (BitVec 16) := List.replicate 64 0
  /-- TILEU, 64 bits per tile. -/
  tileu : List (BitVec 64) := List.replicate 16 0
  stkch : List (BitVec 32) := List.replicate 6 0
  inkch : BitVec 64 := 0
  deriving DecidableEq, Repr, Inhabited

/-! ### What leaves the device -/

/-- One thing the device has sent or driven; the model's own record of its outputs. -/
inductive Out where
  | packet (p : Port) (lseq : BitVec 16) (w : WirePacket)
  | stomped (p : Port) (w : WirePacket)
  | hostPacket (h : HostPort) (ret : Option HostRet) (p : Packet)
  | item (p : Port) (ltype : BitVec 8) (i : LinkItem) (tspec : BitVec 64)
  | dict (a : TAddr) (m : DMsg)
  | answer (by_ : Caller) (dstat : BitVec 8) (auxr : BitVec 32) (value : List Byte)
  | arpReply (h : HostPort)
  | ndReply (h : HostPort)
  | echoReply (h : HostPort)
  | ringForward (portB : Bool) (f : RingFrame)
  | ringAlert (portB : Bool) (record : List Byte)
  | hrb (h : HostPort) (high : Bool)
  deriving DecidableEq, Repr

/-! ### The whole state -/

/-- The state of the device, and the queue of waiting commands. -/
structure State where
  /-- Commands that wait, first in, first out. The model's own field. -/
  pending   : List Instr := []
  /-- Scribe time in 10 ns units (R521), and the timebase count (R27). -/
  time      : Nat := 0
  timebase  : Nat := 0
  /-- Values of RW and RWS objects that differ from their defaults, by 256 × index + subindex (R475). -/
  obj       : Sparse Nat := []
  /-- BLOB values of RW objects, by the same key (R470). -/
  blob      : Sparse (List Byte) := []
  /-- Counters and other RO values, by the same key (R476). -/
  ctr       : Sparse Nat := []
  /-- Scheduler, shaper and drop values in force since the last refill boundary (R148). -/
  qos       : Sparse Nat := []
  /-- Interval in which each limited event was last raised, by code and unit (R597): interval + 1. -/
  limits    : Sparse Nat := []
  /-- Counts arrivals and openings, to order them. The model's own field. -/
  serial    : Nat := 0
  /-- Number of free values taken. The model's own field. -/
  free      : Nat := 0
  out       : List Out := []
  ports     : Sparse PortSt := []
  keys      : Sparse KeySt := []
  kx        : List Kx := []
  /-- KX_ACTIVE and KX_RETIRE requests of this device that have not completed (R401, R411). -/
  rawOut    : List ReqKey := []
  /-- ORIG_EP before its last write, and the time of that write (R123); the written value is an object. -/
  epPrev    : Bool := false
  epTime    : Nat := 0
  slot0     : RouteSlot := {}
  slot1     : RouteSlot := {}
  ligs      : Sparse (BitVec 256) := []
  inq       : Sparse (List Held) := []
  spine     : List SpineItem := []
  /-- The spine's turns (R139): by egress tile, the class last served of C3-C7; by 16 + 8 × egress tile + class, the source tile
  last served. -/
  spinePtr  : Sparse Nat := []
  outs      : Sparse OutSt := []
  meters    : Sparse MeterSt := []
  holds     : List Hold := []
  /-- Draws made per ingress code (R116). -/
  draws     : Sparse (BitVec 32) := []
  notices   : List Notice := []
  asm       : List Asm := []
  badMsgs   : List ReqKey := []
  delivered : List Delivered := []
  tags      : List TagEntry := []
  /-- Requests completed TGT_DEAD whose late completion is to be absorbed (R187). -/
  late      : List ReqKey := []
  journal   : List JRec := []
  ligRecs   : List LigRec := []
  opRecs    : List OpRec := []
  /-- Memory by physical address (see `Phys` in Ops): Inkwell, stacks, quill stores. -/
  mem       : List Host.Cell := []
  /-- 32-byte words, by physical address / 32, with an uncorrectable error (R216); rising. -/
  poison    : List Nat := []
  domains   : Sparse Domain := []
  dir       : Sparse DirEntry := []
  txns      : List Txn := []
  cohWait   : List CohReq := []
  folios    : Sparse Folio := []
  reissues  : List Reissue := []
  regions   : Sparse (Option Region) := []
  vloads    : List VLoad := []
  waitPubs  : List WaitPub := []
  ctxs      : Sparse Ctx := []
  chunks    : List Chunk := []
  tables    : Sparse Table := []
  quills    : Sparse QuillSt := []
  objects   : Sparse Obj := []
  moves     : List Move := []
  moveQ     : List Move := []
  transitWait : List PieceWait := []
  scheds    : Sparse Sched := []
  pfPool    : Sparse (BitVec 128) := []
  slots     : Sparse BasisSlot := []
  basisJobs : List BasisJob := []
  encJobs   : List EncJob := []
  expanders : Sparse (List ExpBlock) := []
  expResps  : List ExpResp := []
  batches   : Sparse Batch := []
  parts     : Sparse Partition := []
  macsec    : Sparse Macsec := []
  units     : Sparse UnitSt := []
  /-- What serves a bank's or die-to-die lane's place, by the unit code of the place: 0 itself, i + 1 bank or lane i of the
  tile, 255 nothing (R434, R435, R439). -/
  standIn   : Sparse Nat := []
  dumap     : DuMap := {}
  watches   : List Watch := []
  /-- Next HEARTBEAT sequence per destination FID (R454). -/
  hbSeq     : Sparse (BitVec 32) := []
  /-- Watched prefixes heard from in the current 1 ms interval. -/
  hbHeard   : List (BitVec 32) := []
  /-- Peers declared dead, laid out as R117 (R455). -/
  dead      : List (BitVec 32) := []
  /-- Peers that have shown life, laid out as R117 (0xA300.03). -/
  alive     : List (BitVec 32) := []
  fences    : List (BitVec 32) := []
  fepoch    : BitVec 32 := 0
  members   : List (BitVec 32) := []
  mepoch    : BitVec 32 := 0
  staged    : Option Staged := none
  /-- Requests accepted before the member list changed, checked against the list they came under (R461). -/
  grandfathered : List ReqKey := []
  strags    : Sparse Strag := []
  sessions  : List Session := []
  /-- A segmented transfer with the recovery loader, and the ring address it is with (R550). -/
  loader    : Option (BitVec 48 × Transfer) := none
  oprCred   : Option (BitVec 256) := none
  /-- Source addresses refused after a failed authentication (R493). -/
  refused   : List TAddr := []
  hostSt    : Sparse HostSt := []
  hrbs      : Sparse Hrb := []
  scribe    : Scribe := {}
  power     : Power := {}
  snap      : Snap := {}
  deriving DecidableEq, Repr, Inhabited

/-- The state before VSTBY is applied: every object at its default (R475), partition 0 OPEN (R382, R386), every other
record in its first state. DESIGN CHOICE (notes/assumptions/1.md): where the spec gives a register no reset value it is 0. -/
def State.reset : State := { parts := [(0, { st := .open_ })] }

/-- Why the device stops. The spec gives the Skomir no stop: every fault it describes is a state, an event or a status, so
no meaning raises a fault. -/
inductive Fault where
  /-- Raised by no command. Safe. -/
  | none
  deriving DecidableEq, Repr

/-- Why a command has no meaning. -/
inductive Refusal where
  /-- Raised by an arm of `exec` whose command has no meaning yet. Safe. -/
  | notModelled (mnemonic : String)
  deriving DecidableEq, Repr

end Sys2Proof.Machine
end

