-- ==== Sys2Proof/Machine/Codes.lean ====
section
/-! DEFINITION. The numbers the spec gives names: opcodes (R71), completion statuses (R83), dictionary statuses (R482),
event codes (R517), and the default values of the dictionary's RW and RWS objects. -/

namespace Sys2Proof.Machine

namespace Op
abbrev heartbeat : BitVec 8 := 0x01
abbrev fence : BitVec 8 := 0x02
abbrev keyx : BitVec 8 := 0x03
abbrev attest : BitVec 8 := 0x04
abbrev epoch : BitVec 8 := 0x05
abbrev trigger : BitVec 8 := 0x06
abbrev load : BitVec 8 := 0x10
abbrev store : BitVec 8 := 0x11
abbrev atomic : BitVec 8 := 0x12
abbrev fill : BitVec 8 := 0x13
abbrev copy : BitVec 8 := 0x14
abbrev compare : BitVec 8 := 0x15
abbrev memReduce : BitVec 8 := 0x16
abbrev publish : BitVec 8 := 0x17
abbrev objMove : BitVec 8 := 0x18
abbrev rdShared : BitVec 8 := 0x20
abbrev rdOwn : BitVec 8 := 0x21
abbrev upgrade : BitVec 8 := 0x22
abbrev writeback : BitVec 8 := 0x23
abbrev evict : BitVec 8 := 0x24
abbrev homeAtomic : BitVec 8 := 0x25
abbrev cohStore : BitVec 8 := 0x26
abbrev snoop : BitVec 8 := 0x30
abbrev dataFwd : BitVec 8 := 0x31
abbrev snoopResp : BitVec 8 := 0x32
abbrev cmpl : BitVec 8 := 0x40
abbrev cmplData : BitVec 8 := 0x41
abbrev bag : BitVec 8 := 0x50
abbrev scatterAdd : BitVec 8 := 0x51
abbrev filter : BitVec 8 := 0x52
abbrev contrib : BitVec 8 := 0x53
abbrev collCtl : BitVec 8 := 0x54
abbrev expand : BitVec 8 := 0x55
abbrev encode : BitVec 8 := 0x56
abbrev result : BitVec 8 := 0x60
abbrev credit : BitVec 8 := 0x61
abbrev bulkStore : BitVec 8 := 0x70
abbrev bulkLoad : BitVec 8 := 0x71
end Op

/-- What R71 says of an opcode: the class it is allowed in (none: the response class), whether it may form multi-packet
messages, and its completion (none, CMPL or CMPL_DATA). -/
structure OpInfo where
  cls   : Option Nat
  multi : Bool
  /-- 0 none, 1 CMPL, 2 CMPL_DATA. -/
  cmpl  : Nat
  deriving DecidableEq, Repr

/-- The opcode table of R71; every other OP value is reserved. -/
def opTable : List (BitVec 8 × OpInfo) :=
  [(Op.heartbeat, ⟨some 0, false, 0⟩), (Op.fence, ⟨some 0, false, 1⟩), (Op.keyx, ⟨some 0, true, 1⟩),
   (Op.attest, ⟨some 0, true, 2⟩), (Op.epoch, ⟨some 0, false, 1⟩), (Op.trigger, ⟨some 0, false, 0⟩),
   (Op.load, ⟨some 3, false, 2⟩), (Op.store, ⟨some 3, true, 1⟩), (Op.atomic, ⟨some 3, false, 2⟩),
   (Op.fill, ⟨some 3, false, 1⟩), (Op.copy, ⟨some 3, false, 1⟩), (Op.compare, ⟨some 3, false, 2⟩),
   (Op.memReduce, ⟨some 3, true, 1⟩), (Op.publish, ⟨some 3, false, 1⟩), (Op.objMove, ⟨some 3, false, 1⟩)] ++
  [(Op.rdShared, ⟨some 1, false, 2⟩), (Op.rdOwn, ⟨some 1, false, 2⟩), (Op.upgrade, ⟨some 1, false, 1⟩),
   (Op.writeback, ⟨some 1, false, 1⟩), (Op.evict, ⟨some 1, false, 1⟩), (Op.homeAtomic, ⟨some 1, false, 2⟩),
   (Op.cohStore, ⟨some 1, false, 1⟩), (Op.snoop, ⟨some 2, false, 0⟩), (Op.dataFwd, ⟨some 2, false, 0⟩),
   (Op.snoopResp, ⟨some 2, false, 0⟩), (Op.cmpl, ⟨none, false, 0⟩), (Op.cmplData, ⟨none, true, 0⟩)] ++
  [(Op.bag, ⟨some 5, true, 2⟩), (Op.scatterAdd, ⟨some 5, true, 1⟩), (Op.filter, ⟨some 5, true, 2⟩),
   (Op.contrib, ⟨some 5, false, 1⟩), (Op.collCtl, ⟨some 5, false, 1⟩), (Op.expand, ⟨some 5, true, 2⟩),
   (Op.encode, ⟨some 5, true, 1⟩), (Op.result, ⟨some 6, true, 0⟩), (Op.credit, ⟨some 6, false, 0⟩),
   (Op.bulkStore, ⟨some 7, true, 1⟩), (Op.bulkLoad, ⟨some 7, false, 2⟩)]

/-- What R71 says of `op`, if it is not reserved. -/
def opInfo (op : BitVec 8) : Option OpInfo := (opTable.find? fun e => e.1 == op).map (·.2)

/-- The opcode is a completion (R71). -/
def isCmplOp (op : BitVec 8) : Bool := op == Op.cmpl || op == Op.cmplData

/-- Response class of a request class (R79). DESIGN CHOICE (notes/assumptions/69.md): R79 has no column for C4 and C6, so a
request refused in one of these (R72) completes in its own class. -/
def respClass (c : BitVec 3) : BitVec 3 :=
  match c.toNat with
  | 0 => 0 | 1 => 2 | 2 => 2 | 3 => 4 | 5 => 6 | 7 => 7 | _ => c

/-- Whether the opcode may form multi-packet messages (R71). -/
def isMulti (op : BitVec 8) : Bool := match opInfo op with | some i => i.multi | none => false

/-- R71 and R72: the opcode is defined and allowed in its class. -/
def opAllowed (op : BitVec 8) (cls : BitVec 3) : Bool :=
  match opInfo op with
  | none => false
  | some i => match i.cls with
    | some c => c == cls.toNat
    | none => cls.toNat == 0 || cls.toNat == 2 || cls.toNat == 4 || cls.toNat == 6 || cls.toNat == 7

/-- The opcode names a request with a completion (R71, R178). -/
def hasCmpl (op : BitVec 8) : Bool :=
  match opInfo op with | some i => i.cmpl != 0 | none => false

/-- The opcode names a request: not a completion, RESULT, CREDIT, SNOOP, DATA_FWD or SNOOP_RESP. -/
def isRequest (op : BitVec 8) : Bool :=
  !(isCmplOp op || op == Op.result || op == Op.credit || op == Op.snoop || op == Op.dataFwd || op == Op.snoopResp)

/-- Opcodes that R430 marks "once", by completed-operation record. -/
def onceOps : List (BitVec 8) :=
  [Op.store, Op.bulkStore, Op.atomic, Op.fill, Op.copy, Op.memReduce, Op.publish, Op.objMove, Op.scatterAdd, Op.encode,
   Op.collCtl, Op.attest]

end Sys2Proof.Machine

namespace Sys2Proof

/-- FLG bits (R69). -/
def flagBit (f : BitVec 8) (i : Nat) : Bool := f.getLsbD i
def Hdr.last (h : Hdr) : Bool := flagBit h.flg 7
def Hdr.ord (h : Hdr) : Bool := flagBit h.flg 6
def Hdr.hint (h : Hdr) : Bool := flagBit h.flg 5
def Hdr.seal (h : Hdr) : Bool := flagBit h.flg 4
def Hdr.retry (h : Hdr) : Bool := flagBit h.flg 3
def Hdr.mcast (h : Hdr) : Bool := flagBit h.flg 2
end Sys2Proof

namespace Sys2Proof.Machine

/-- LAST and RETRY as FLG values. -/
def flagLast : BitVec 8 := 0x80
def flagRetry : BitVec 8 := 0x08

namespace St
abbrev ok : BitVec 8 := 0x00
abbrev tgtDead : BitVec 8 := 0x01
abbrev extentRevoked : BitVec 8 := 0x02
abbrev accessDenied : BitVec 8 := 0x03
abbrev fenced : BitVec 8 := 0x04
abbrev stateLost : BitVec 8 := 0x05
abbrev clrSizeMismatch : BitVec 8 := 0x06
abbrev clrGenAbsent : BitVec 8 := 0x07
abbrev publishConflict : BitVec 8 := 0x08
abbrev busy : BitVec 8 := 0x09
abbrev uncorrectable : BitVec 8 := 0x0A
abbrev replayExhausted : BitVec 8 := 0x0B
abbrev formatUnsupported : BitVec 8 := 0x0C
abbrev boundExceeded : BitVec 8 := 0x0D
end St

namespace Ds
abbrev ok : BitVec 8 := 0x00
abbrev accessDenied : BitVec 8 := 0x03
abbrev busy : BitVec 8 := 0x09
abbrev formatUnsupported : BitVec 8 := 0x0C
abbrev boundExceeded : BitVec 8 := 0x0D
abbrev noObject : BitVec 8 := 0x40
abbrev wrongAccess : BitVec 8 := 0x41
abbrev wrongLength : BitVec 8 := 0x42
abbrev outOfRange : BitVec 8 := 0x43
abbrev unitNotStopped : BitVec 8 := 0x44
abbrev valueRejected : BitVec 8 := 0x45
abbrev sessionInvalid : BitVec 8 := 0x46
abbrev authFailed : BitVec 8 := 0x47
abbrev transferAborted : BitVec 8 := 0x48
abbrev tooLarge : BitVec 8 := 0x49
end Ds

/-- An interval of 1 µs, 1 ms, 1 s in the 10 ns units of Scribe time (R521). -/
def us : Nat := 100
def ms : Nat := 100000
def sec : Nat := 100000000

/-- The key of object INDEX.SUB. -/
def okey (index sub : Nat) : Nat := index * 256 + sub

/-- A fabric port, output, host port, partition or quill whose objects are held at stride. -/
def portObj (n i sub : Nat) : Nat := okey (0x3000 + 8 * n + i) sub
def hostObj (n i sub : Nat) : Nat := okey (0x3400 + 8 * n + i) sub
def outObj (n i sub : Nat) : Nat := okey (0x4000 + 4 * n + i) sub
def partObj (p i sub : Nat) : Nat := okey (0x2000 + 0x80 * p + i) sub
def quillObj (q sub : Nat) : Nat := okey (0x7040 + q) sub
def gatherObj (q sub : Nat) : Nat := okey (0x8200 + q) sub

/-- The Default column of an output's objects (R163). -/
def outDefault (i sub : Nat) : Nat :=
  if i = 0 then
    if sub = 0x01 then 0x45
    else if sub = 0x03 then 16384
    else if 0x10 ≤ sub ∧ sub ≤ 0x16 then 4
    else if sub = 0x17 then 1
    else if sub = 0x20 then 1000
    else if 0x28 ≤ sub ∧ sub ≤ 0x2F then 8192
    else if sub = 0x31 ∨ sub = 0x33 ∨ sub = 0x35 ∨ sub = 0x37 then 0xFFFF
    else 0
  else if i = 1 then
    match sub with
    | 0x01 => 4 | 0x02 => 8192
    | 0x03 => 1024 | 0x04 => 4096 | 0x05 => 6554
    | 0x06 => 512 | 0x07 => 2048 | 0x08 => 16384
    | 0x09 => 0 | 0x0A => 512 | 0x0B => 32768
    | _ => 0
  else 0

/-- The Default column of the scalar RW and RWS objects, F32 values as bit patterns (R475). Zero where it is zero. -/
def objDefault (k : Nat) : Nat :=
  let ix := k / 256
  let sub := k % 256
  if 0x3000 ≤ ix ∧ ix < 0x3400 then
    if (ix - 0x3000) % 8 = 0 then (match sub with | 2 => 3 | 3 => 1 | _ => 0) else 0
  else if ix = 0x3400 ∨ ix = 0x3408 then (match sub with | 2 => 3 | 4 => 24 | 6 => 0xFFFF | _ => 0)
  else if 0x4000 ≤ ix ∧ ix < 0x4000 + 4 * 130 then outDefault ((ix - 0x4000) % 4) sub
  else if 0x5020 ≤ ix ∧ ix ≤ 0x503F then (match sub with | 2 => 65536 | _ => 0)
  else if 0x6100 ≤ ix ∧ ix < 0x6300 then (if (ix - 0x6100) % 16 = 2 then 0xFFFFFFFF else 0)
  else if 0xA700 ≤ ix ∧ ix ≤ 0xA70F then (match sub with | 1 => 0xFFFF | 5 => 50 | _ => 0)
  else match ix, sub with
  | 0x3800, 0x03 => 12
  | 0x3800, 0x04 => 200
  | 0x3800, 0x07 => 100
  | 0x3806, 0x01 => 8192
  | 0x3806, 0x02 => 32768
  | 0x3806, 0x03 => 4096
  | 0x4302, 0x02 => 100
  | 0x5000, 0x01 => 64
  | 0x5100, 0x07 => 1000
  | 0x5400, 0x0C => 10
  | 0x6000, 0x01 => 0x67472707
  | 0x6000, 0x03 => 500
  | 0x7000, 0x01 => 256
  | 0x7000, 0x02 => 4096
  | 0x7000, 0x03 => 50
  | 0x8000, 0x01 => 20
  | 0x8000, 0x03 => 0xFFFFFFFF
  | 0x8000, 0x04 => 100
  | 0x9000, 0x01 => 5
  | 0x9000, 0x02 => 10000
  | 0xA000, 0x01 => 20
  | 0xA000, 0x02 => 1000
  | 0xA100, 0x02 => 16
  | 0x1100, 0x03 => 30
  | 0x1201, 0x05 => 3
  | 0x1410, 0x01 => 0x42AA0000
  | 0x1410, 0x02 => 0x3D75C28F
  | 0x1410, 0x03 => 0x40800000
  | 0x1410, 0x04 => 0x3F000000
  | 0x1410, 0x05 => 0x41F00000
  | 0x1410, 0x06 => 0x41A00000
  | 0x1410, 0x08 => 0x42C80000
  | 0x1410, 0x09 => 0x41200000
  | 0x1410, 0x0E => 0x42340000
  | 0x1410, 0x0F => 20
  | 0x1420, 0x03 => 0x42BE0000
  | 0x1420, 0x04 => 0x42C80000
  | 0x1420, 0x05 => 0x40A00000
  | 0x1420, 0x06 => 0x42DC0000
  | 0x1420, 0x07 => 1450
  | 0x1420, 0x08 => 8
  | 0x1420, 0x09 => 1
  | 0x1420, 0x0A => 6
  | 0x1620, 0x04 => 10000
  | _, _ => 0

end Sys2Proof.Machine
end

