-- ==== Sys2Proof/Machine/Sparse.lean ====
section
/-! DEFINITION. Sparse maps in canonical form, and memory as the sparse map whose unlisted addresses read as zero. -/

namespace Sys2Proof.Machine

/-- The entry at `k`, or the default; the keys rise, so the search ends at a greater one. -/
def Sparse.get {α : Type} (d : α) : Sparse α → Nat → α
  | [], _ => d
  | (k', v) :: m, k => if k < k' then d else if k = k' then v else Sparse.get d m k

/-- The entries above `k`. -/
def Sparse.above {α : Type} (k : Nat) : Sparse α → Sparse α
  | [] => []
  | (k', v) :: m => if k' ≤ k then Sparse.above k m else (k', v) :: m

/-- Writes `v` at `k`; writing the default removes the entry. -/
def Sparse.set {α : Type} [DecidableEq α] (d : α) : Sparse α → Nat → α → Sparse α
  | [], k, v => if v = d then [] else [(k, v)]
  | (k', v') :: m, k, v =>
    if k < k' then (if v = d then (k', v') :: m else (k, v) :: (k', v') :: m)
    else if k = k' then (if v = d then Sparse.above k m else (k, v) :: m)
    else (k', v') :: Sparse.set d m k v

/-- Removes every entry whose key satisfies `p`. -/
def Sparse.drop {α : Type} (p : Nat → Bool) (m : Sparse α) : Sparse α := m.filter fun e => !p e.1

/-- Changes every value, dropping those that become the default. -/
def Sparse.mapVals {α : Type} [DecidableEq α] (d : α) (f : α → α) (m : Sparse α) : Sparse α :=
  m.filterMap fun e => if f e.2 = d then none else some (e.1, f e.2)

/-- Keys strictly rise from above `lo`, and no entry is the default. -/
def Sparse.wfFrom {α : Type} [DecidableEq α] (d : α) (lo : Nat) : Sparse α → Bool
  | [] => true
  | (k, v) :: m => decide (lo ≤ k) && !(decide (v = d)) && Sparse.wfFrom d (k + 1) m

/-- The canonical form of a sparse map. -/
def Sparse.wf {α : Type} [DecidableEq α] (d : α) (m : Sparse α) : Bool := Sparse.wfFrom d 0 m

/-- What a byte of memory that nothing has written reads as: zero, as the zeroing of R413 leaves it. -/
def emptyByte : Byte := 0

/-- The canonical form of memory. -/
def Memory.wf (m : List Host.Cell) : Bool := Sparse.wf emptyByte m

/-- One byte of memory. -/
def Memory.read (m : List Host.Cell) (a : Nat) : Byte := Sparse.get emptyByte m a

/-- Stores one byte. -/
def Memory.write (m : List Host.Cell) (a : Nat) (b : Byte) : List Host.Cell := Sparse.set emptyByte m a b

/-- `n` bytes from `a`. -/
def Memory.readN (m : List Host.Cell) (a : Nat) : Nat → List Byte
  | 0 => []
  | n + 1 => Memory.read m a :: Memory.readN m (a + 1) n

/-- Stores the bytes `bs` from `a`. -/
def Memory.writeN (m : List Host.Cell) (a : Nat) : List Byte → List Host.Cell
  | [] => m
  | b :: bs => Memory.writeN (Memory.write m a b) (a + 1) bs

/-- Zeroes `n` bytes from `a`. -/
def Memory.zero (m : List Host.Cell) (a n : Nat) : List Host.Cell := Sparse.drop (fun k => a ≤ k && k < a + n) m

end Sys2Proof.Machine
end

