-- ==== Sys2Proof/Machine/Wire.lean ====
section
/-! DEFINITION. What travels as bytes: the Lualyn header (R68), the packet CRC (R90), link blocks (R43, R44), link encryption (R84), and the
dictionary message (R485). -/

namespace Sys2Proof

/-- The header as a 256-bit number, bit 255 the most significant bit of byte 0 (R68). -/
def Hdr.num (h : Hdr) : Nat :=
  (h.ver.toNat * 2 ^ 254 + h.cls.toNat * 2 ^ 251 + b2n h.ep * 2 ^ 250 + h.ks.toNat * 2 ^ 248 + h.op.toNat * 2 ^ 240) +
  (h.flg.toNat * 2 ^ 232 + h.plen.toNat * 2 ^ 224 + h.dst.toNat * 2 ^ 200 + h.src.toNat * 2 ^ 176) +
  (h.part.toNat * 2 ^ 171 + b2n h.val * 2 ^ 167 + h.hop.toNat * 2 ^ 163 + h.tag.toNat * 2 ^ 144) +
  (h.mid.toNat * 2 ^ 128 + h.opid.toNat * 2 ^ 88 + h.addr.toNat * 2 ^ 32 + h.aux.toNat)

/-- The 32 header bytes, big-endian (R13). -/
def Hdr.bytes (h : Hdr) : List Byte := beBytes 32 h.num

/-- Eight shift steps of the reflected CRC-32C, polynomial 0x1EDC6F41 (R90). -/
def crcShift : Nat → BitVec 32 → BitVec 32
  | 0, c => c
  | n + 1, c => crcShift n (if c.getLsbD 0 then (c >>> 1) ^^^ 0x82F63B78#32 else c >>> 1)

/-- One byte into the reflected CRC-32C. -/
def crcByte (c : BitVec 32) (b : Byte) : BitVec 32 := crcShift 8 (c ^^^ b.setWidth 32)

/-- CRC-32C of a byte string (R90). -/
def crc32c (bs : List Byte) : BitVec 32 := ~~~ (bs.foldl crcByte 0xFFFFFFFF#32)

/-- The header bytes as they stand on the link, reserved bits [170:168] and [162:160] among them (R68). -/
def WirePacket.hdrBytes (w : WirePacket) : List Byte :=
  beBytes 32 (w.hdr.num + w.rsv.toNat / 8 * 2 ^ 168 + w.rsv.toNat % 8 * 2 ^ 160)

/-- The bytes a CRC covers on a hop: header, payload and tag as sent (R90). -/
def WirePacket.bytes (w : WirePacket) : List Byte := w.hdrBytes ++ w.payload ++ w.tag

/-- The correct CRC-32C of a packet as it stands on the link. -/
def WirePacket.goodCrc (w : WirePacket) : BitVec 32 := crc32c w.bytes

/-- A packet's bytes in the order they travel: header, payload, tag, then the CRC, least significant byte first (R67, R90). -/
def WirePacket.frame (w : WirePacket) : List Byte := w.bytes ++ leBytes 4 w.crc.toNat

/-- Length on the link: 36 + 16 × PLEN bytes, and 16 more when KS ≠ 0 (R67). -/
def Hdr.wireLen (h : Hdr) : Nat := 36 + 16 * h.plen.toNat + (if h.ks = 0 then 0 else 16)

/-- The payload under a keystream. -/
def gcmXor (key : BitVec 256) (nonce : BitVec 96) : Nat → List Byte → List Byte
  | _, [] => []
  | i, b :: bs => (b ^^^ Config.gcmStream key nonce i) :: gcmXor key nonce (i + 1) bs

/-- The GCM tag as 16 bytes. -/
def gcmTagBytes (key : BitVec 256) (nonce : BitVec 96) (aad ct : List Byte) : List Byte :=
  beBytes 16 (Config.gcmTag key nonce aad ct).toNat

/-- The link nonce SALT ‖ KCNT (R85). -/
def linkNonce (salt : BitVec 32) (kcnt : Nat) : BitVec 96 := salt ++ BitVec.ofNat 64 kcnt

/-- A packet sent in clear: KS 0, no tag (R67). -/
def sealClear (p : Packet) : WirePacket :=
  let h := { p.hdr with ks := 0 }
  { hdr := h, payload := p.payload, tag := [], crc := crc32c (h.bytes ++ p.payload), codewordsOk := true }

/-- A packet sent under key slot `ks` with count `kcnt` (R84, R85). -/
def sealKeyed (ks : KeySlot) (key : BitVec 256) (salt : BitVec 32) (kcnt : Nat) (p : Packet) : WirePacket :=
  let h := { p.hdr with ks := ks }
  let n := linkNonce salt kcnt
  let ct := gcmXor key n 0 p.payload
  let tag := gcmTagBytes key n h.bytes ct
  { hdr := h, payload := ct, tag := tag, crc := crc32c (h.bytes ++ ct ++ tag), codewordsOk := true }

/-- Checks the tag of a received packet and returns its clear form (R84, R88). -/
def openKeyed (key : BitVec 256) (salt : BitVec 32) (kcnt : Nat) (w : WirePacket) : Option Packet :=
  let n := linkNonce salt kcnt
  if w.tag = gcmTagBytes key n w.hdrBytes w.payload then
    some { hdr := w.hdr, payload := gcmXor key n 0 w.payload }
  else none

/-! ### Link items and link blocks as bytes (R43 to R49) -/

/-- The number whose big-endian bytes are `bs` (R13). -/
def beNat (bs : List Byte) : Nat := leNat bs.reverse

/-- The header whose 256-bit number is `n` (R68). -/
def Hdr.ofNum (n : Nat) : Hdr :=
  { ver := BitVec.ofNat 2 (bits n 255 254), cls := BitVec.ofNat 3 (bits n 253 251), ep := bit n 250,
    ks := BitVec.ofNat 2 (bits n 249 248), op := BitVec.ofNat 8 (bits n 247 240), flg := BitVec.ofNat 8 (bits n 239 232),
    plen := BitVec.ofNat 8 (bits n 231 224), dst := BitVec.ofNat 24 (bits n 223 200), src := BitVec.ofNat 24 (bits n 199 176),
    part := BitVec.ofNat 5 (bits n 175 171), val := bit n 167, hop := BitVec.ofNat 4 (bits n 166 163),
    tag := BitVec.ofNat 16 (bits n 159 144), mid := BitVec.ofNat 16 (bits n 143 128), opid := BitVec.ofNat 40 (bits n 127 88),
    addr := BitVec.ofNat 56 (bits n 87 32), aux := BitVec.ofNat 32 (bits n 31 0) }

/-- The packet whose bytes in the order they travel are `bs` (R67, R68, R90). -/
def WirePacket.ofFrame (bs : List Byte) (codewordsOk : Bool) : WirePacket :=
  let n := beNat (bs.take 32)
  let h := Hdr.ofNum n
  let m := 16 * h.plen.toNat
  let t := if h.ks = 0 then 0 else 16
  { hdr := h, rsv := BitVec.ofNat 6 (bits n 170 168 * 8 + bits n 162 160), payload := (bs.drop 32).take m,
    tag := (bs.drop (32 + m)).take t, crc := BitVec.ofNat 32 (leAt bs (32 + m + t) 4), codewordsOk := codewordsOk }

/-- Remainder of the `n` low bits of `v`, most significant first, by a polynomial of degree `w` (R44, R47). -/
def crcMsb (w poly v : Nat) : Nat → Nat → Nat
  | 0, c => c
  | n + 1, c => crcMsb w poly v n ((c * 2 % 2 ^ w) ^^^ (if bit c (w - 1) != bit v n then poly else 0))

/-- HCHK over bits [15:4] of a block header: CRC-4, polynomial x^4 + x + 1, initial value 0 (R44). -/
def hchk (v : Nat) : Nat := crcMsb 4 0x3 v 12 0

/-- LCRC over bits [127:16] of a link item: CRC-16, polynomial 0x1021, initial value 0xFFFF (R47). -/
def lcrc (v : Nat) : Nat := crcMsb 16 0x1021 v 112 0xFFFF

/-- Bits [127:16] of a 16-byte link item (R47); the reserved bits of LFLG are zero (R9). -/
def itemNum (ltype : BitVec 8) (i : LinkItem) (tspec : BitVec 64) : Nat :=
  ltype.toNat % 64 * 2 ^ 104 + b2n i.ackv * 2 ^ 96 + i.xoff.toNat * 2 ^ 80 + i.ackseq.toNat * 2 ^ 64 + tspec.toNat

/-- The 16 bytes of a link item (R47). -/
def itemBytes (ltype : BitVec 8) (i : LinkItem) (tspec : BitVec 64) : List Byte :=
  beBytes 16 (itemNum ltype i tspec * 2 ^ 16 + lcrc (itemNum ltype i tspec))

/-- LTYPE, the common fields and TSPEC of the 16 bytes of a link item (R47, R48). -/
def readItem (bs : List Byte) : BitVec 8 × LinkItem × BitVec 64 :=
  let n := beNat (bs.take 16)
  (BitVec.ofNat 8 (bits n 125 120),
   { lcrcOk := lcrc (n / 2 ^ 16) == n % 2 ^ 16, ackv := bit n 112, xoff := BitVec.ofNat 16 (bits n 111 96),
     ackseq := BitVec.ofNat 16 (bits n 95 80) },
   BitVec.ofNat 64 (bits n 79 16))

/-- TSPEC of a CAPX item as a number (R49). -/
def capxNum (c : Capx) : Nat :=
  c.pfid.toNat * 2 ^ 40 + c.pport.toNat * 2 ^ 32 + c.pver.toNat * 2 ^ 28 + c.prate.toNat * 2 ^ 26 + c.pccls.toNat * 2 ^ 23 +
    b2n c.penc * 2 ^ 22 + c.prole.toNat * 2 ^ 20

/-- The fields of the TSPEC of a CAPX item (R49). -/
def readCapx (t : BitVec 64) : Capx :=
  let n := t.toNat
  { pfid := BitVec.ofNat 24 (bits n 63 40), pport := BitVec.ofNat 8 (bits n 39 32), pver := BitVec.ofNat 4 (bits n 31 28),
    prate := BitVec.ofNat 2 (bits n 27 26), pccls := BitVec.ofNat 3 (bits n 25 23), penc := bit n 22,
    prole := BitVec.ofNat 2 (bits n 21 20) }

/-- Length of the link item or packet whose first word is `w`; none: a framing error, that is a reserved LTYPE, a reserved VER
or a PLEN above 128 (R45, R46, R67). -/
def unitLen (w : List Byte) : Option Nat :=
  let b := (w.getD 0 0).toNat
  let plen := (w.getD 3 0).toNat
  if b < 64 then (if b = 0 then some 4 else if b ≤ 6 then some 16 else none)
  else if b / 64 = 1 ∧ plen ≤ 128 then some (36 + 16 * plen + (if b % 4 = 0 then 0 else 16))
  else none

/-- The words of a unit in order, each with whether the unit begins in it (R45). -/
def unitWords (u : List Byte) : List (List Byte × Bool) := (List.range (u.length / 4)).map fun i => (slice u (4 * i) 4, i == 0)

/-- The 2-byte header of a link block (R44). -/
def linkBlockHeader (fptr bcnt : Nat) : List Byte :=
  let v := fptr % 256 * 16 + bcnt % 16
  beBytes 2 (v * 16 + hchk v)

/-- A link block over at most 128 words, filled up with IDLE words (R43, R44, R46). -/
def linkBlock (bcnt : Nat) (ws : List (List Byte × Bool)) : List Byte :=
  let ws := ws ++ List.replicate (128 - ws.length) (List.replicate 4 0#8, true)
  linkBlockHeader ((ws.findIdx? fun w => w.2).getD 0xFF) bcnt ++ ws.flatMap (·.1)

/-- The link blocks, back to back, that carry a sequence of units; the first bears BCNT `bcnt` (R43 to R45). -/
def linkBlocks (bcnt : Nat) (us : List (List Byte)) : List (List Byte) :=
  let ws := us.flatMap unitWords
  (List.range ((ws.length + 127) / 128)).map fun i => linkBlock (bcnt + i) ((ws.drop (128 * i)).take 128)

/-- The bytes that one output puts on the link of a port, if it is a packet or an item sent there. -/
def unitOn (p : Nat) : Machine.Out → Option (List Byte)
  | .packet q _ w => if q.val = p then some w.frame else none
  | .stomped q w => if q.val = p then some w.frame else none
  | .item q t i ts => if q.val = p then some (itemBytes t i ts) else none
  | _ => none

/-- The link blocks that carry what a port has sent since reset, BCNT from 0 (R43, R44). The IDLE words between its units, whose
number is a matter of time, are left out (notes/assumptions/71.md). -/
def sentBlocks (s : Machine.State) (p : Nat) : List (List Byte) := linkBlocks 0 (s.out.filterMap (unitOn p))

/-- FPTR, BCNT and whether HCHK holds, from the 2 bytes of a block header (R44). -/
def readBlockHeader (bs : List Byte) : Nat × BitVec 4 × Bool :=
  let n := beNat (bs.take 2)
  (bits n 15 8, BitVec.ofNat 4 (bits n 7 4), hchk (n / 16) == n % 16)

/-! ### Digests -/

/-- The 32-byte SHAKE256 digest of a message. -/
def shake (n : Nat) (msg : List Byte) : List Byte := (List.range n).map (Config.shakeByte msg)

/-- A 32-byte SHAKE256 digest as a number, byte 0 least significant. -/
def digest256 (msg : List Byte) : BitVec 256 := BitVec.ofNat 256 (leNat (shake 32 msg))

/-- The bytes of an ASCII string. -/
def ascii (s : String) : List Byte := s.toList.map fun c => BitVec.ofNat 8 c.toNat

/-- A 256-bit value as its 32 bytes, byte 0 least significant. -/
def bytes32 (v : BitVec 256) : List Byte := leBytes 32 v.toNat

/-! ### Dictionary messages (R485) -/

/-- An empty dictionary message of a type. -/
def DMsg.mk0 (mtype : BitVec 4) : DMsg :=
  { mver := 1, mtype := mtype, resp := false, more := false, prot := false, dstat := 0, sid := 0, seq := 0, xid := 0,
    index := 0, sub := 0, segno := 0, total := 0, auxr := 0, payload := [], tag := [] }

/-- The header as a 256-bit number (R485); LEN is the payload's length. -/
def DMsg.num (m : DMsg) : Nat :=
  (m.mver.toNat * 2 ^ 252 + m.mtype.toNat * 2 ^ 248 + b2n m.resp * 2 ^ 247 + b2n m.more * 2 ^ 246 + b2n m.prot * 2 ^ 245) +
  (m.dstat.toNat * 2 ^ 232 + m.sid.toNat * 2 ^ 216 + m.seq.toNat * 2 ^ 184 + m.xid.toNat * 2 ^ 168) +
  (m.index.toNat * 2 ^ 152 + m.sub.toNat * 2 ^ 144 + m.segno.toNat * 2 ^ 128) +
  (m.payload.length % 2 ^ 16 * 2 ^ 112 + m.total.toNat * 2 ^ 80 + m.auxr.toNat * 2 ^ 48) +
  (m.rsv.toNat / 2 ^ 48 * 2 ^ 240 + m.rsv.toNat % 2 ^ 48)

/-- The 32 header bytes. -/
def DMsg.hdrBytes (m : DMsg) : List Byte := beBytes 32 m.num

/-- The dictionary nonce SALT ‖ 0 ‖ SEQ (R491). -/
def dictNonce (salt seq : BitVec 32) : BitVec 96 := salt ++ (0#32 ++ seq)

/-- A message protected under the key of its direction (R491), its reserved bits zero (R9). -/
def DMsg.protect (key : BitVec 256) (salt : BitVec 32) (m : DMsg) : DMsg :=
  let m := { m with prot := true, rsv := 0 }
  let n := dictNonce salt m.seq
  let ct := gcmXor key n 0 m.payload
  { m with payload := ct, tag := gcmTagBytes key n m.hdrBytes ct }

/-- Checks the tag of a protected message and returns its clear form (R491). -/
def DMsg.unprotect (key : BitVec 256) (salt : BitVec 32) (m : DMsg) : Option DMsg :=
  let n := dictNonce salt m.seq
  if m.tag = gcmTagBytes key n m.hdrBytes m.payload then some { m with payload := gcmXor key n 0 m.payload, tag := [] }
  else none

end Sys2Proof
end

