-- ==== Sys2Proof/Machine/Ops.lean ====
section
/-! DEFINITION. The named operations over State: objects, counters, ports, partitions, memory, limits of R597, events, the
log, dictionary sending and the HRB pulse. Every meaning reads and writes the state through these. -/

namespace Sys2Proof.Machine

/-! ### Objects and counters (R470, R475, R476) -/

/-- The default of a BLOB object: PLOG_MASK has bits 3 and 8 to 11 set, an IPv6 address is zero (R475). -/
def blobDefault (k : Nat) : List Byte :=
  if k = okey 0x1240 0x08 then leBytes 32 0xF08
  else if k = okey 0x3400 5 ∨ k = okey 0x3408 5 then List.replicate 16 0#8
  else []

/-- The value of a scalar RW or RWS object. -/
def State.o (s : State) (k : Nat) : Nat := Sparse.get (objDefault k) s.obj k
def State.setO (s : State) (k v : Nat) : State := { s with obj := Sparse.set (objDefault k) s.obj k v }
/-- The value of a BLOB RW object. -/
def State.b (s : State) (k : Nat) : List Byte := Sparse.get (blobDefault k) s.blob k
def State.setB (s : State) (k : Nat) (v : List Byte) : State := { s with blob := Sparse.set (blobDefault k) s.blob k v }
/-- A counter or other RO value held under its object. -/
def State.c (s : State) (k : Nat) : Nat := Sparse.get 0 s.ctr k
def State.setC (s : State) (k v : Nat) : State := { s with ctr := Sparse.set 0 s.ctr k v }
/-- Adds to a counter; the widest is U64. -/
def State.bump (s : State) (k n : Nat) : State := s.setC k ((s.c k + n) % 2 ^ 64)

/-! ### Records held sparsely -/

def State.port (s : State) (p : Nat) : PortSt := Sparse.get {} s.ports p
def State.setPort (s : State) (p : Nat) (v : PortSt) : State := { s with ports := Sparse.set {} s.ports p v }
def State.modPort (s : State) (p : Nat) (f : PortSt → PortSt) : State := s.setPort p (f (s.port p))
def State.outSt (s : State) (o : Nat) : OutSt := Sparse.get {} s.outs o
def State.setOut (s : State) (o : Nat) (v : OutSt) : State := { s with outs := Sparse.set {} s.outs o v }
def State.part (s : State) (p : Nat) : Partition := Sparse.get {} s.parts p
def State.setPart (s : State) (p : Nat) (v : Partition) : State := { s with parts := Sparse.set {} s.parts p v }
def State.modPart (s : State) (p : Nat) (f : Partition → Partition) : State := s.setPart p (f (s.part p))
def State.folio (s : State) (i : Nat) : Folio := Sparse.get {} s.folios i
def State.setFolio (s : State) (i : Nat) (v : Folio) : State := { s with folios := Sparse.set {} s.folios i v }
def State.domain (s : State) (d : Nat) : Domain := Sparse.get {} s.domains d
def State.setDomain (s : State) (d : Nat) (v : Domain) : State := { s with domains := Sparse.set {} s.domains d v }
def State.ctx (s : State) (c : Nat) : Ctx := Sparse.get {} s.ctxs c
def State.setCtx (s : State) (c : Nat) (v : Ctx) : State := { s with ctxs := Sparse.set {} s.ctxs c v }
def State.table (s : State) (t : Nat) : Table := Sparse.get {} s.tables t
def State.setTable (s : State) (t : Nat) (v : Table) : State := { s with tables := Sparse.set {} s.tables t v }
def State.quill (s : State) (q : Nat) : QuillSt := Sparse.get {} s.quills q
def State.setQuill (s : State) (q : Nat) (v : QuillSt) : State := { s with quills := Sparse.set {} s.quills q v }
def State.object (s : State) (n : Nat) : Obj := Sparse.get {} s.objects n
def State.setObject (s : State) (n : Nat) (v : Obj) : State := { s with objects := Sparse.set {} s.objects n v }
def State.sched (s : State) (n : Nat) : Sched := Sparse.get {} s.scheds n
def State.setSched (s : State) (n : Nat) (v : Sched) : State := { s with scheds := Sparse.set {} s.scheds n v }
def State.slot (s : State) (n : Nat) : BasisSlot := Sparse.get {} s.slots n
def State.setSlot (s : State) (n : Nat) (v : BasisSlot) : State := { s with slots := Sparse.set {} s.slots n v }
def State.batch (s : State) (p : Nat) : Batch := Sparse.get {} s.batches p
def State.setBatch (s : State) (p : Nat) (v : Batch) : State := { s with batches := Sparse.set {} s.batches p v }
def State.region (s : State) (r : Nat) : Option Region := Sparse.get none s.regions r
def State.setRegion (s : State) (r : Nat) (v : Option Region) : State := { s with regions := Sparse.set none s.regions r v }
def State.meter (s : State) (m : Nat) : MeterSt := Sparse.get {} s.meters m
def State.setMeter (s : State) (m : Nat) (v : MeterSt) : State := { s with meters := Sparse.set {} s.meters m v }
def State.unit (s : State) (u : Nat) : UnitSt := Sparse.get {} s.units u
def State.setUnit (s : State) (u : Nat) (v : UnitSt) : State := { s with units := Sparse.set {} s.units u v }
def State.hrb (s : State) (h : Nat) : Hrb := Sparse.get {} s.hrbs h
def State.setHrb (s : State) (h : Nat) (v : Hrb) : State := { s with hrbs := Sparse.set {} s.hrbs h v }
def State.hostP (s : State) (h : Nat) : HostSt := Sparse.get {} s.hostSt h
def State.setHostP (s : State) (h : Nat) (v : HostSt) : State := { s with hostSt := Sparse.set {} s.hostSt h v }
def State.mac (s : State) (h : Nat) : Macsec := Sparse.get {} s.macsec h
def State.setMac (s : State) (h : Nat) (v : Macsec) : State := { s with macsec := Sparse.set {} s.macsec h v }
def State.strag (s : State) (m : Nat) : Strag := Sparse.get {} s.strags m
def State.setStrag (s : State) (m : Nat) (v : Strag) : State := { s with strags := Sparse.set {} s.strags m v }
def State.inputQ (s : State) (i : Nat) : List Held := Sparse.get [] s.inq i
def State.setInputQ (s : State) (i : Nat) (v : List Held) : State := { s with inq := Sparse.set [] s.inq i v }
def State.routeSlot (s : State) (ep : Bool) : RouteSlot := if ep then s.slot1 else s.slot0
def State.setRouteSlot (s : State) (ep : Bool) (v : RouteSlot) : State :=
  if ep then { s with slot1 := v } else { s with slot0 := v }

/-- The key of a key slot of a port for a partition. -/
def keyIx (port part slot : Nat) : Nat := (port * 32 + part) * 4 + slot
def State.key (s : State) (port part slot : Nat) : KeySt := Sparse.get {} s.keys (keyIx port part slot)
def State.setKey (s : State) (port part slot : Nat) (v : KeySt) : State :=
  { s with keys := Sparse.set {} s.keys (keyIx port part slot) v }

/-- Appends to the record of what leaves the device. -/
def State.emit (s : State) (o : Out) : State := { s with out := s.out ++ [o] }

/-- Takes a free value: which open point it fills. -/
def State.takeFree (s : State) (point : Nat) : BitVec 64 × State :=
  (Config.freeValue point s.free, { s with free := s.free + 1 })

/-- Takes a draw of the DRBG (R393), named by its number; number 0 is never taken. -/
def State.draw (s : State) : Nat × State := (s.free + 1, { s with free := s.free + 1 })

/-- Bytes of draw `n`. -/
def drbg (n len : Nat) : List Byte := (List.range len).map (Config.drbgByte n)

/-- Takes the next serial number: the age of an arrival or an opening. -/
def State.nextSerial (s : State) : Nat × State := (s.serial, { s with serial := s.serial + 1 })

/-! ### Ownership (R383, R385) -/

/-- The partition other than 0 that holds fabric port `n`, else 0. -/
def portOwner (s : State) (n : Nat) : Nat := ((List.range 32).find? fun p => p != 0 && (s.part p).ports.getLsbD n).getD 0
def hostOwner (s : State) (h : Nat) : Nat := ((List.range 32).find? fun p => p != 0 && (s.part p).hosts.getLsbD h).getD 0
def quillOwner (s : State) (q : Nat) : Nat := ((List.range 32).find? fun p => p != 0 && (s.part p).quills.getLsbD q).getD 0

/-- Owner of an output: 0-127 FP_n, 128 and 129 HOST_n (R163). -/
def outOwner (s : State) (o : Nat) : Nat := if o < 128 then portOwner s o else hostOwner s (o - 128)

/-- Partition `p` is SEALED (R386). -/
def isSealed (s : State) (p : Nat) : Bool := (s.part p).st == .sealed

/-- Partition `p` is being removed (R386, R410). -/
def removing (s : State) (p : Nat) : Bool := (s.part p).st == .removing

/-- U32 mask of SEALED partitions (0x1620.0A). -/
def sealedMask (s : State) : Nat := (List.range 32).foldl (fun a p => if isSealed s p then a + 2 ^ p else a) 0

/-- Some partition is SEALED (R392). -/
def anySealed (s : State) : Bool := (List.range 32).any (isSealed s)

/-! ### Limits "at most once per" (R597) -/

/-- Whether this is the first occasion of a limited act in its interval, counted from Scribe time 0; it marks the interval. -/
def State.firstIn (s : State) (span what unit : Nat) : Bool × State :=
  let k := what * 2 ^ 40 + unit
  let iv := s.time / span + 1
  if Sparse.get 0 s.limits k = iv then (false, s) else (true, { s with limits := Sparse.set 0 s.limits k iv })

/-! ### Dictionary sending (R485, R491) -/

/-- Removes a session (R494). -/
def endSession (s : State) (sid : BitVec 16) : State := { s with sessions := s.sessions.filter fun x => x.sid != sid }

def State.session (s : State) (sid : BitVec 16) : Option Session := s.sessions.find? fun x => x.sid == sid
def State.setSession (s : State) (v : Session) : State :=
  { s with sessions := s.sessions.map fun x => if x.sid = v.sid then v else x }

/-- Sends a message on a session: protected with the next SEQ once authenticated (R491); the session ends when SEQ reaches
2^32 - 1 (R494). -/
def dictSend (s : State) (v : Session) (m : DMsg) : State :=
  let m := { m with sid := v.sid }
  if v.authed && v.role != .att then
    let q := v.txSeq + 1
    let s := (s.setSession { v with txSeq := q }).emit (.dict v.addr (DMsg.protect v.dkey v.dsalt { m with seq := q }))
    if q = 0xFFFFFFFF#32 then endSession s v.sid else s
  else s.emit (.dict v.addr m)

/-! ### HRB (R506 to R508) -/

/-- Sessions bound to HOST_h. -/
def sessionOnHost (h : Nat) (v : Session) : Bool :=
  match v.addr with | .host p _ _ => p.val == h | .ring _ => false

/-- The count of HOST_h's event queue (R506). -/
def hostEventCount (s : State) (h : Nat) : Nat :=
  ((s.sessions.filter (sessionOnHost h)).map fun v => v.events.length).foldl (· + ·) 0

/-- OWNER of a table record (R263). -/
def tableOwner (w : BitVec 512) : Nat := bits w.toNat 510 506

/-- A segmented write of FW_STAGE is under way (R547 step 1). -/
def receivingImage (s : State) : Bool :=
  let stage (x : Transfer) : Bool := x.write && x.index == 0x1600 && x.sub == 1
  s.sessions.any (fun v => match v.xfer with | some x => stage x | none => false) ||
    (match s.loader with | some (_, x) => stage x | none => false)

/-- FW_STATE: RECEIVING from the first segment of a write, which changes nothing if it is aborted (R500, R547). -/
def fwShown (s : State) : FwSt :=
  match s.scribe.fwSt with
  | .verifying => .verifying
  | .installing => .installing
  | x => if receivingImage s then .receiving else x

/-- Busy causes of HRB_h now holding (R507). Bit 3: a table whose OWNER owns HOST_h is SWITCHING. -/
def hrbCause (s : State) (h : Nat) : Nat :=
  let p := s.power
  let c0 := !p.pwrEn || !p.vin || p.state != 3
  let c1 := p.resetLow || p.state == 4
  let c2 := match fwShown s with | .receiving | .verifying | .installing => true | _ => false
  let c3 := s.tables.any fun e => e.2.st == .switching && tableOwner e.2.word == hostOwner s h
  let c4 := s.o (hostObj h 0 1) == 0
  b2n c0 + 2 * b2n c1 + 4 * b2n c2 + 8 * b2n c3 + 16 * b2n c4

/-- The Scribe drives the HRB pins: it runs and VIO is present (R507, R572). -/
def hrbDriven (s : State) : Bool := s.power.vstby && s.power.vio && s.scribe.st == .running

/-- HRB_h is ready. -/
def hrbReady (s : State) (h : Nat) : Bool := hrbDriven s && hrbCause s h == 0

/-- Serves a transition of HOST_h's count from 0 to above 0 (R508). -/
def hrbAttention (s : State) (h : Nat) : State :=
  let v := s.hrb h
  if hrbReady s h && bit (s.o (okey 0x1201 5)) h then
    if v.spacing then s.setHrb h { v with deferred := true }
    else
      let s := s.setHrb h { pulse := true, spacing := true, deferred := false }
      (s.bump (okey 0x1201 6) 1).emit (.hrb ⟨h % 2, by omega⟩ false)
  else s

/-! ### Events (R501 to R505, R542 to R544, R598) -/

/-- EDATA: items as (bytes, value), packed in order from bit 128 (R598). -/
def packItems (items : List (Nat × Nat)) : BitVec 128 := BitVec.ofNat 128 (leNat (items.flatMap fun i => leBytes i.1 i.2))

/-- A record coarsened as R502 gives. -/
def Event.coarsen (e : Event) : Event :=
  { e with coarse := true, edata := 0, tstamp := BitVec.ofNat 64 (e.tstamp.toNat / 1000000 * 1000000) }

/-- Device as a whole (R501). -/
abbrev deviceWide : Nat := 0xFF

/-- Event code EVENTS_LOST. -/
abbrev evEventsLost : Nat := 0x0A02

/-- Enters a record in a session's queue, or counts it lost (R504); `some` NOTIFY is owed when the count leaves 0 (R505). -/
def enterQueue (v : Session) (e : Event) : Session :=
  if v.events.length < 1024 then
    { v with events := v.events ++ [{ e with eseq := v.eseq }], eseq := v.eseq + 1 }
  else { v with lost := v.lost + 1, lostNew := v.lostNew + 1 }

/-- The role admits the event (R502). -/
def admits (v : Session) (e : Event) : Bool :=
  v.mask.getLsbD (e.code.toNat / 256) &&
    (match v.role with
     | .opr | .vnd => true
     | .prt => e.epart.toNat == v.part.val
     | .att => false)

/-- Offers an event to one session and sends its NOTIFY (R502, R505). -/
def offer (e : Event) (s : State) (sid : BitVec 16) : State :=
  match s.session sid with
  | none => s
  | some v =>
    if admits v e then
      let e' := if v.role != .prt && isSealed s e.epart.toNat then e.coarsen else e
      let v' := enterQueue v e'
      let s := s.setSession v'
      if v.events.isEmpty && v'.notify then
        dictSend s v' { DMsg.mk0 8 with auxr := BitVec.ofNat 32 v'.events.length }
      else s
    else s

/-- Serves HOST_h's attention if its count left 0 (R508). -/
def attend (before : Nat) (s : State) (h : Nat) : State :=
  if before = 0 ∧ 0 < hostEventCount s h then hrbAttention s h else s

/-- Gives an event to the sessions `only` selects, and serves the HRB pins. -/
def deliverEvent (s : State) (e : Event) (only : Session → Bool) : State :=
  let b0 := hostEventCount s 0
  let b1 := hostEventCount s 1
  let s := ((s.sessions.filter only).map (·.sid)).foldl (offer e) s
  attend b1 (attend b0 s 0) 1

/-- Adds a record to the SRAM log, which holds the newest 16,384 (R542, R543). -/
def logAppend (s : State) (e : Event) : State :=
  let sc := s.scribe
  let e := { (if isSealed s e.epart.toNat then e.coarsen else e) with eseq := sc.logNext }
  let l := sc.log ++ [{ ev := e, boot := sc.bootCount, pno := 0 }]
  { s with scribe := { sc with log := l.drop (l.length - 16384), logNext := sc.logNext + 1 } }

/-- Marks a log record for the flash within the limit of 50 in 1 s (R544); false: it is dropped. -/
def markPersist (s : State) (logno : BitVec 32) : Bool × State :=
  let sc := s.scribe
  let iv := s.time / sec
  let n := if sc.persistIv = iv then sc.persistN else 0
  if n < 50 then
    (true, { s with scribe := { sc with persistIv := iv, persistN := n + 1, toPersist := sc.toPersist ++ [logno] } })
  else (false, s.bump (okey 0x1240 9) 1)

/-- An event is logged and given to the sessions that admit it; the result says whether its flash record was dropped. -/
def raiseOnce (s : State) (code epart : Nat) (items : List (Nat × Nat)) (only : Session → Bool) : Bool × State :=
  let e : Event := { eseq := 0, code := BitVec.ofNat 16 code, epart := BitVec.ofNat 8 epart, coarse := false,
                     tstamp := BitVec.ofNat 64 s.time, edata := packItems items }
  let no := s.scribe.logNext
  let s := logAppend s e
  let r := if bit (leNat (s.b (okey 0x1240 8))) (code / 256) then markPersist s no else (true, s)
  (!r.1, deliverEvent r.2 e only)

/-- Raises an event for the sessions `only` selects (R501, R542). A record dropped under the flash limit raises PLOG_DROPPED at most
once per 10 s (R544). -/
def raiseTo (s : State) (code epart : Nat) (items : List (Nat × Nat)) (only : Session → Bool) : State :=
  let r := raiseOnce s code epart items only
  if r.1 then
    let f := r.2.firstIn (10 * sec) 0x0A1F 0
    if f.1 then
      (raiseOnce f.2 0x0A1F deviceWide [(4, f.2.c (okey 0x1240 9))] (fun _ => true)).2
    else f.2
  else r.2

/-- Raises an event (R501, R542). -/
def raise (s : State) (code epart : Nat) (items : List (Nat × Nat)) : State := raiseTo s code epart items fun _ => true

/-- Raises an event at most once per span for a unit (R597). -/
def raiseLimited (s : State) (span unit code epart : Nat) (items : List (Nat × Nat)) : State :=
  let f := s.firstIn span code unit
  if f.1 then raise f.2 code epart items else f.2

end Sys2Proof.Machine
end

