-- ==== Sys2Proof/Machine/Packets.lean ====
section
/-! DEFINITION. The operations on packets: prefixes and fences, units present, forming completions, originating packets,
buffer cells and XOFF, request-table entries, and the records of the Blotter. -/

namespace Sys2Proof.Machine

/-! ### Prefixes, fences, members (R25, R117, R456, R460) -/

/-- A prefix of `pls` bytes contains the FID `f`. -/
def prefixMatch (pls pre f : Nat) : Bool :=
  match pls with
  | 1 => pre / 65536 == f / 65536
  | 2 => pre / 256 == f / 256
  | 3 => pre == f
  | _ => false

def recPls (w : BitVec 32) : Nat := bits w.toNat 30 29
def recPrefix (w : BitVec 32) : Nat := bits w.toNat 23 0
def recValid (w : BitVec 32) : Bool := bit w.toNat 31

/-- The prefix record (R117) contains `f`. -/
def recCovers (w : BitVec 32) (f : Nat) : Bool := prefixMatch (recPls w) (recPrefix w) f

/-- Prefix `w` contains the whole prefix `v`. -/
def recContains (w v : BitVec 32) : Bool := decide (recPls w ≤ recPls v) && recCovers w (recPrefix v)

/-- PREFIX has bits set beyond its PLS. -/
def prefixOverhang (pls pre : Nat) : Bool :=
  match pls with | 1 => pre % 65536 != 0 | 2 => pre % 256 != 0 | _ => false

/-- FID `f` lies within a fenced prefix (R114). -/
def fenced (s : State) (f : Nat) : Bool := s.fences.any (recCovers · f)

/-- A fenced prefix contains the whole prefix (R116). -/
def fencedPrefix (s : State) (w : BitVec 32) : Bool := s.fences.any (recContains · w)

/-- FID `f` lies within a member prefix, or the list is empty (R462). -/
def isMember (s : State) (f : Nat) : Bool := s.members.isEmpty || s.members.any (recCovers · f)

/-- FID `f` lies within a prefix of a peer now dead (R185). -/
def isDead (s : State) (f : Nat) : Bool := s.dead.any (recCovers · f)

/-! ### Units present (R2, R439) -/

def tileOk (s : State) (t : Nat) : Bool := decide (t < 16) && !s.dumap.tfuse.getLsbD t
def portOk (s : State) (p : Nat) : Bool := decide (p < 128) && tileOk s (p / 8) && !s.dumap.pret.getLsbD p
def quillOk (s : State) (q : Nat) : Bool := decide (q < 64) && tileOk s (q / 4) && !s.dumap.qret.getLsbD q
def outputOk (s : State) (o : Nat) : Bool := if o < 128 then portOk s o else decide (o < 130)
def enabledTiles (s : State) : List Nat := (List.range 16).filter (tileOk s)
/-- NQ: the enabled quills (R365). -/
def enabledQuills (s : State) : List Nat := (List.range 64).filter (quillOk s)

/-- The enabled tile at position (CRC-32C over SRC ‖ OPID) mod NT (R417, R427). -/
def crcTile (s : State) (src : Fid) (opid : Opid) : Nat :=
  let ts := enabledTiles s
  ts.getD ((crc32c (beBytes 3 src.toNat ++ beBytes 5 opid.toNat)).toNat % ts.length) 0

/-- This device's FID (0x3800.01). -/
def devFid (s : State) : Fid := BitVec.ofNat 24 (s.o (okey 0x3800 1))

/-- ORIG_EP as applied to packets originated now: a write applies 1 µs later (R123). -/
def origEp (s : State) : Bool := if s.time < s.epTime + us then s.epPrev else s.o (okey 0x3800 2) == 1

/-! ### Headers -/

/-- The virtual channel of a packet (R61). -/
def vcOf (h : Hdr) : Nat := h.cls.toNat + (if h.val then 8 else 0)

/-- PIDX of a packet (R74, R78). -/
def pidxOf (h : Hdr) : Nat :=
  if h.op == Op.cmplData then bits h.addr.toNat 23 12 else if isMulti h.op then bits h.aux.toNat 31 20 else 0

/-- PCNT of a packet's message (R74, R78). -/
def pcntOf (h : Hdr) : Nat :=
  if h.op == Op.cmplData then bits h.addr.toNat 11 0 + 1 else if isMulti h.op then bits h.aux.toNat 19 8 + 1 else 1

/-- The request a header belongs to (R183). -/
def hdrKey (h : Hdr) : ReqKey := { src := h.src, part := h.part, tag := h.tag, opid := h.opid }
/-- The request a completion answers (R82). -/
def cmplKey (h : Hdr) : ReqKey := { src := h.dst, part := h.part, tag := h.tag, opid := h.opid }

/-- STATUS, CFLG and CDAT of a completion (R78). -/
def cmplStatus (h : Hdr) : BitVec 8 := BitVec.ofNat 8 (bits h.aux.toNat 31 24)
def cmplCflg (h : Hdr) : BitVec 8 := BitVec.ofNat 8 (bits h.aux.toNat 23 16)
def cmplCdat (h : Hdr) : BitVec 16 := BitVec.ofNat 16 (bits h.aux.toNat 15 0)

/-- A class whose packets are ordered (R113): C0 to C2, and C3 to C7 with ORD. -/
def isOrdered (h : Hdr) : Bool := decide (h.cls.toNat < 3) || h.ord

/-- TSTAMP of a completion: the timebase, rounded down to 100 ns for a SEALED partition (R78, R392). -/
def tstampNow (s : State) (part : Nat) : Nat :=
  let t := if isSealed s part then s.timebase / 10 * 10 else s.timebase
  t % 2 ^ 32

/-- Header of a completion of request `h` (R78, R79). -/
def respHdr (s : State) (h : Hdr) (op : BitVec 8) : Hdr :=
  { ver := 1, cls := respClass h.cls, ep := origEp s, ks := 0, op := op, flg := h.flg &&& flagRetry, plen := 0, dst := h.src,
    src := devFid s, part := h.part, val := false, hop := 0, tag := h.tag, mid := 0, opid := h.opid,
    addr := BitVec.ofNat 56 (tstampNow s h.part.toNat * 2 ^ 24), aux := 0 }

/-- STATUS, CFLG and CDAT in AUX (R78). -/
def cmplAux (st cflg : BitVec 8) (cdat : BitVec 16) : BitVec 32 := st ++ cflg ++ cdat

/-- A single CMPL (R78, R82). LAST is set: DEDUCED from R75. -/
def mkCmpl (s : State) (h : Hdr) (st cflg : BitVec 8) (cdat : BitVec 16) : Packet :=
  let r := respHdr s h Op.cmpl
  { hdr := { r with flg := r.flg ||| flagLast, aux := cmplAux st cflg cdat }, payload := [] }

/-- Packet `i` of a body of `n` packets. -/
def bodyPart (body : List Byte) (i : Nat) : List Byte := (body.drop (2048 * i)).take 2048

/-- Number of packets of a body (R75). -/
def packetCount (len : Nat) : Nat := if len = 0 then 1 else (len + 2047) / 2048

/-- A CMPL_DATA message (R75, R78); the body is padded to whole 16-byte units. -/
def mkCmplData (s : State) (h : Hdr) (cflg : BitVec 8) (cdat : BitVec 16) (body : List Byte) : List Packet :=
  let body := padTo 16 body
  let n := packetCount body.length
  let r := respHdr s h Op.cmplData
  (List.range n).map fun i =>
    let pl := bodyPart body i
    { hdr := { r with
        flg := if i + 1 = n then r.flg ||| flagLast else r.flg
        plen := BitVec.ofNat 8 (pl.length / 16)
        addr := BitVec.ofNat 56 (r.addr.toNat + i * 4096 + (n - 1))
        aux := cmplAux St.ok cflg cdat }
      payload := pl }

/-- A request message as packets (R69, R74, R75): `h` carries OPX in AUX[7:0]; a single-packet opcode keeps its AUX. The last packet,
and so the packet of a one-packet message whatever its opcode, carries LAST: DEDUCED from R69 (notes/assumptions/73.md). -/
def mkRequest (h : Hdr) (body : List Byte) : List Packet :=
  if isMulti h.op then
    let body := padTo 16 body
    let n := packetCount body.length
    (List.range n).map fun i =>
      let pl := bodyPart body i
      { hdr := { h with
          flg := if i + 1 = n then h.flg ||| flagLast else h.flg
          plen := BitVec.ofNat 8 (pl.length / 16)
          aux := BitVec.ofNat 32 (i * 2 ^ 20 + (n - 1) * 2 ^ 8 + h.aux.toNat % 256) }
        payload := pl }
  else
    [{ hdr := { h with flg := h.flg ||| flagLast, plen := BitVec.ofNat 8 ((padTo 16 body).length / 16) }, payload := padTo 16 body }]

/-! ### Origination (R123, R417) -/

/-- Ingress codes of the memory path and the Scribe (R116, R418). -/
abbrev ingMemory : Nat := 190
abbrev ingScribe : Nat := 160
/-- Ingress code of a quill. -/
def ingQuill (q : Nat) : Nat := 192 + q

/-- The tile of an ingress code for a packet (R417). -/
def tileOfIngress (s : State) (ing : Nat) (h : Hdr) : Tile :=
  let t := if ing < 128 then ing / 8 else if 192 ≤ ing then (ing - 192) / 4
    else crcTile s (if isCmplOp h.op then h.dst else h.src) h.opid
  ⟨t % 16, by omega⟩

/-- The tile input of an ingress code: 0-7 fabric port, 9 memory crossbar, 10-13 quill (R104). -/
def inputOfIngress (ing : Nat) : Nat := if ing < 128 then ing % 8 else if 192 ≤ ing then 10 + (ing - 192) % 4 else 9

/-- A packet as held at an ingress. -/
def mkHeld (s : State) (ing age len : Nat) (kind : HeldKind) (ret : Option HostRet) (p : Packet) : Held :=
  { pkt := p, ingress := BitVec.ofNat 8 ing, tile := tileOfIngress s ing p.hdr, input := inputOfIngress ing,
    vc := vcOf p.hdr, age := age, len := len, kind := kind, ret := ret }

/-- Puts a packet at the tail of an ingress, to be decided. -/
def enqueueIn (s : State) (ing : Nat) (kind : HeldKind) (ret : Option HostRet) (p : Packet) : State :=
  let n := s.nextSerial
  n.2.setInputQ ing (n.2.inputQ ing ++ [mkHeld s ing n.1 p.hdr.wireLen kind ret p])

/-- Packets a unit of this device originates, in order. -/
def originate (s : State) (ing : Nat) (kind : HeldKind) (ps : List Packet) : State :=
  ps.foldl (fun s p => enqueueIn s ing kind none p) s

/-- Counts a completion by its status: REPLAY_EXHAUSTED (0xA000.05), with the tile's event (R468), TGT_DEAD (0x5000.04) and
UNCORRECTABLE (0x5000.06). -/
def noteStatus (s : State) (tile : Nat) (st : BitVec 8) : State :=
  if st = St.replayExhausted then raiseLimited (s.bump (okey 0xA000 5) 1) ms tile 0x0906 deviceWide [(1, tile)]
  else if st = St.tgtDead then s.bump (okey 0x5000 4) 1
  else if st = St.uncorrectable then s.bump (okey 0x5000 6) 1
  else s

/-- Completes a request performed by a unit of this device with a CMPL. -/
def complete (s : State) (ing : Nat) (h : Hdr) (st cflg : BitVec 8) (cdat : BitVec 16) : State :=
  originate (noteStatus s (tileOfIngress s ing h).val st) ing .unit [mkCmpl s h st cflg cdat]

/-- Completes a request performed by a unit of this device with a CMPL_DATA. -/
def completeData (s : State) (ing : Nat) (h : Hdr) (cflg : BitVec 8) (cdat : BitVec 16) (body : List Byte) : State :=
  originate s ing .unit (mkCmplData s h cflg cdat body)

/-! ### Packet storage (R104, R105) -/

/-- The VCs that exist (R61). -/
def allVcs : List Nat := [0, 1, 2, 3, 4, 5, 6, 7, 11, 12, 13, 14, 15]

/-- Cells of a packet (R104). -/
def cellsOf (len : Nat) : Nat := (len + 63) / 64

/-- Nothing serves the place of bank `b` of tile `t`: it was retired when no spare was left (R439). -/
def bankGone (s : State) (t b : Nat) : Bool := Sparse.get 0 s.standIn (2 * 2 ^ 24 + 128 * t + b) == 255

/-- Packets charged to buffers: arrived and undecided on fabric ports, waiting for the spine, and queued at outputs. DESIGN CHOICE
(notes/assumptions/74.md): each copy of a ligature packet takes cells of its own. -/
def chargedPackets (s : State) : List Held :=
  (s.inq.flatMap fun e => if e.1 < 128 then e.2 else []) ++ s.spine.map (·.held) ++ s.outs.flatMap fun e => e.2.q

/-- Cells in use by one input and VC of a tile, over a list of charged packets. -/
def cellsUsed (hs : List Held) (t i v : Nat) : Nat :=
  hs.foldl (fun a h => if h.tile.val = t ∧ h.input = i ∧ h.vc = v then a + cellsOf h.len else a) 0

/-- Shared cells an input uses: beyond 33 for each VC (R104). -/
def sharedUsedBy (hs : List Held) (t i : Nat) : Nat := (allVcs.map fun v => cellsUsed hs t i v - 33).foldl (· + ·) 0

/-- Shared pool of a tile: 65,162 cells, 8,192 fewer for each packet buffer bank retired (R104, R439). -/
def sharedPool (s : State) (t : Nat) : Nat :=
  65162 - 8192 * ((List.range 16).filter fun b => bankGone s t (64 + b)).length

def sharedFree (s : State) (hs : List Held) (t : Nat) : Nat :=
  sharedPool s t - ((List.range 14).map (sharedUsedBy hs t)).foldl (· + ·) 0

/-- CAP(i) (R105). -/
def capOf (s : State) (i : Nat) : Nat :=
  if i < 8 then s.o (okey 0x3806 1) else if i = 8 then s.o (okey 0x3806 2) else s.o (okey 0x3806 3)

/-- free(i, v) in bytes (R105). -/
def freeSpace (s : State) (t i v : Nat) : Nat :=
  let hs := chargedPackets s
  64 * (33 - min 33 (cellsUsed hs t i v)) + 64 * min (sharedFree s hs t) (capOf s i - sharedUsedBy hs t i)

/-- T of a cable class (R66). -/
def xoffThreshold (cls : Nat) : Nat :=
  match cls with | 0 => 63500 | 1 => 64100 | 2 => 71100 | 3 => 100100 | _ => 170100

/-- Cable class in use: once a CAPX has been received, EFF_CLASS, else the class set for the port (R50). -/
def effClass (s : State) (p : Nat) : Nat :=
  match (s.port p).capxLast with | some _ => (s.port p).effClass.toNat | none => s.o (portObj p 0 3)

/-- The buffer condition of R63 for one VC: set below T, cleared above T + 4,200. -/
def xoffNext (old : Bool) (free t : Nat) : Bool := if free < t then true else if t + 4200 < free then false else old

/-- The buffer condition of every VC of a port. -/
def xoffBits (s : State) (p : Nat) : BitVec 16 :=
  let st := s.port p
  let t := xoffThreshold (effClass s p)
  allVcs.foldl (fun a v =>
    if xoffNext (st.xoffBuf.getLsbD v) (freeSpace s (p / 8) (p % 8) v) t then a ||| (1#16 <<< v) else a) 0

/-- XOFF bits that meter holds set at a port: VC CLS, and VC 8 + CLS for C3 and C5 (R154). -/
def holdBits (s : State) (p : Nat) : BitVec 16 :=
  s.holds.foldl (fun a h =>
    if h.port.val = p then
      a ||| (1#16 <<< h.cls) ||| (if h.cls = 3 ∨ h.cls = 5 then 1#16 <<< (8 + h.cls) else 0)
    else a) 0

/-- A 16-byte link item this port sends: XOFF, and ACKSEQ of the last packet accepted in order (R47, R56). -/
def sendItem (s : State) (p : Nat) (ltype : BitVec 8) (tspec : BitVec 64) : State :=
  let st := s.port p
  let ack := decide (st.st = .active ∨ st.st = .retrain)
  let i : LinkItem := { lcrcOk := true, ackv := ack, xoff := st.xoffTx, ackseq := st.rxLseq - 1 }
  (s.setPort p (if ack then { st with ackOwed := 0 } else st)).emit (.item ⟨p % 128, by omega⟩ ltype i tspec)

/-- Recomputes the XOFF bits of a port and sends an item when they change (R63, R64, R154). -/
def updateXoff (s : State) (p : Nat) : State :=
  let st := s.port p
  if st.st = .active then
    let buf := xoffBits s p
    let tx := buf ||| holdBits s p
    let s := s.setPort p { st with xoffBuf := buf, xoffTx := tx }
    if tx = st.xoffTx then s else sendItem s p 0x01 0
  else s

/-- Recomputes the XOFF bits of every port, and the lowest free shared cells (0x3806.04, held as cells used at most). -/
def updateAllXoff (s : State) : State :=
  let s := (s.ports.map (·.1)).foldl updateXoff s
  let hs := chargedPackets s
  if hs.isEmpty then s
  else
    let used := (enabledTiles s).foldl (fun a t => max a (65162 - sharedFree s hs t)) 0
    if s.c (okey 0x3806 4) < used then s.setC (okey 0x3806 4) used else s

/-! ### Request-table entries (R178 to R183) -/

def findTag (s : State) (k : ReqKey) : Option TagEntry := s.tags.find? fun t => t.key == k
def setTag (s : State) (e : TagEntry) : State := { s with tags := s.tags.map fun t => if t.key = e.key then e else t }
def dropTag (s : State) (k : ReqKey) : State := { s with tags := s.tags.filter fun t => t.key != k }

/-- Entries a partition holds. -/
def tagsOf (s : State) (p : Nat) : Nat := (s.tags.filter fun t => !t.quill && t.key.part.toNat == p).length
def outsideTags (s : State) : Nat := (s.tags.filter fun t => !t.quill).length
/-- Tags of quill `q` in use (R20). -/
def quillTags (s : State) (q : Nat) : Nat := (s.tags.filter fun t => t.quill && t.ingress.toNat == ingQuill q).length

/-- TAG_RESERVE and TAG_LIMIT of a partition (R181, R182). -/
def tagReserve (s : State) (p : Nat) : Nat := s.o (okey (0x5020 + p) 1)
def tagLimit (s : State) (p : Nat) : Nat := s.o (okey (0x5020 + p) 2)

/-- Entries kept free for the reserves of partitions other than `p` (R182). -/
def reservedForOthers (s : State) (p : Nat) : Nat :=
  ((List.range 32).map fun q => if q = p then 0 else tagReserve s q - tagsOf s q).foldl (· + ·) 0

/-- A request of partition `p` at an ingress finds an entry: one of the quill's 512 tags (R20), or one of the table (R181, R182). -/
def tagFree (s : State) (p ing : Nat) : Bool :=
  if 192 ≤ ing then decide (quillTags s (ing - 192) < 512)
  else decide (tagsOf s p < tagLimit s p) &&
    (decide (tagsOf s p < tagReserve s p) || decide (outsideTags s + reservedForOthers s p < 65536))

/-- TAG values of this device's own requests that are outstanding or still to be decided (R70). -/
def ownTags (s : State) : List (BitVec 16) :=
  let f := devFid s
  ((s.tags.map (·.key) ++ s.journal.map (·.key) ++ s.rawOut).filter fun k => k.src == f).map (·.tag) ++
    s.kx.map (·.tag) ++ s.notices.map (·.tag) ++
    s.inq.flatMap fun e => (e.2.filter fun h => isRequest h.pkt.hdr.op && h.pkt.hdr.src == f).map (·.pkt.hdr.tag)

/-- TAG of an own request: the first value from the running count that no outstanding request of this device bears (R70).
DESIGN CHOICE (notes/assumptions/8.md). -/
def freeTag (s : State) (n : Nat) : BitVec 16 :=
  let used := ownTags s
  (((List.range (used.length + 1)).map fun i => BitVec.ofNat 16 (n + i)).find? fun t => !(t ∈ used)).getD (BitVec.ofNat 16 n)

/-! ### The Blotter (R417 to R429) -/

def findJournal (s : State) (k : ReqKey) : Option JRec := s.journal.find? fun j => j.key == k
def setJournal (s : State) (j : JRec) : State :=
  { s with journal := s.journal.map fun x => if x.key = j.key then j else x }
def dropJournal (s : State) (k : ReqKey) : State := { s with journal := s.journal.filter fun j => j.key != k }

/-- Blotter entries of a tile: 32,768, 8,192 fewer for each Blotter bank retired (R417, R439). -/
def blotterSize (s : State) (t : Nat) : Nat :=
  32768 - 8192 * ((List.range 4).filter fun b => bankGone s t (80 + b)).length

/-- Entries in use: journal and ligature records, and pairs of completed-operation records (R417). -/
def blotterUsed (s : State) (t : Nat) : Nat :=
  (s.journal.filter fun j => j.tile.val == t).length + (s.ligRecs.filter fun j => j.tile.val == t && !j.closed).length +
    ((s.opRecs.filter fun j => j.tile.val == t).length + 1) / 2

def blotterFree (s : State) (t : Nat) : Bool := decide (blotterUsed s t < blotterSize s t)

/-- Notes the lowest number of free entries (0xA000.03, held as entries used at most). -/
def noteBlotter (s : State) (t : Nat) : State :=
  if s.c (okey 0xA000 3) < blotterUsed s t then s.setC (okey 0xA000 3) (blotterUsed s t) else s

/-- The header a journal record keeps: KS, VAL, HOP and MID zero (R418). -/
def journalHdr (h : Hdr) : Hdr := { h with ks := 0, val := false, hop := 0, mid := 0 }

/-- The low 32 bits of the timebase. -/
def tb32 (s : State) : BitVec 32 := BitVec.ofNat 32 s.timebase

/-- Takes a journal record (R417, R418). -/
def takeJournal (s : State) (t : Tile) (h : Hdr) (body : List Byte) (rkind : Nat) (held : Bool) (ing : BitVec 8) : State :=
  let j : JRec := { tile := t, key := hdrKey h, hdr := journalHdr h, body := body, rkind := rkind, held := held, att := 0,
                    egress := 0xFF, tacc := tb32 s, tlast := tb32 s, ingr := ing }
  noteBlotter { s with journal := s.journal ++ [j] } t.val

/-- Notes the output of the latest attempt (R418). -/
def noteEgress (s : State) (k : ReqKey) (out : Nat) : State :=
  match findJournal s k with
  | some j => setJournal s { j with egress := BitVec.ofNat 8 out, tlast := tb32 s }
  | none => s

/-- The header of an outstanding request, from its journal record or else from its table entry, which knows RETRY. -/
def tagHdr (s : State) (t : TagEntry) : Hdr :=
  match findJournal s t.key with
  | some j => j.hdr
  | none => { (default : Hdr) with ver := 1, cls := t.cls, op := t.op, dst := t.dst, src := t.key.src, part := t.key.part, tag := t.key.tag,
                                   opid := t.key.opid, flg := if t.retrying then flagRetry else 0 }

/-- Forgets a request at its accepting device. -/
def releaseRequest (s : State) (k : ReqKey) : State := dropJournal (dropTag s k) k


/-- The accepting device completes a request itself (R184, R420, R425, R459). The entry and the record are released. -/
def finishRequest (s : State) (h : Hdr) (st : BitVec 8) (cdat : BitVec 16) (ret0 : Option HostRet := none) : State :=
  let k := hdrKey h
  let ret := ((findTag s k).bind (·.ret)).or ret0
  let t := (findJournal s k).map (·.tile.val)
  let s := releaseRequest s k
  let s := enqueueIn s ingMemory .final ret (mkCmpl s h st 0 cdat)
  let s := noteStatus s (t.getD (crcTile s h.src h.opid)) st
  if st = St.tgtDead then raiseLimited { s with late := s.late ++ [k] } ms h.dst.toNat 0x0301 deviceWide [(4, h.dst.toNat)] else s

/-- Sends a HELD request again: RETRY set, original TAG and OPID, EP equal to ORIG_EP, one attempt more (R420). -/
def replayHeld (s : State) (j : JRec) : State :=
  let h := { j.hdr with flg := j.hdr.flg ||| flagRetry, ep := origEp s }
  let s := setJournal s { j with att := j.att + 1, tlast := tb32 s }
  let s := match findTag s j.key with
    | some e => setTag s { e with att := e.att + 1 }
    | none => s
  let s := s.bump (okey 0xA000 4) 1
  if j.rkind = 2 then { s with delivered := s.delivered ++ [{ msg := { hdr := h, body := j.body }, ingress := j.ingr }] }
  else originate s j.ingr.toNat .replay (mkRequest h j.body)

/-- Triggers (a), (b) and (c) of R420 on an entry, and R421 on one without HELD. -/
def replayTrigger (s : State) (k : ReqKey) : State :=
  match findJournal s k with
  | none => s
  | some j =>
    if j.hdr.cls.toNat = 1 ∨ j.hdr.cls.toNat = 2 then
      raise (s.bump (okey 0xA000 8) 1) 0x0908 deviceWide [(4, j.hdr.dst.toNat), (2, j.hdr.tag.toNat)]
    else if !j.held then finishRequest s j.hdr St.replayExhausted (BitVec.ofNat 16 j.att)
    else if 3 ≤ j.att then finishRequest s j.hdr St.replayExhausted 3
    else replayHeld s j

/-! ### Applying an operation once (R427 to R429) -/

def findOp (s : State) (h : Hdr) : Option OpRec :=
  s.opRecs.find? fun r => r.src == h.src && r.part == h.part && r.opid == h.opid
def setOp (s : State) (r : OpRec) : State :=
  { s with opRecs := s.opRecs.map fun x => if x.src = r.src ∧ x.part = r.part ∧ x.opid = r.opid then r else x }

/-- Creates the record IN_PROGRESS (R427). -/
def openOp (s : State) (h : Hdr) : State :=
  let t := crcTile s h.src h.opid
  let r : OpRec := { tile := ⟨t % 16, by omega⟩, src := h.src, part := h.part, opid := h.opid, done := false, ndup := 0,
                     status := 0, cflg := 0, cdat := 0, res := none, tdone := 0 }
  noteBlotter { s with opRecs := s.opRecs ++ [r] } t

/-- The completion of a finished operation, as the record holds it (R429); the LOCAL copy of a ligature message has none, since its
ligature record answers for it (R130). -/
def opCompletion (s : State) (h : Hdr) (r : OpRec) : List Packet :=
  if h.mcast then []
  else match r.res with
  | some old => mkCmplData s h r.cflg r.cdat (leBytes 16 old.toNat)
  | none => [mkCmpl s h r.status r.cflg r.cdat]

/-- Sends the completion of a finished operation from its record. -/
def sendOp (s : State) (ing : Nat) (h : Hdr) (r : OpRec) : State :=
  let s := if h.mcast then s else noteStatus s (tileOfIngress s ing h).val r.status
  originate s ing .unit (opCompletion s h r)

/-- The record of an operation that has ended (R428). -/
def endedOp (s : State) (h : Hdr) (st cflg : BitVec 8) (cdat : BitVec 16) (res : Option (BitVec 64)) : OpRec :=
  { (findOp s h).getD { tile := ⟨crcTile s h.src h.opid % 16, by omega⟩, src := h.src, part := h.part, opid := h.opid, done := true,
                        ndup := 0, status := 0, cflg := 0, cdat := 0, res := none, tdone := 0 } with
    done := true, status := st, cflg := cflg, cdat := cdat, res := res, tdone := s.timebase, ndup := 0 }

/-- Ends a "once" operation: the record is DONE and 1 + NDUP identical completions leave (R429). -/
def finishOnce (s : State) (ing : Nat) (h : Hdr) (st cflg : BitVec 8) (cdat : BitVec 16) (res : Option (BitVec 64)) : State :=
  let r := endedOp s h st cflg cdat res
  match findOp s h with
  | none => sendOp s ing h r
  | some o => (List.range (o.ndup + 1)).foldl (fun s _ => sendOp s ing h r) (setOp s r)

/-- Takes a message out of the delivered ones, where it stands there. -/
def takeDelivered (s : State) (m : Msg) : State := { s with delivered := s.delivered.filter fun d => d.msg != m }

/-- The completed-operation record of a request lies in a tile that was reset within the last 1 ms (R571). -/
def inTileWindow (s : State) (h : Hdr) : Bool := s.power.tileWin.any fun t => t.val == crcTile s h.src h.opid

/-- The "once" discipline around an operation: a copy that meets a record is answered from it or counted (R427, R429). -/
def once (s : State) (ing : Nat) (m : Msg) (perform : State → State) : State :=
  match findOp s m.hdr with
  | some r =>
    if r.done then sendOp (s.bump (okey 0xA000 6) 1) ing m.hdr r
    else (setOp s { r with ndup := min 3 (r.ndup + 1) }).bump (okey 0xA000 7) 1
  | none =>
    if inTileWindow s m.hdr then finishOnce s ing m.hdr St.replayExhausted 0 0 none
    else perform (openOp s m.hdr)

end Sys2Proof.Machine
end

