-- ==== Sys2Proof/Machine/Access.lean ====
section
/-! DEFINITION. What every dictionary write shares: who may write, when a unit is stopped, and the answer (R472 to R482). -/

namespace Sys2Proof.Machine

/-- The outcome of a dictionary access: DSTAT, AUXR, the value a read or a record write returns, and the state. -/
structure Ans where
  st    : BitVec 8
  auxr  : BitVec 32
  value : List Byte
  s     : State

/-- Performed. -/
def Ans.ok (s : State) : Ans := { st := Ds.ok, auxr := 0, value := [], s := s }
/-- Refused with a status; the state may have raised an event. -/
def Ans.no (s : State) (d : BitVec 8) : Ans := { st := d, auxr := 0, value := [], s := s }

/-- Records an answer to a caller. -/
def Ans.out (a : Ans) (by_ : Caller) : Host.Outcome State Fault Refusal :=
  .next (a.s.emit (.answer by_ a.st a.auxr a.value))

/-- The answer of a write of records: VALUE_REJECTED with the first rejected position and their number, or OK (R479). -/
def recordsAnswer (s : State) (rejected : List Nat) : Ans :=
  match rejected with
  | [] => Ans.ok s
  | i :: _ => { st := Ds.valueRejected, auxr := BitVec.ofNat 32 i, value := leBytes 4 rejected.length, s := s }

/-- Applies each record on its own, in order; `f` answers the state and whether the record is accepted (R479). -/
def applyRecords {α : Type} (f : State → α → Bool × State) : State → List α → Nat → List Nat × State
  | s, [], _ => ([], s)
  | s, r :: rs, i =>
    let x := f s r
    let y := applyRecords f x.2 rs (i + 1)
    (if x.1 then y.1 else i :: y.1, y.2)

/-- A write of records, as an answer. -/
def writeRecords {α : Type} (f : State → α → Bool × State) (s : State) (rs : List α) : Ans :=
  let r := applyRecords f s rs 0
  recordsAnswer r.2 r.1

/-- An OPR session under the unset credential may write OPR_CRED only (R492). -/
def zeroCredCaller (s : State) (c : Caller) : Bool :=
  match s.session c.sid with | some v => v.zeroCred | none => false

/-- OPR, with its credential set (R480, R492). -/
def isOpr (s : State) (c : Caller) : Bool := c.role == .opr && !zeroCredCaller s c

/-- PRT of partition `p`. -/
def isPrt (c : Caller) (p : Nat) : Bool := c.role == .prt && c.part.val == p

/-- OPR of a unit or record that partition `p` owns: closed once `p` is SEALED (R386, R391). -/
def oprOver (s : State) (c : Caller) (p : Nat) : Bool := isOpr s c && !isSealed s p

/-- OPR, or the PRT of partition `p` (R391, R480). -/
def ownerWrites (s : State) (c : Caller) (p : Nat) : Bool := oprOver s c p || isPrt c p

/-- "A configured partition": one that is not FREE. -/
def partConfigured (s : State) (p : Nat) : Bool := decide (p < 32) && (s.part p).st != .free

/-- Resources are granted to a partition, and taken from it, while it is FREE or OPEN (R386). -/
def resourcesOpen (s : State) (p : Nat) : Bool := (s.part p).st == .free || (s.part p).st == .open_

/-- Every fabric port is DISABLED. -/
def allPortsDisabled (s : State) : Bool := s.ports.all fun e => e.2.st == .disabled

/-- The unit of a device-wide RWS object is stopped (R473). -/
def deviceStopped (s : State) : Bool := allPortsDisabled s && s.o (hostObj 0 0 1) == 0 && s.o (hostObj 1 0 1) == 0

/-- A write whose caller lacks the right, else the rest (R481, step 2). -/
def guardRole (s : State) (ok : Bool) (rest : Ans) : Ans := if ok then rest else Ans.no s Ds.accessDenied

/-- A value outside the Range column, else the rest (R481, step 5). -/
def guardRange (s : State) (ok : Bool) (rest : Ans) : Ans := if ok then rest else Ans.no s Ds.outOfRange

/-- A value the chapter rejects, else the rest (R481, step 7). -/
def guardValue (s : State) (ok : Bool) (rest : Ans) : Ans := if ok then rest else Ans.no s Ds.valueRejected

end Sys2Proof.Machine
end

