-- ==== Sys2Proof/Machine/Flags.lean ====
section
/-! DEFINITION. Arithmetic (06_arithmetic_exact_reduction.md, R222 to R241): formats, exact accumulation, the one rounding, and
what a result sets and counts (NAN_SEEN, OPX, CFLG). -/

namespace Sys2Proof.Machine

/-! ### Formats (R223 to R225) -/

/-- An element format FMT of R223. -/
inductive Fmt where
  | fp32 | bf16 | fp16 | e4m3 | e5m2 | mxe4m3 | mxe5m2 | mxe2m3 | mxe3m2 | mxfp4 | mxint8 | int8 | int32
  deriving DecidableEq, Repr, Inhabited

/-- The format a code names; 0xD-0xF are reserved (R223). -/
def Fmt.ofCode (c : Nat) : Option Fmt :=
  [Fmt.fp32, .bf16, .fp16, .e4m3, .e5m2, .mxe4m3, .mxe5m2, .mxe2m3, .mxe3m2, .mxfp4, .mxint8, .int8, .int32][c]?

/-- Element bits. -/
def Fmt.width : Fmt → Nat
  | .fp32 | .int32 => 32
  | .bf16 | .fp16 => 16
  | .e4m3 | .e5m2 | .mxe4m3 | .mxe5m2 | .mxint8 | .int8 => 8
  | .mxe2m3 | .mxe3m2 => 6
  | .mxfp4 => 4

def Fmt.isMx : Fmt → Bool
  | .mxe4m3 | .mxe5m2 | .mxe2m3 | .mxe3m2 | .mxfp4 | .mxint8 => true
  | _ => false

def Fmt.isInt : Fmt → Bool
  | .int8 | .int32 => true
  | _ => false

/-- Exponent bits, mantissa bits and bias of a floating-point element encoding. -/
def Fmt.shape : Fmt → Nat × Nat × Nat
  | .fp32 => (8, 23, 127)
  | .bf16 => (8, 7, 127)
  | .fp16 => (5, 10, 15)
  | .e4m3 | .mxe4m3 => (4, 3, 7)
  | .e5m2 | .mxe5m2 => (5, 2, 15)
  | .mxe2m3 => (2, 3, 1)
  | .mxe3m2 => (3, 2, 3)
  | .mxfp4 => (2, 1, 1)
  | _ => (0, 0, 0)

/-- The encoding has infinities. -/
def Fmt.hasInf : Fmt → Bool
  | .fp32 | .bf16 | .fp16 | .e5m2 | .mxe5m2 => true
  | _ => false

/-- The encoding has NaN patterns. -/
def Fmt.hasNan : Fmt → Bool
  | .e4m3 | .mxe4m3 => true
  | f => f.hasInf

/-- The largest finite magnitude pattern. -/
def Fmt.maxCode : Fmt → Nat
  | .fp32 => 0x7F7FFFFF
  | .bf16 => 0x7F7F
  | .fp16 => 0x7BFF
  | .e4m3 | .mxe4m3 => 0x7E
  | .e5m2 | .mxe5m2 => 0x7B
  | .mxe2m3 | .mxe3m2 => 0x1F
  | .mxfp4 => 0x7
  | _ => 0

/-- Canonical NaN of the formats without a scale (R223). -/
def Fmt.canonNan : Fmt → Nat
  | .fp32 => 0x7FC00000
  | .bf16 => 0x7FC0
  | .fp16 => 0x7E00
  | .e4m3 => 0x7F
  | .e5m2 => 0x7E
  | _ => 0

/-- EMAX of the MX formats (R223). -/
def Fmt.emax : Fmt → Int
  | .mxe4m3 => 8
  | .mxe5m2 => 15
  | .mxe2m3 | .mxfp4 => 2
  | .mxe3m2 => 4
  | _ => 0

/-- An element's exact value: NaN, an infinity, or ±mag × 2^exp. -/
inductive Val where
  | nan
  | inf (neg : Bool)
  | fin (neg : Bool) (mag : Nat) (exp : Int)
  deriving DecidableEq, Repr, Inhabited

/-- Two's complement of `w` bits. -/
def signedOf (w v : Nat) : Int := if 2 ^ (w - 1) ≤ v then (v : Int) - 2 ^ w else v

/-- A two's complement element. -/
def decodeInt (w v : Nat) (e : Int) : Val := let i := signedOf w v; .fin (decide (i < 0)) i.natAbs e

/-- A floating-point element (R225): subnormals are exact, nothing is flushed. -/
def decodeFloat (f : Fmt) (v : Nat) : Val :=
  let (eb, mb, bias) := f.shape
  let neg := bit v (eb + mb)
  let e := v / 2 ^ mb % 2 ^ eb
  let m := v % 2 ^ mb
  if f.hasInf && e == 2 ^ eb - 1 then (if m = 0 then .inf neg else .nan)
  else if f.hasNan && !f.hasInf && v % 2 ^ (eb + mb) == 2 ^ (eb + mb) - 1 then .nan
  else if e = 0 then .fin neg m (1 - bias - mb)
  else .fin neg (2 ^ mb + m) ((e : Int) - bias - mb)

/-- One element pattern, without its block's scale. -/
def decodeElem (f : Fmt) (v : Nat) : Val :=
  match f with
  | .int8 => decodeInt 8 v 0
  | .int32 => decodeInt 32 v 0
  | .mxint8 => decodeInt 8 v (-6)
  | f => decodeFloat f v

/-- An MX element times its block scale; scale 0xFF makes every element of its block NaN (R224, R225). -/
def scaleElem (s : Nat) (v : Val) : Val :=
  if s = 0xFF then .nan
  else match v with
    | .fin n m e => .fin n m (e + s - 127)
    | v => v

/-- Bytes of a vector of `n` elements (R224). -/
def Fmt.vecBytes (f : Fmt) (n : Nat) : Nat := (n * f.width + 7) / 8 + (if f.isMx then (n + 31) / 32 else 0)

/-- Bits of element `i` of packed elements that start at byte `off`. -/
def packedAt (bs : List Byte) (off w i : Nat) : Nat := leAt bs (off + i * w / 8) 5 / 2 ^ (i * w % 8) % 2 ^ w

/-- The elements of a vector in memory or a payload (R224, R225). -/
def decodeVec (f : Fmt) (n : Nat) (bs : List Byte) : List Val :=
  if f.isMx then
    let nb := (n + 31) / 32
    (List.range n).map fun i => scaleElem (leAt bs (i / 32) 1) (decodeElem f (packedAt bs nb f.width i))
  else (List.range n).map fun i => decodeElem f (packedAt bs 0 f.width i)

/-! ### Operations (R222, R240) -/

/-- ROP of R222. -/
inductive Rop where
  | sum | mean | max | min | wsum | dot
  deriving DecidableEq, Repr, Inhabited

def Rop.ofCode (c : Nat) : Option Rop := [Rop.sum, .mean, .max, .min, .wsum, .dot][c]?

/-- R240: the combination of input formats, operation and output format is allowed. -/
def combAllowed (ins : List Fmt) (op : Rop) (out : Fmt) : Bool :=
  let f := !out.isInt
  ins.all (fun i => some i == ins.head?) &&
  if ins.all Fmt.isInt then
    match op with
    | .sum | .max | .min => true
    | _ => f
  else f

/-! ### Terms (R231) -/

/-- A term: NaN (among the inputs or created), an infinity, or ±n × 2^-160. -/
inductive Term where
  | nan (input : Bool)
  | inf (neg : Bool)
  | fin (neg : Bool) (n : Nat)
  deriving DecidableEq, Repr, Inhabited

/-- A value as a term, and whether it was rounded toward zero (R231). -/
def Val.toTerm : Val → Term × Bool
  | .nan => (.nan true, false)
  | .inf g => (.inf g, false)
  | .fin g m e =>
    let k := e + 160
    if 0 ≤ k then
      let n := m * 2 ^ k.toNat
      (if 2 ^ 320 ≤ n then .inf g else .fin g n, false)
    else
      let d := 2 ^ (-k).toNat
      let n := m / d
      (if 2 ^ 320 ≤ n then .inf g else .fin g n, m % d != 0)

/-- A product term; 0 × ∞ is a NaN that arithmetic creates (R235). -/
def mulTerm (a b : Val) : Term × Bool :=
  match a, b with
  | .nan, _ => (.nan true, false)
  | _, .nan => (.nan true, false)
  | .inf g, .inf h => (.inf (g != h), false)
  | .inf g, .fin h m _ => (if m = 0 then .nan false else .inf (g != h), false)
  | .fin g m _, .inf h => (if m = 0 then .nan false else .inf (g != h), false)
  | .fin g m e, .fin h m' e' => (Val.fin (g != h) (m * m') (e + e')).toTerm

/-- A value times a count. -/
def Val.times (v : Val) (c : Nat) : Val :=
  match v with
  | .fin g m e => .fin g (m * c) e
  | v => v

/-! ### Exact accumulation (R227 to R230) -/

/-- The lowest set bit's index of a non-zero number is at least `k`. -/
def lowBitAtLeast (n k : Nat) : Bool := n % 2 ^ k == 0

/-- A term fits the window of a compact element (R228). -/
def fitsWindow (wexp : Nat) (n : Nat) (sum : Int) : Bool := lowBitAtLeast n wexp && decide (sum.natAbs < 2 ^ (wexp + 55))

/-- WEXP set by a first term (R228): m − 39 + 160 clamped to 0-296, for leading bit index m + 160 of the term. -/
def firstWexp (n : Nat) : Nat := min 296 (Nat.log2 n - 39)

/-- What the terms of one element come to, whichever form holds it: the exact sum in units of 2^-160, or the one value of MAX and MIN,
and what R235 asks of them. -/
structure Sum where
  /-- The window of the compact form, and whether the element has escalated (R228). -/
  note : ElemNote := {}
  wexp : Nat := 0
  esc  : Bool := false
  sum  : Int := 0
  nan  : Bool := false
  pinf : Bool := false
  ninf : Bool := false
  nz   : Bool := true
  deriving DecidableEq, Repr, Inhabited

/-- A finite term as a signed number. -/
def signedTerm (g : Bool) (n : Nat) : Int := if g then -(n : Int) else n

/-- Adds a term to a sum: SUM, MEAN, WSUM and DOT (R227 to R229). -/
def Sum.add (x : Sum) (t : Term) : Sum :=
  match t with
  | .nan i => { x with nan := true, note := { x.note with nanIn := x.note.nanIn || i } }
  | .inf g => if g then { x with ninf := true } else { x with pinf := true }
  | .fin g n =>
    if n = 0 then { x with nz := x.nz && g, note := { x.note with any := true } }
    else
      let sum := x.sum + signedTerm g n
      let w := if x.note.set then x.wexp else firstWexp n
      { x with note := { x.note with set := true, any := true }, wexp := w, sum := sum, nz := false,
               esc := x.esc || !fitsWindow w n sum }

/-- The order of R239 on finite values, +0 above −0: a value in half units. -/
def orderKey (sum : Int) (nz : Bool) : Int := 2 * sum - (if sum = 0 ∧ nz then 1 else 0)

/-- Takes a term into a MAX or MIN: it holds one value and never escalates (R229, R239). -/
def Sum.pick (greatest : Bool) (x : Sum) (t : Term) : Sum :=
  match t with
  | .nan i => { x with nan := true, note := { x.note with nanIn := x.note.nanIn || i } }
  | .inf g => if g then { x with ninf := true } else { x with pinf := true }
  | .fin g n =>
    let v := signedTerm g n
    let z := g && n == 0
    let better := if greatest then decide (orderKey x.sum x.nz < orderKey v z) else decide (orderKey v z < orderKey x.sum x.nz)
    if !x.note.any || better then
      { x with sum := v, nz := z, wexp := if n = 0 then 0 else firstWexp n, note := { x.note with set := n != 0, any := true } }
    else x

/-- Takes a term under an operation. -/
def Sum.take (op : Rop) (x : Sum) (t : Term) : Sum :=
  match op with
  | .max => x.pick true t
  | .min => x.pick false t
  | _ => x.add t

/-- What a compact element or its pool entry holds. -/
def Elem.total (pool : Sparse (Option Acc)) (x : Elem) : Sum :=
  if x.esc then
    let a := (Sparse.get none pool (x.sv.toNat % 2 ^ 14)).getD {}
    { note := x.note, wexp := x.wexp.toNat, esc := true, sum := a.value.toInt, nan := a.nan, pinf := a.pinf, ninf := a.ninf, nz := a.nz }
  else { note := x.note, wexp := x.wexp.toNat, sum := (x.sv + x.cv).toInt * 2 ^ x.wexp.toNat, nan := x.nan, pinf := x.pinf,
         ninf := x.ninf, nz := x.nz }

/-- A pool entry that holds a sum, for element `i` (R229, R230). -/
def Sum.entry (x : Sum) (i : Nat) : Acc :=
  { value := BitVec.ofInt 352 x.sum, nan := x.nan, pinf := x.pinf, ninf := x.ninf, nz := x.nz, owner := BitVec.ofNat 16 i }

/-- SV and CV after the addition of `t` in carry-save form (R228): bitwise sum, and the carries one place up. DEDUCED
(notes/assumptions/80.md). -/
def carrySave (sv cv t : BitVec 56) : BitVec 56 × BitVec 56 :=
  (sv ^^^ cv ^^^ t, ((sv &&& cv) ||| (sv &&& t) ||| (cv &&& t)) <<< 1)

/-- A compact element that has taken a term which leaves it compact; `y` is what it comes to. -/
def Elem.compact (op : Rop) (x : Elem) (t : Term) (y : Sum) : Elem :=
  let x' := { x with wexp := BitVec.ofNat 9 y.wexp, nan := y.nan, pinf := y.pinf, ninf := y.ninf, nz := y.nz, note := y.note }
  if op = .max ∨ op = .min then { x' with sv := BitVec.ofInt 56 (y.sum / 2 ^ y.wexp), cv := 0 }
  else match t with
    | .fin g n =>
      let c := carrySave x.sv x.cv (BitVec.ofInt 56 (signedTerm g (n / 2 ^ y.wexp)))
      { x' with sv := c.1, cv := c.2 }
    | _ => x'

/-- The lowest free entry of a pool. -/
def freeEntry (pool : Sparse (Option Acc)) : Nat :=
  ((List.range (pool.length + 1)).find? fun i => !(pool.any fun e => e.1 == i)).getD 0

/-- Element `i` of a chunk takes a term, with its quill's pool (R228, R229). -/
def Elem.takeIn (op : Rop) (pool : Sparse (Option Acc)) (i : Nat) (x : Elem) (t : Term) : Elem × Sparse (Option Acc) :=
  let y := (x.total pool).take op t
  if !y.esc then (x.compact op t y, pool)
  else
    let k := if x.esc then x.sv.toNat % 2 ^ 14 else freeEntry pool
    ({ x with esc := true, sv := BitVec.ofNat 56 k, cv := 0, wexp := BitVec.ofNat 9 y.wexp, note := y.note },
      Sparse.set none pool k (some (y.entry i)))

/-! ### Results (R233 to R239) -/

/-- An exact result: NaN (from an input, or created), an infinity, or ±num/den × 2^-160. -/
inductive Res where
  | nan (input : Bool)
  | inf (neg : Bool)
  | val (neg : Bool) (num den : Nat)
  deriving DecidableEq, Repr, Inhabited

/-- The exact result of an element under an operation over `n` terms (R234, R235). -/
def Sum.result (op : Rop) (n : Nat) (x : Sum) : Res :=
  let neg := if x.sum = 0 then x.nz && x.note.any else decide (x.sum < 0)
  let v := Res.val neg x.sum.natAbs (if op = .mean then max n 1 else 1)
  if x.nan then .nan x.note.nanIn
  else match op with
    | .max => if x.pinf then .inf false else if x.note.any then v else if x.ninf then .inf true else v
    | .min => if x.ninf then .inf true else if x.note.any then v else if x.pinf then .inf false else v
    | _ =>
      if x.pinf && x.ninf then .nan false
      else if x.pinf then .inf false
      else if x.ninf then .inf true
      else v

/-- a / b rounded to nearest, ties to even. -/
def divRne (a b : Nat) : Nat :=
  let q := a / b
  let r := a % b
  if 2 * r < b then q else if b < 2 * r then q + 1 else q + q % 2

/-- a / (b × 2^k) rounded to nearest even. -/
def scaledRne (a b : Nat) (k : Int) : Nat := if 0 ≤ k then divRne a (b * 2 ^ k.toNat) else divRne (a * 2 ^ (-k).toNat) b

/-- ⌊log2 (a / b)⌋ for a, b > 0. -/
def floorLog2 (a b : Nat) : Int :=
  let l : Int := (Nat.log2 a : Int) - Nat.log2 b
  let ge := if 0 ≤ l then decide (b * 2 ^ l.toNat ≤ a) else decide (b ≤ a * 2 ^ (-l).toNat)
  if ge then l else l - 1

/-- The magnitude pattern nearest to a / b × 2^-160 ÷ 2^scale in a floating-point encoding, unbounded above (R233). -/
def roundMag (f : Fmt) (a b : Nat) (scale : Int) : Nat :=
  if a = 0 then 0
  else
    let (_, mb, bias) := f.shape
    let e := max (floorLog2 a b - 160 - scale) (1 - (bias : Int))
    let r := scaledRne a b (e - mb + 160 + scale)
    ((e + bias - 1).toNat) * 2 ^ mb + r

/-- One element as written: its pattern, whether it is counted under R236, and whether it is a NaN that arithmetic created
(counted under R235) or a NaN from an input. -/
structure Written where
  pat      : Nat
  overflow : Bool := false
  made     : Bool := false
  nanIn    : Bool := false
  deriving DecidableEq, Repr, Inhabited

/-- Sign bit of a floating-point pattern. -/
def signed (f : Fmt) (neg : Bool) (mag : Nat) : Nat := (if neg then 2 ^ (f.width - 1) else 0) + mag

/-- A result in a floating-point format without scale (R233, R235, R236). -/
def writeFloat (f : Fmt) (r : Res) : Written :=
  match r with
  | .nan i => { pat := f.canonNan, made := !i, nanIn := i }
  | .inf g => if f.hasInf then { pat := signed f g (f.maxCode + 1) } else { pat := f.canonNan, made := true }
  | .val g a b =>
    let m := roundMag f a b 0
    if f.maxCode < m then { pat := if f.hasInf then signed f g (f.maxCode + 1) else f.canonNan, overflow := true }
    else { pat := signed f g m }

/-- A sum in an integer format: INT32 wraps or saturates, INT8 saturates (R238). -/
def writeInt (f : Fmt) (saturate : Bool) (r : Res) : Written :=
  match r with
  | .val g a b =>
    let v : Int := (if g then -(a : Int) else a) / (2 ^ 160 * b)
    let lo : Int := -(2 ^ (f.width - 1))
    let hi : Int := 2 ^ (f.width - 1) - 1
    let over_ := decide (v < lo ∨ hi < v)
    let w := if f = .int32 ∧ ¬ saturate then v else max lo (min hi v)
    { pat := (w % 2 ^ f.width).toNat, overflow := over_ }
  | _ => { pat := 0 }

/-- ⌊log2⌋ of a result's magnitude; none for zero. -/
def Res.log2 : Res → Option Int
  | .val _ a b => if a = 0 then none else some (floorLog2 a b - 160)
  | _ => none

/-- The block's scale exponent (R237, steps 1 and 2). -/
def blockExp (f : Fmt) (rs : List Res) : Int :=
  match (rs.filterMap Res.log2).foldl (fun (a : Option Int) x => match a with | none => some x | some y => some (max x y)) none with
  | none => 0
  | some l => max (l - f.emax) (-127)

/-- One element of an MX block under its scale (R237, step 3). -/
def writeMxElem (f : Fmt) (sc : Int) (r : Res) : Written :=
  match r with
  | .val g a b =>
    if f = .mxint8 then
      let n := scaledRne a b (160 + sc - 6)
      if g then { pat := (256 - min n 128) % 256, overflow := decide (128 < n) }
      else { pat := min n 127, overflow := decide (127 < n) }
    else
      let m := roundMag f a b sc
      { pat := signed f g (min m f.maxCode), overflow := decide (f.maxCode < m) }
  | _ => { pat := 0 }

/-- What writing a vector gives: its bytes, and what its elements set and count (R235 to R237, R261). -/
structure VecOut where
  bytes    : List Byte
  /-- A NaN among the inputs reached a result. -/
  nanSeen  : Bool
  /-- A result counted under R236. -/
  over_     : Bool
  /-- Added to 0x7000.06 and 0x7000.07. -/
  nNan     : Nat
  nOver    : Nat
  deriving DecidableEq, Repr, Inhabited

def Res.isNan : Res → Bool
  | .nan _ => true
  | _ => false
def Res.nanIn : Res → Bool
  | .nan i => i
  | _ => false
def Res.isInf : Res → Bool
  | .inf _ => true
  | _ => false

/-- An MX block: its scale byte and elements, and whether it is written NaN (R237, step 4). -/
def writeBlock (f : Fmt) (rs : List Res) : Nat × List Written × Bool :=
  let sc := blockExp f rs
  if rs.any (fun r => r.isNan || r.isInf) || decide (127 < sc) then
    (0xFF, rs.map fun r => { pat := 0, nanIn := r.nanIn }, true)
  else ((sc + 127).toNat, rs.map (writeMxElem f sc), false)

/-- Splits a list into blocks of 32; `fuel` is at least the number of blocks. -/
def blocks32 {α : Type} : Nat → List α → List (List α)
  | 0, _ => []
  | n + 1, l => if l.isEmpty then [] else l.take 32 :: blocks32 n (l.drop 32)

/-- Packs patterns of `w` bits, little-endian (R224). -/
def packBits (w : Nat) : List Nat → Nat
  | [] => 0
  | p :: ps => p % 2 ^ w + 2 ^ w * packBits w ps

/-- Packs patterns into bytes, eight at a time. -/
def packBytes (w : Nat) (ps : List Nat) : List Byte :=
  let rec go : Nat → List Nat → List Byte
    | 0, _ => []
    | n + 1, l => if l.isEmpty then [] else leBytes (((l.take 8).length * w + 7) / 8) (packBits w (l.take 8)) ++ go n (l.drop 8)
  go ps.length ps

/-- Writes result elements in an output format (R224, R233 to R238). -/
def writeVec (f : Fmt) (saturate : Bool) (rs : List Res) : VecOut :=
  if f.isMx then
    let bs := (blocks32 rs.length rs).map (writeBlock f)
    let ws := bs.flatMap fun b => b.2.1
    let over_ := (ws.filter (·.overflow)).length
    { bytes := bs.map (fun b => BitVec.ofNat 8 b.1) ++ packBytes f.width (ws.map (·.pat))
      nanSeen := ws.any (·.nanIn)
      over_ := decide (0 < over_)
      nNan := (ws.filter (·.nanIn)).length
      nOver := over_ + (bs.filter (·.2.2)).length }
  else
    let ws := rs.map fun r => if f.isInt then writeInt f saturate r else writeFloat f r
    let over_ := (ws.filter (·.overflow)).length
    { bytes := packBytes f.width (ws.map (·.pat))
      nanSeen := ws.any (·.nanIn)
      over_ := decide (0 < over_)
      nNan := (ws.filter (·.nanIn)).length
      nOver := over_ + (ws.filter (·.made)).length }

/-! ### Completion flags (R78) -/

/-- CFLG: bit 0 DEFAULT_ROW_USED, bit 1 NAN_SEEN, bit 2 DEGRADED, bit 3 SEALED (R78). -/
def cflgOf (defaultRow nanSeen degraded sealed : Bool) : BitVec 8 :=
  BitVec.ofNat 8 (b2n defaultRow + 2 * b2n nanSeen + 4 * b2n degraded + 8 * b2n sealed)

/-! ### Atomics (R174 to R176) -/

/-- Binary32 pattern is NaN. -/
def isNan32 (v : Nat) : Bool := decide (0x7F800000 < v % 2 ^ 31)

/-- Order of binary32 patterns under R239, −∞ lowest and +0 above −0. -/
def key32 (v : Nat) : Int := if bit v 31 then -((v % 2 ^ 31 : Nat) : Int) - 1 else v

/-- The new word of an ATOMIC and whether it sets NAN_SEEN; none where the combination is FORMAT_UNSUPPORTED
(R174 to R176). -/
def atomicResult (aop atype word opa opb : Nat) : Option (Nat × Bool) :=
  let w := if atype = 1 ∨ atype = 3 then 64 else 32
  let word := word % 2 ^ w
  let opa := opa % 2 ^ w
  let opb := opb % 2 ^ w
  if 4 < atype then none
  else match aop with
    | 1 => if atype = 4 then none else some ((word + opa) % 2 ^ w, false)
    | 2 => some (if word = opb then opa else word, false)
    | 3 => some (opa, false)
    | 4 | 5 =>
      let greatest := aop == 4
      if atype = 4 then
        if isNan32 word || isNan32 opa then some (0x7FC00000, true)
        else
          let a := decide (key32 word < key32 opa)
          some (if a == greatest then opa else word, false)
      else
        let k (v : Nat) : Int := if atype = 2 ∨ atype = 3 then signedOf w v else v
        let a := decide (k word < k opa)
        some (if a == greatest then opa else word, false)
    | _ => none

end Sys2Proof.Machine
end

