-- ==== Sys2Proof/Machine/Operands.lean ====
section
/-! DEFINITION. The operand fields of requests and records: one accessor per field of the spec's tables, for the memory,
coherence, folio, publication, object and near-memory requests. -/

namespace Sys2Proof.Machine

/-- The named bit fields of a value, its reserved bits zero (R9). -/
def keepFields (v : Nat) (fs : List (Nat × Nat)) : Nat := fs.foldl (fun a f => a + bits v f.1 f.2 * 2 ^ f.2) 0

/-! ### Addresses (R167, R305) -/

def spaceOf (a : Nat) : Nat := bits a 55 48

/-- OPX of a multi-packet request (R74). -/
def opxOf (h : Hdr) : Nat := bits h.aux.toNat 7 0

/-- Length of a LOAD or BULK_LOAD (R170): LENM1 in 16-byte units. -/
def loadLen (h : Hdr) : Nat := 16 * (bits h.aux.toNat 15 0 + 1)
def loadVrec (h : Hdr) : Bool := bit h.aux.toNat 16

/-- AOP and ATYPE of an ATOMIC or HOME_ATOMIC (R174, R195). -/
def aopOf (h : Hdr) : Nat := bits h.aux.toNat 3 0
def atypeOf (h : Hdr) : Nat := bits h.aux.toNat 7 4
/-- Operand width in bytes. -/
def atomicWidth (h : Hdr) : Nat := if atypeOf h = 1 ∨ atypeOf h = 3 then 8 else 4
def atomicOpa (body : List Byte) : Nat := leAt body 0 8
def atomicOpb (body : List Byte) : Nat := leAt body 8 8
/-- AOP and ATYPE are defined and combine (R174, R176). -/
def atomicDefined (h : Hdr) : Bool := (atomicResult (aopOf h) (atypeOf h) 0 0 0).isSome

/-! ### Folio records (R204) -/

def folValid (w : BitVec 256) : Bool := bit w.toNat 255
def folHomek (w : BitVec 256) : Nat := bits w.toNat 254 253
def folRo (w : BitVec 256) : Bool := bit w.toNat 252
def folOwner (w : BitVec 256) : Nat := bits w.toNat 249 245
def folPfolio (w : BitVec 256) : Nat := bits w.toNat 239 224
def folRfid (w : BitVec 256) : Fid := BitVec.ofNat 24 (bits w.toNat 191 168)
def folRaddr (w : BitVec 256) : Nat := bits w.toNat 159 104
def folLfolio (w : BitVec 256) : Nat := bits w.toNat 75 64

/-! ### Coherence fields (R195) -/

def gmaskOf (h : Hdr) : Nat := bits h.aux.toNat 15 8
/-- HTGT of a COH_STORE, or of a STORE in OPX. -/
def htgtOf (h : Hdr) : Nat := bits h.aux.toNat 3 0
def resOf (h : Hdr) : BitVec 4 := BitVec.ofNat 4 (bits h.aux.toNat 3 0)
/-- RES values. -/
abbrev resNone : BitVec 4 := 0
abbrev resFwdClean : BitVec 4 := 2
abbrev resFwdDirty : BitVec 4 := 3
abbrev resAccept : BitVec 4 := 4
/-- SKIND values. -/
abbrev snpShared : Nat := 1
abbrev snpOwn : Nat := 2
abbrev snpInv : Nat := 3
/-- CDAT of a coherent completion: GRANT and FWD. -/
def grantCdat (grant : Nat) (fwd : Bool) : BitVec 16 := BitVec.ofNat 16 (grant + 8 * b2n fwd)

/-! ### PUBLISH (R212) -/

def pubExpect (body : List Byte) : BitVec 64 := BitVec.ofNat 64 (leAt body 0 8)
def pubBase (body : List Byte) : Nat := bits (leAt body 0 32) 119 64
def pubLen (body : List Byte) : Nat := leAt body 16 8
/-- The region index of SPACE 0x03 and the offset (R167). -/
def regionIx (a : Nat) : Nat := bits a 47 36
def regionOff (a : Nat) : Nat := bits a 35 0

/-! ### COPY, COMPARE, MEM_REDUCE (R330 to R332) -/

def copySrc (body : List Byte) : Nat := bits (leAt body 0 16) 55 0
def copyLen (body : List Byte) : Nat := bits (leAt body 0 16) 100 64
def cmpMode (body : List Byte) : Bool := bit (leAt body 0 16) 56
def cmpPattern (body : List Byte) : List Byte := slice body 16 16
/-- LEN is a multiple of 16, 16 to 2^36 (R330). -/
def copyLenOk (n : Nat) : Bool := n % 16 == 0 && decide (16 ≤ n) && decide (n ≤ 2 ^ 36)
/-- FILL length (R329): AUX holds 16-byte units minus 1. -/
def fillLen (h : Hdr) : Nat := 16 * (h.aux.toNat + 1)

/-- The MEM_REDUCE header (R332). -/
structure MrHdr where
  rop   : Nat
  ifmt  : Nat
  mfmt  : Nat
  imode : Bool
  nel   : Nat
  deriving DecidableEq, Repr

def mrHdr (body : List Byte) : MrHdr :=
  let v := leAt body 0 16
  { rop := bits v 3 0, ifmt := bits v 7 4, mfmt := bits v 11 8, imode := bit v 12, nel := bits v 47 32 }

/-! ### Object descriptors (R306) -/

def odValid (w : BitVec 512) : Bool := bit w.toNat 511
def odOwner (w : BitVec 512) : Nat := bits w.toNat 510 506
def odOkind (w : BitVec 512) : Nat := bits w.toNat 505 504
def odSize (w : BitVec 512) : Nat := bits w.toNat 479 448
def odHomea (w : BitVec 512) : Nat := bits w.toNat 447 392
def odDsta (w : BitVec 512) : Nat := bits w.toNat 391 336

end Sys2Proof.Machine
end

