-- ==== Sys2Proof/Machine/Memory.lean ====
section
/-! DEFINITION. The memory path: decoding ADDR (R167 to R169, R305 to R313), reading and writing memory with its errors (R216,
R217), the parts of an operation that are re-issued to another device (R206), and stall counts (R324, R325). -/

namespace Sys2Proof.Machine

/-! ### Physical memory (R17, R304, R309) -/

def physSlice (n : Nat) : Nat := n * 2 ^ 26
def physStack (lfolio : Nat) : Nat := 2 ^ 33 + lfolio * 2 ^ 28
def physT0 (q unit : Nat) : Nat := 2 ^ 40 + q * 2 ^ 23 + unit * 65536

/-- The place of a T0 unit, in the form of a T0 home with the unit number in [47:16] (R306). -/
def t0Place (q unit : Nat) : Nat := 0x80 * 2 ^ 48 + unit * 65536 + q

/-- A home in the T0 form (R306). -/
def isT0 (a : Nat) : Bool := spaceOf a == 0x80

/-- The channel or bank that holds a physical address is retired: its words read uncorrectable (R439). -/
def channelRetired (s : State) (a : Nat) : Bool :=
  if a < 2 ^ 33 then s.dumap.inkch.getLsbD (4 * (a / 2 ^ 29) + Config.lineChannel (a / 128) % 4)
  else if a < 2 ^ 40 then
    (s.dumap.stkch.getD ((a - 2 ^ 33) / 2 ^ 28 / 384) 0).getLsbD (Config.lineChannel (a / 128) % 32)
  else
    let q := (a - 2 ^ 40) / 2 ^ 23
    bankGone s (q / 4) (16 * (q % 4) + Config.unitBank (a / 128) % 16)

/-- A 32-byte word has an uncorrectable error (R216, R439). -/
def deadWord (s : State) (w : Nat) : Bool := decide (w ∈ s.poison) || channelRetired s (32 * w)

/-- The 32-byte words of `n` bytes from `a`. -/
def wordsOf (a n : Nat) : List Nat := if n = 0 then [] else (List.range ((a + n - 1) / 32 + 1 - a / 32)).map (a / 32 + ·)

/-- The first uncorrectable word of a range. -/
def firstDead (s : State) (a n : Nat) : Option Nat := (wordsOf a n).find? (deadWord s)

/-- Reads a range; none when it meets an uncorrectable word (R216). -/
def readPhys (s : State) (a n : Nat) : Option (List Byte) :=
  if (firstDead s a n).isSome then none else some (Memory.readN s.mem a n)

/-- Lines that caches have forwarded, by line number: their bytes stand for memory's, whatever memory holds (R198, R218). -/
abbrev Fwd := List (Nat × List Byte)

def Fwd.has (ov : Fwd) (line : Nat) : Bool := ov.any (·.1 == line)
/-- The byte at an address, where its line was forwarded. -/
def Fwd.byte (ov : Fwd) (a : Nat) : Option Byte := (ov.find? fun x => x.1 == a / 128).map fun x => x.2.getD (a % 128) 0

/-- The first uncorrectable word that a read meets in memory. -/
def firstBad (s : State) (ov : Fwd) (a n : Nat) : Option Nat :=
  if ov.isEmpty then firstDead s a n else (wordsOf a n).find? fun w => deadWord s w && !ov.has (w / 4)

/-- Reads a range under forwarded lines; none when it meets an uncorrectable word of memory (R216, R218). -/
def readOver (s : State) (ov : Fwd) (a n : Nat) : Option (List Byte) :=
  if ov.isEmpty then readPhys s a n
  else if (firstBad s ov a n).isSome then none
  else some ((List.range n).map fun i => (ov.byte (a + i)).getD (Memory.read s.mem (a + i)))

/-- The address, of a run from `addr` that lies at `a`, of the failing word, or of the part of it that the run holds (R216). -/
def wordAddr (a addr w : Nat) : Nat := addr + (max a (32 * w) - a)

/-- Stores what falls in one 32-byte word: a whole word is replaced and its error cleared, part of an uncorrectable word stays
(R217). The result says whether the word was left. -/
def storeWord (s : State) (a : Nat) (bs : List Byte) (w : Nat) : Bool × State :=
  let lo := max a (32 * w)
  let hi := min (a + bs.length) (32 * (w + 1))
  let part := (bs.drop (lo - a)).take (hi - lo)
  if channelRetired s (32 * w) then (true, s)
  else if w ∈ s.poison ∧ hi - lo < 32 then (true, s)
  else (false, { s with mem := Memory.writeN s.mem lo part, poison := s.poison.filter (· != w) })

/-- Stores bytes; the result names the first word left unchanged (R217). -/
def storePhys (s : State) (a : Nat) (bs : List Byte) : Option Nat × State :=
  (wordsOf a bs.length).foldl (fun r w =>
    let x := storeWord r.2 a bs w
    (if x.1 then r.1.or (some w) else r.1, x.2)) (none, s)

/-! ### Slices the device keeps (R3, R189, R284, R290, R340) -/

/-- A slice of an enabled tile. -/
def sliceExists (s : State) (n : Nat) : Bool := decide (n < 128) && tileOk s (n / 8)

/-- The substitute of a default slice on a disabled tile: the same position in the next enabled tile (R3). -/
def substSlice (s : State) (n : Nat) : Nat :=
  match (List.range 16).find? fun k => tileOk s ((n / 8 + k) % 16) with
  | some k => (n / 8 + k) % 16 * 8 + n % 8
  | none => n

/-- DIR_SLICES (R189). -/
def dirSliceList (s : State) : List Nat :=
  let v := s.o (okey 0x6000 1)
  [bits v 7 0, bits v 15 8, bits v 23 16, bits v 31 24].map (substSlice s)

/-- BASIS_SLICE (R340). -/
def basisSliceNo (s : State) : Nat := substSlice s (s.o (okey 0x9000 1))

/-- The queue slice of a tile; 0xFF for a disabled tile (R3, R290). -/
def queueSliceOf (s : State) (t : Nat) : Nat :=
  if !tileOk s t then 0xFF
  else match s.b (okey 0x8000 2) with
    | [] => 8 * t + 6
    | bs => (bs.getD t 0xFF).toNat

/-- SPILL_SLICES: the slices named; 0xFF is unused (R284). -/
def spillSliceList (s : State) : List Nat :=
  let v := s.o (okey 0x8000 3)
  [bits v 7 0, bits v 15 8, bits v 23 16, bits v 31 24].filter (· < 128)

/-- A queue, spill or basis slice. -/
def isWorkSlice (s : State) (n : Nat) : Bool :=
  n ∈ (List.range 16).map (queueSliceOf s) || n ∈ spillSliceList s || n == basisSliceNo s

/-- Some partition's slice map names the slice. -/
def sliceGranted (s : State) (n : Nat) : Bool := s.parts.any fun e => e.2.slices.any fun b => b.toNat == n

/-- Fills `n` bytes with zero, clearing errors (R209, R309, R413). -/
def zeroPhys (s : State) (a n : Nat) : State :=
  { s with mem := Memory.zero s.mem a n, poison := s.poison.filter fun w => !(a ≤ 32 * w && 32 * w < a + n) }

/-! ### Decoding (R167 to R169, R305) -/

/-- What resolving an address range gives: a status, with the tier of the piece that failed if one did, a piece in TRANSIT, or its
runs. -/
inductive Resolved where
  | err (st : BitVec 8) (tier : Option Nat)
  | wait (obj : Nat) (tier : Nat)
  | segs (l : List Seg)
  deriving DecidableEq, Repr

/-- The device slice that a partition slice names (R168, R384). -/
def sliceOf (s : State) (p n : Nat) : Option Nat :=
  let d := ((s.part p).slices.getD n 0xFF).toNat
  if d < 128 then some d else none

/-- The record of a partition's folio number (R168). -/
def findFolio (s : State) (p pf : Nat) : Option (Nat × Folio) :=
  s.folios.find? fun e => e.2.st != .free && folValid e.2.word && folOwner e.2.word == p && folPfolio e.2.word == pf

/-- A domain's objects. -/
def domObj (d i sub : Nat) : Nat := okey (0x6100 + 0x10 * d + i) sub

/-- A domain names a slice or folio of a partition as a window (R220). -/
def hasWindow (s : State) (p space num d : Nat) : Bool :=
  s.o (domObj d 0 1) == p && (List.range 8).any fun w => s.o (domObj d 2 (w + 1)) == space * 2 ^ 24 + num

/-- The domain in use that covers a slice or folio of a partition (R188): ACTIVATE has made sure that no other one does (R201). A
domain that is torn down covers it only where no ACTIVE or HELD one does. -/
def windowDomain (s : State) (p space num : Nat) : Option Nat :=
  ((List.range 32).find? fun d => ((s.domain d).st == .active || (s.domain d).st == .held) && hasWindow s p space num d).or
    ((List.range 32).find? fun d => (s.domain d).st == .tornDown && hasWindow s p space num d)

/-- One run in SPACE 0x00 or 0x01 of a partition (R167 to R169, R205 to R207). -/
def resolveFlat (s : State) (p a len : Nat) (write : Bool) : Except (BitVec 8 × Option Nat) Seg :=
  if spaceOf a = 0 then
    let sl := bits a 32 26
    let off := a % 2 ^ 26
    if bits a 47 33 ≠ 0 then .error (St.formatUnsupported, none)
    else match sliceOf s p sl with
      | none => .error (St.accessDenied, none)
      | some d =>
        if 2 ^ 26 < off + len then .error (St.boundExceeded, none)
        else .ok { loc := .phys (physSlice d + off), len := len, addr := a, tier := 1, dom := windowDomain s p 0 sl }
  else
    let pf := bits a 43 28
    let off := a % 2 ^ 28
    if bits a 47 44 ≠ 0 then .error (St.formatUnsupported, none)
    else match findFolio s p pf with
      | none => .error (St.accessDenied, none)
      | some (i, f) =>
        let t := 2 + folHomek f.word
        if f.st ≠ .granted then .error (St.extentRevoked, some t)
        else if write ∧ folRo f.word then .error (St.accessDenied, none)
        else if 2 ^ 28 < off + len then .error (St.boundExceeded, none)
        else if folHomek f.word = 0 then
          .ok { loc := .phys (physStack (folLfolio f.word) + off), len := len, addr := a, tier := 2,
                dom := windowDomain s p 1 pf, folio := some i }
        else .ok { loc := .remote i (folRfid f.word) (folRaddr f.word + off), len := len, addr := a, tier := t, folio := some i }

/-- Two ranges overlap. -/
def overlap (a n b m : Nat) : Bool := decide (a < b + m) && decide (b < a + n)

/-- Flat ranges of a partition that objects hold: homes, destinations of a move, and pieces elsewhere (R308). -/
def objectRanges (s : State) (p : Nat) : List (Nat × Nat) :=
  s.objects.flatMap fun e =>
    let o := e.2
    if o.st = .free ∨ o.owner.val ≠ p then []
    else
      (if isT0 o.homea.toNat then [] else [(o.homea.toNat, o.size * 65536)]) ++
        (if o.st = .home ∨ isT0 o.dsta.toNat then [] else [(o.dsta.toNat, o.size * 65536)]) ++
        (o.pieces.filter fun x => !isT0 (x.2 - 1)).map fun x => (x.2 - 1, 65536)

/-- A range of SPACE 0x00 or 0x01 touches a valid object's home (R308). -/
def touchesObject (s : State) (p a len : Nat) : Bool := (objectRanges s p).any fun r => overlap a len r.1 r.2

/-- Where piece `i` of an object lives (R313, R317). -/
def piecePlace (o : Obj) (i : Nat) : Nat :=
  match Sparse.get 0 o.pieces i with
  | 0 => if isT0 o.homea.toNat then t0Place (o.homea.toNat % 64) (o.unitsH.getD i 0) else o.homea.toNat + 65536 * i
  | n + 1 => n

/-- Tier of a place, by the owner's records. -/
def tierOfPlace (s : State) (p place : Nat) : Nat :=
  if isT0 place then 0
  else if spaceOf place = 0 then 1
  else match findFolio s p (bits place 43 28) with
    | some (_, f) => 2 + folHomek f.word
    | none => 2

/-- HTIER of an object (R306). -/
def homeTier (s : State) (o : Obj) : Nat := tierOfPlace s o.owner.val o.homea.toNat

/-- The running move of an object. -/
def runningMove (s : State) (n : Nat) : Option Move := s.moves.find? fun m => m.obj == n

/-- The piece is being copied now (R313). -/
def inTransit (s : State) (n i : Nat) : Bool := s.moves.any fun m => m.obj == n && m.transit && m.piece == i

/-- One run at a place of an object's owner. -/
def resolvePlace (s : State) (p place off len : Nat) (write : Bool) : Except (BitVec 8 × Option Nat) Seg :=
  if isT0 place then
    let q := place % 64
    if !quillOk s q then .error (St.replayExhausted, some 0)
    else .ok { loc := .phys (physT0 q (bits place 47 16) + off), len := len, addr := place, tier := 0 }
  else resolveFlat s p (place + off) len write

/-- Splits a range at multiples of `u`: (address, length) of each part. -/
def splitAt (a len u : Nat) : List (Nat × Nat) :=
  if len = 0 then []
  else (List.range ((a % u + len + u - 1) / u)).map fun i =>
    let lo := max a ((a / u + i) * u)
    (lo, min (a + len) ((a / u + i + 1) * u) - lo)

/-- ADDR in SPACE 0x02 of an offset into object `n` (R305). -/
def objAddr (n off : Nat) : Nat := 2 * 2 ^ 48 + n * 2 ^ 34 + off

/-- One run of an object, within piece `i`: in quill store its bytes are named by SPACE 0x02. -/
def resolvePiece (s : State) (n : Nat) (o : Obj) (off len : Nat) (write : Bool) : Except (BitVec 8 × Option Nat) Seg :=
  let i := off / 65536
  match resolvePlace s o.owner.val (piecePlace o i) (off % 65536) len write with
  | .error e => .error e
  | .ok g => .ok { g with obj := some (n, i), addr := if g.tier = 0 then objAddr n off else g.addr }

/-- The runs of a range of an object, piece by piece (R313); with `hold`, a piece in TRANSIT makes it wait. -/
def resolvePieces (s : State) (n : Nat) (o : Obj) (write hold : Bool) : List (Nat × Nat) → Resolved
  | [] => .segs []
  | (off, len) :: rest =>
    let t := tierOfPlace s o.owner.val (piecePlace o (off / 65536))
    if hold ∧ inTransit s n (off / 65536) then .wait n t
    else match resolvePiece s n o off len write with
      | .error (st, _) => .err st (some t)
      | .ok g =>
        match resolvePieces s n o write hold rest with
        | .segs l => .segs (g :: l)
        | r => r

/-- Why a range of SPACE 0x02 is refused as it is decoded (R305). -/
def objectRefusal (s : State) (p a len : Nat) : Option (BitVec 8) :=
  let o := s.object (bits a 47 34)
  if o.st = .free ∨ o.owner.val ≠ p then some St.accessDenied
  else if o.size * 65536 < bits a 33 0 + len then some St.boundExceeded
  else none

/-- A range of SPACE 0x02 (R305). -/
def resolveObject (s : State) (p a len : Nat) (write : Bool) (hold : Bool := true) : Resolved :=
  let n := bits a 47 34
  match objectRefusal s p a len with
  | some st => .err st none
  | none => resolvePieces s n (s.object n) write hold (splitAt (bits a 33 0) len 65536)

/-- A range of one partition in SPACE 0x00, 0x01 or 0x02. -/
def resolveOwn (s : State) (p a len : Nat) (write : Bool) : Resolved :=
  match spaceOf a with
  | 0 | 1 =>
    match resolveFlat s p a len write with
    | .error (st, _) => .err st none
    | .ok g => if touchesObject s p a len then .err St.accessDenied none else .segs [g]
  | 2 => resolveObject s p a len write
  | _ => .err St.formatUnsupported none

/-- Flat runs of a range that may cross slices or folios, as the content of a region may (R212). -/
def resolveFlats (s : State) (p : Nat) (write : Bool) : List (Nat × Nat) → Resolved
  | [] => .segs []
  | (a, len) :: rest =>
    match resolveFlat s p a len write with
    | .error (st, _) => .err st none
    | .ok g =>
      match resolveFlats s p write rest with
      | .segs l => .segs (g :: l)
      | r => r

/-- The content of a region: a range in the owner's space (R211, R214). -/
def resolveContent (s : State) (p a len : Nat) (write : Bool) (hold : Bool := true) : Resolved :=
  match spaceOf a with
  | 0 => resolveFlats s p write (splitAt a len (2 ^ 26))
  | 1 => resolveFlats s p write (splitAt a len (2 ^ 28))
  | 2 => resolveObject s p a len write hold
  | _ => .err St.formatUnsupported none

/-- The partition may read a region (R214); a reader's requests are refused while the owner is being removed (R410 step 2). -/
def regionReadable (s : State) (r : Region) (p : Nat) : Bool :=
  r.owner.val == p || (bit r.readers.toNat p && !removing s r.owner.val)

/-! ### What a request reads and writes, as decoded -/

/-- The runs a resolved range gives. -/
def Resolved.want : Resolved → Except (BitVec 8) Want
  | .err st _ => .error st
  | .segs l => .ok (.runs l)
  | .wait _ _ => .ok (.runs [])

/-- A range of an object, whose pieces are resolved when the request reaches them (R313). -/
def decodeObject (s : State) (p a len : Nat) : Except (BitVec 8) Want :=
  match objectRefusal s p a len with
  | some st => .error st
  | none => .ok (.pieces p a len)

/-- Decodes a range of a request's own partition (R167 to R169). -/
def decodeOwn (s : State) (p a len : Nat) (write : Bool) : Except (BitVec 8) Want :=
  if spaceOf a = 2 then decodeObject s p a len else (resolveOwn s p a len write).want

/-- Decodes a versioned load's range: BASE is taken here, once (R214). -/
def decodeVersion (s : State) (p a len : Nat) : Except (BitVec 8) Want :=
  match s.region (regionIx a) with
  | none => .error St.accessDenied
  | some r =>
    if !regionReadable s r p then .error St.accessDenied
    else if r.len.toNat < regionOff a + len then .error St.boundExceeded
    else
      let b := r.base.toNat + regionOff a
      if spaceOf b = 2 then decodeObject s r.owner.val b len else (resolveContent s r.owner.val b len false).want

/-- The runs of a decoded range. -/
def resolveWant (s : State) (write : Bool) : Want → Resolved
  | .runs l => .segs l
  | .pieces p a len => resolveObject s p a len write

/-- The runs of decoded ranges, in order. -/
def resolveWants (s : State) (write : Bool) : List Want → Resolved
  | [] => .segs []
  | w :: ws =>
    match resolveWant s write w with
    | .segs l =>
      match resolveWants s write ws with
      | .segs l' => .segs (l ++ l')
      | r => r
    | r => r

/-- Runs of a range that are fixed. -/
def Want.fixed : Want → List Seg
  | .runs l => l
  | .pieces _ _ _ => []

/-- The region record (R211). -/
def regionRecord (r : Region) : List Byte :=
  leBytes 8 r.version.toNat ++ leBytes 8 r.base.toNat ++ leBytes 8 r.len.toNat ++ leBytes 8 r.fid.toNat

/-! ### Completing memory requests (R216, R324, R325) -/

/-- A stall counter (R335). -/
def stallObj (p t c : Nat) : Nat := okey (0x5500 + 8 * p + t) c

/-- Counts a stall; the first cause 6 in 1 ms per tier raises TIER_STALL (R324, R325). -/
def countStall (s : State) (p t c : Nat) : State :=
  let s := s.bump (stallObj p t c) 1
  if c = 6 then raiseLimited s ms t 0x0605 p [(1, p), (1, t)] else s

/-- Statuses of cause 6 (R324). -/
def isTierFailure (st : BitVec 8) : Bool := st == St.tgtDead || st == St.extentRevoked || st == St.uncorrectable

/-- SRCT of the schedule that started an object's move. -/
def schedSrct (o : Obj) : Option Nat := o.sched.map (·.2)

/-- Causes 1 to 4 that a request meets at a piece, with the tier counted (R324). -/
def pieceStalls (s : State) (n i : Nat) : List (Nat × Nat) :=
  let o := s.object n
  let mv := runningMove s n
  (if o.pending then [(1, homeTier s o)] else []) ++
    (match mv, schedSrct o with
     | some m, some t => if m.piece ≤ i ∧ ¬ inTransit s n i then [(2, t)] else []
     | _, _ => []) ++
    (if inTransit s n i then [(3, tierOfPlace s o.owner.val (piecePlace o i))] else []) ++
    (match schedSrct o with
     | some t => if s.moveQ.any fun m => m.obj == n then [(4, t)] else []
     | none => [])

/-- The lowest-numbered stall of a list. -/
def lowestStall (l : List (Nat × Nat)) : Option (Nat × Nat) :=
  l.foldl (fun b x => match b with | none => some x | some y => if x.1 < y.1 then some x else some y) none

/-- Stalls that a decoded range meets at its pieces. -/
def wantStalls (s : State) : Want → List (Nat × Nat)
  | .runs _ => []
  | .pieces _ a len => (splitAt (bits a 33 0) len 65536).flatMap fun x => pieceStalls s (bits a 47 34) (x.1 / 65536)

/-- Counts a request under the lowest of causes 1 to 4 that applies to the objects it reaches; says whether it was counted. -/
def stallOnArrival (s : State) (p : Nat) (ws : List Want) : Bool × State :=
  match lowestStall (ws.flatMap (wantStalls s)) with
  | some (c, t) => (true, countStall s p t c)
  | none => (false, s)

/-- Active nibs of a quill: eight of its nine, less those retired beyond the spare, less those quarantined (R434, R439). -/
def activeNibs (s : State) (q : Nat) : Nat :=
  let r := s.dumap.nibs.getD q 0
  let retired := ((List.range 9).filter r.getLsbD).length
  let used := if (List.range 8).any r.getLsbD then 9 else 8
  let quar := ((List.range used).filter fun n => (s.unit (2 ^ 24 + 16 * q + n)).st == 1).length
  min 8 (9 - retired) - quar

/-- A quill with fewer than 8 active nibs marks what it completes DEGRADED (R440). -/
def quillDegraded (s : State) (q : Nat) : Bool := decide (activeNibs s q < 8)

/-- What a memory operation gives back. -/
structure MemRes where
  st    : BitVec 8
  cflg  : BitVec 8 := 0
  cdat  : BitVec 16 := 0
  /-- Content of a CMPL_DATA. -/
  data  : Option (List Byte) := none
  /-- The tier of the piece that failed, where one did. -/
  piece : Option Nat := none
  deriving DecidableEq, Repr, Inhabited

/-- Completes a C3 or C7 memory request: cause 6, then the completion, by the completed-operation record where R430 says "once". -/
def finishMem (s : State) (m : Msg) (counted : Bool) (r : MemRes) : State :=
  let h := m.hdr
  let s := match r.piece with
    | some t => if ¬ counted ∧ isTierFailure r.st then countStall s h.part.toNat t 6 else s
    | none => s
  if h.op ∈ onceOps then
    finishOnce s ingMemory h r.st r.cflg r.cdat
      (if h.op = Op.atomic ∧ r.st = St.ok then (r.data.map fun d => BitVec.ofNat 64 (leAt d 0 8)) else none)
  else match r.data with
    | some d => if r.st = St.ok then completeData s ingMemory h r.cflg r.cdat d else complete s ingMemory h r.st r.cflg r.cdat
    | none => complete s ingMemory h r.st r.cflg r.cdat

/-- Raises MEM_UNCORRECTABLE with the failing address (R216, R598). -/
def raiseUncorr (s : State) (p a : Nat) : State := raise s 0x0302 p [(1, p), (8, a)]

/-! ### Re-issue to another device (R206, R328) -/

/-- The quill that originates for a tile: its first enabled one, else the first of the device. -/
def servingQuill (s : State) (t : Nat) : Nat :=
  match ((List.range 4).map (4 * t + ·)).find? (quillOk s) with
  | some q => q
  | none => (enabledQuills s).getD 0 0

/-- A C3 request of this device: header fields the caller does not give (R70). DESIGN CHOICE (notes/assumptions/8.md): the OPID is
a running count. -/
def ownHdr (s : State) (op : BitVec 8) (dst : Fid) (part : BitVec 5) (addr aux : Nat) : Hdr × State :=
  let n := s.nextSerial
  ({ ver := 1, cls := 3, ep := origEp s, ks := 0, op := op, flg := 0, plen := 0, dst := dst, src := devFid s, part := part,
     val := false, hop := 0, tag := freeTag s n.1, mid := 0, opid := BitVec.ofNat 40 n.1, addr := BitVec.ofNat 56 addr,
     aux := BitVec.ofNat 32 aux }, n.2)

/-- Sends a C3 request of a quill and names it. -/
def sendOwn (s : State) (q : Nat) (op : BitVec 8) (dst : Fid) (part : BitVec 5) (addr aux : Nat) (body : List Byte) :
    ReqKey × State :=
  let x := ownHdr s op dst part addr aux
  (hdrKey x.1, originate x.2 (ingQuill q) .unit (mkRequest x.1 body))

/-- The quill that serves a MEM_REDUCE (R333). -/
def mrQuill (s : State) (a : Nat) : Nat :=
  let qs := enabledQuills s
  qs.getD (bits a 55 16 % qs.length) 0

/-- The quill that originates the parts of a request (R206, R333). -/
def quillFor (s : State) (h : Hdr) : Nat :=
  if h.op = Op.memReduce then mrQuill s h.addr.toNat else servingQuill s (crcTile s h.src h.opid)

/-- `len` bytes of a run from its byte `off`. -/
def Seg.part (g : Seg) (off len : Nat) : Seg :=
  { g with loc := match g.loc with | .phys a => .phys (a + off) | .remote f fid ra => .remote f fid (ra + off)
           len := len, addr := g.addr + off }

/-- Reads one run for quill `q` on behalf of a partition: here, or by a LOAD to its home of the 16-byte units that hold it (R169,
R206). -/
def readAt (s : State) (ov : Fwd) (q : Nat) (p : BitVec 5) (g : Seg) : Sub × State :=
  match g.loc with
  | .phys a =>
    match readOver s ov a g.len with
    | some d => ({ key := default, seg := g, done := true, data := d }, s)
    | none =>
      ({ key := default, seg := g, done := true, st := St.uncorrectable },
        raiseUncorr s p.toNat (wordAddr a g.addr ((firstBad s ov a g.len).getD 0)))
  | .remote _ fid ra =>
    let x := sendOwn s q Op.load fid p (ra - ra % 16) (roundUp (ra % 16 + g.len) 16 / 16 - 1) []
    ({ key := x.1, seg := g, skip := ra % 16 }, x.2)

/-- Writes one run for quill `q`: here, or by a STORE to its home (R206). A run that `storeRuns` left within one 16-byte unit is
stored once a LOAD has brought the unit (R169). -/
def writeAt (s : State) (q : Nat) (p : BitVec 5) (g : Seg) (bs : List Byte) : Sub × State :=
  match g.loc with
  | .phys a =>
    let r := storePhys s a bs
    match r.1 with
    | none => ({ key := default, seg := g, done := true }, r.2)
    | some w =>
      ({ key := default, seg := g, done := true, st := St.uncorrectable }, raiseUncorr r.2 p.toNat (wordAddr a g.addr w))
  | .remote _ fid ra =>
    if ra % 16 = 0 ∧ g.len % 16 = 0 then
      let x := sendOwn s q Op.store fid p ra 0 bs
      ({ key := x.1, seg := g }, x.2)
    else
      let x := sendOwn s q Op.load fid p (ra - ra % 16) 0 []
      ({ key := x.1, seg := g, put := some (q, bs) }, x.2)

/-- One run of a request's read or write. -/
def readSub (s : State) (ov : Fwd) (m : Msg) (g : Seg) : Sub × State := readAt s ov (quillFor s m.hdr) m.hdr.part g
def writeSub (s : State) (m : Msg) (g : Seg) (bs : List Byte) : Sub × State := writeAt s (quillFor s m.hdr) m.hdr.part g bs

/-- Sends a request to its remote home as it stands, at RADDR plus the offset: ATOMIC and FILL (R206). -/
def forwardSub (s : State) (m : Msg) (g : Seg) (fid : Fid) (ra aux : Nat) (body : List Byte) : Sub × State :=
  let x := sendOwn s (quillFor s m.hdr) m.hdr.op fid m.hdr.part ra aux body
  ({ key := x.1, seg := g }, x.2)

/-- Splits a remote run so that no LOAD is longer than 1 MiB (R170). -/
def loadRuns (g : Seg) : List Seg :=
  match g.loc with
  | .phys _ => [g]
  | .remote _ _ ra => (splitAt (ra % 16) g.len (2 ^ 20)).map fun x => g.part (x.1 - ra % 16) x.2

/-- Splits a remote run into whole 16-byte units, of which a STORE takes at most 8 MiB (R171), and the parts of units at its ends. -/
def storeRuns (g : Seg) : List Seg :=
  match g.loc with
  | .phys _ => [g]
  | .remote _ _ ra =>
    let h := if ra % 16 = 0 then 0 else min g.len (16 - ra % 16)
    let m := (g.len - h) / 16 * 16
    (if h = 0 then [] else [g.part 0 h]) ++ (splitAt 0 m (2 ^ 23)).map (fun x => g.part (h + x.1) x.2) ++
      (if h + m = g.len then [] else [g.part (h + m) (g.len - h - m)])

/-- Makes an access to each run in turn, given its place in the range. -/
def overRuns (f : State → Nat → Seg → Sub × State) (s : State) (gs : List Seg) : List Sub × State :=
  let r := gs.foldl (fun (a : List Sub × State × Nat) g =>
    let x := f a.2.1 a.2.2 g
    (a.1 ++ [x.1], x.2, a.2.2 + g.len)) ([], s, 0)
  (r.1, r.2.1)

/-- Makes every read of a list of runs. -/
def readSubs (s : State) (ov : Fwd) (m : Msg) (gs : List Seg) : List Sub × State :=
  overRuns (fun s _ g => readSub s ov m g) s (gs.flatMap loadRuns)

/-- Writes `bs` over a list of runs. -/
def writeSubs (s : State) (m : Msg) (gs : List Seg) (bs : List Byte) : List Sub × State :=
  overRuns (fun s off g => writeSub s m g (slice bs off g.len)) s (gs.flatMap storeRuns)

/-- The first part that failed. -/
def failedSub (subs : List Sub) : Option Sub := subs.find? fun x => x.st != St.ok

/-- The bytes the parts read, in order. -/
def subsData (subs : List Sub) : List Byte := subs.flatMap (·.data)

/-- The completion of a part's access has come back (R206): its status and bytes, or for part of a 16-byte unit that has arrived, its
STORE. -/
def partDone (s : State) (x : Sub) (st cflg : BitVec 8) (cdat : BitVec 16) (data : List Byte) : Sub × State :=
  let ended : Sub := { x with done := true, st := st, cflg := x.cflg ||| cflg, cdat := cdat, put := none,
                              data := (data.drop x.skip).take x.seg.len }
  match x.put, x.seg.loc with
  | some (q, bs), .remote _ fid ra =>
    if st = St.ok then
      let u := (padTo 16 data).take 16
      let y := sendOwn s q Op.store fid x.key.part (ra - ra % 16) 0 (u.take (ra % 16) ++ bs ++ u.drop (ra % 16 + bs.length))
      ({ x with key := y.1, put := none }, y.2)
    else (ended, s)
  | _, _ => (ended, s)

/-! ### Requests in service (R173, R207, R314, R333) -/

/-- A request of which parts are out, as a job. -/
def Reissue.job (r : Reissue) : MemReq :=
  { msg := r.orig, reads := [.runs (r.subs.map (·.seg))], writes := r.writes.getD [], start := r.start, counted := r.counted }

/-- C3 and C7 requests decoded and not completed. -/
def openJobs (s : State) : List MemReq :=
  s.reissues.map Reissue.job ++ (s.txns.filterMap (·.job)).eraseDups ++ s.cohWait.filterMap (·.job) ++ s.transitWait.map (·.job)

/-- The runs that a job has been resolved to. -/
def MemReq.runs (j : MemReq) : List Seg := (j.reads ++ j.writes).flatMap Want.fixed ++ j.got.map (·.seg)

/-- The requests decoded against folio `i` and not completed (R208), each with whether a stall of it has been counted. -/
def folioJobs (s : State) (i : Nat) : List (Msg × Bool) :=
  (((openJobs s).filter fun j => j.runs.any fun g => g.folio == some i).map fun j => (j.msg, j.counted)).eraseDups

/-- Requests in flight against a folio (R208). -/
def folioInflight (s : State) (i : Nat) : List Msg := (folioJobs s i).map (·.1)

/-- Requests of C3, C5 and C7 that this device is performing. A PUBLISH is performed once its compare-and-set is done (R213), a
collective's contribution once it has been accepted. -/
def openRequests (s : State) : List Msg :=
  (openJobs s).map (·.msg) ++
    (s.quills.flatMap fun e =>
      ((e.2.jobs.flatMap (·.reqs)) ++ (e.2.wins.flatMap (·.reqs)) ++ e.2.runs.flatMap (·.reqs)).map (·.msg)) ++
    s.basisJobs.map (·.msg) ++ s.encJobs.map (·.msg) ++ s.expResps.map (·.msg) ++ s.ctxs.filterMap (fun e => e.2.opener) ++
    (s.moves ++ s.moveQ).filterMap (·.req)

/-- An earlier request must be performed before `m`: both carry ORD and come from one SRC, on C3, C5 or C7 (R173), or both are
MEM_REDUCE messages of one block (R333). A copy of `m` itself holds nothing back. -/
def holdsBack (m e : Msg) : Bool :=
  hdrKey e.hdr != hdrKey m.hdr &&
    ((m.hdr.ord && e.hdr.ord && e.hdr.src == m.hdr.src && e.hdr.cls ∈ [3#3, 5#3, 7#3]) ||
      (m.hdr.op == Op.memReduce && e.hdr.op == Op.memReduce && e.hdr.part == m.hdr.part &&
        bits e.hdr.addr.toNat 55 16 == bits m.hdr.addr.toNat 55 16))

/-- A request waits, delivered, for an earlier one that is being performed or was delivered before it (R173, R333). Requests in
service that `inOrder` names hold it back no longer: their unit keeps the order itself. -/
def mustWaitBut (s : State) (m : Msg) (inOrder : Msg → Bool) : Bool :=
  ((openRequests s).any fun e => holdsBack m e && !inOrder e) ||
    (s.delivered.takeWhile fun d => d.msg != m).any fun d => holdsBack m d.msg

def mustWait (s : State) (m : Msg) : Bool := mustWaitBut s m fun _ => false

/-- Performs a request, or leaves it delivered while it must wait. -/
def inTurn (s : State) (m : Msg) (perform : State → State) : State := if mustWait s m then s else perform s

/-! ### Reads and writes of units of this device -/

/-- Every part of every unit's own accesses, but for the moves' (R206, R208). -/
def mapSubs (f : Sub → Sub) (s : State) : State :=
  let fetch (x : Fetch) : Fetch := { x with subs := x.subs.map f }
  { s with
    quills := s.quills.map fun e =>
      (e.1, { e.2 with runs := e.2.runs.map fun r => { r with ops := r.ops.map fun o => { o with subs := o.subs.map f } } })
    basisJobs := s.basisJobs.map fun j => { j with reads := j.reads.map fetch, writes := j.writes.map f }
    encJobs := s.encJobs.map fun j => { j with reads := j.reads.map fetch, writes := j.writes.map f }
    expanders := s.expanders.map fun e => (e.1, e.2.map fun b => { b with read := b.read.map fetch })
    expResps := s.expResps.map fun r => { r with heads := r.heads.map fetch } }

def fetchSubs (xs : List Fetch) : List Sub := xs.flatMap (·.subs)

/-- The parts of one request served by a unit of this device, request by request. -/
def unitSubs (s : State) : List (List Sub) :=
  (s.quills.flatMap fun e => e.2.runs.flatMap fun r => r.reqs.map fun _ => r.ops.flatMap (·.subs)) ++
    s.basisJobs.map (fun j => fetchSubs j.reads ++ j.writes) ++ s.encJobs.map (fun j => fetchSubs j.reads ++ j.writes) ++
    (s.expanders.flatMap fun e => e.2.map fun b => fetchSubs b.read.toList) ++ s.expResps.map fun r => fetchSubs r.heads

/-- The unit's access to another device that has this key. -/
def findUnitSub (s : State) (k : ReqKey) : Option Sub := (unitSubs s).flatten.find? fun x => x.key == k && !x.done

def isUnitSub (s : State) (k : ReqKey) : Bool := (findUnitSub s k).isSome

/-- The completion of a unit's access to another device. -/
def unitSubDone (s : State) (k : ReqKey) (st : BitVec 8) (data : List Byte) : State :=
  match findUnitSub s k with
  | some x =>
    let y := partDone s x st 0 0 data
    mapSubs (fun z => if z.key = k ∧ ¬ z.done then y.1 else z) y.2
  | none => s

/-- A range that R167 can address at all. -/
def spanOk (a len : Nat) : Bool :=
  match spaceOf a with
  | 0 => decide (a % 2 ^ 48 + len ≤ 2 ^ 33)
  | 1 => decide (a % 2 ^ 48 + len ≤ 2 ^ 44)
  | 2 => decide (a % 2 ^ 34 + len ≤ 2 ^ 34)
  | _ => false

/-- The runs of a range of a partition that may cross slices and folios. -/
def resolveRange (s : State) (p a len : Nat) (write : Bool) : Resolved :=
  if ¬ spanOk a len ∨ (spaceOf a < 2 ∧ touchesObject s p a len) then .err St.accessDenied none
  else resolveContent s p a len write

/-- The partition may read, or write, a range. -/
def rangeOk (s : State) (p a len : Nat) (write : Bool) : Bool :=
  match resolveRange s p a len write with | .err _ _ => false | _ => true

/-- A part that failed before it began. -/
def deadSub (a len tier : Nat) (st : BitVec 8) : Sub :=
  { key := default, seg := { loc := .phys 0, len := len, addr := a, tier := tier }, done := true, st := st }

/-- A read of a partition no longer waits for a piece: its wait is added to STALL_WAIT (R324). -/
def endFetchWait (s : State) (p : Nat) (x : Fetch) : State :=
  if x.wait then s.bump (stallObj p x.tier 0x10) (10 * (s.time - x.since)) else s

/-- Starts a read of a range for quill `q` on behalf of partition `p`, or starts it again where it waited. -/
def startFetch (s : State) (q p : Nat) (x : Fetch) : Fetch × State :=
  match resolveRange s p x.addr x.len false with
  | .err st tier => ({ x with wait := false, subs := [deadSub x.addr x.len (tier.getD 0) st] }, endFetchWait s p x)
  | .wait _ t => (if x.wait then x else { x with wait := true, since := s.time, tier := t, subs := [] }, s)
  | .segs gs =>
    let r := overRuns (fun s _ g => readAt s [] q (BitVec.ofNat 5 p) g) (endFetchWait s p x) (gs.flatMap loadRuns)
    ({ x with wait := false, subs := r.1 }, r.2)

/-- Starts a list of reads; a read already started and not waiting stays as it is. -/
def startFetches (s : State) (q p : Nat) (xs : List Fetch) : List Fetch × State :=
  xs.foldl (fun a x =>
    if x.wait ∨ x.subs.isEmpty then let y := startFetch a.2 q p x; (a.1 ++ [y.1], y.2) else (a.1 ++ [x], a.2)) ([], s)

def Fetch.done (x : Fetch) : Bool := !x.wait && x.subs.all (·.done)
/-- The first part of a list of reads that failed. -/
def fetchFailed (xs : List Fetch) : Option Sub := failedSub (fetchSubs xs)
def Fetch.data (x : Fetch) : List Byte := subsData x.subs

/-- Writes a range for quill `q` on behalf of partition `p`. A range that cannot be written answers one failed part. -/
def writeRange (s : State) (q p a : Nat) (bs : List Byte) : List Sub × State :=
  match resolveRange s p a bs.length true with
  | .segs gs => overRuns (fun s off g => writeAt s q (BitVec.ofNat 5 p) g (slice bs off g.len)) s (gs.flatMap storeRuns)
  | .err st _ => ([deadSub a bs.length 0 st], s)
  | .wait _ _ => ([], s)

/-- A write of the range would meet a piece in TRANSIT (R313). -/
def writeWaits (s : State) (p a len : Nat) : Bool := match resolveRange s p a len true with | .wait _ _ => true | _ => false

/-- Counts the stall of a request of a unit whose ranges reach objects, under one cause (R324, R325). -/
def stallRanges (s : State) (p : Nat) (rs : List (Nat × Nat)) : State :=
  (stallOnArrival s p ((rs.filter fun r => spaceOf r.1 == 2).map fun r => .pieces p r.1 r.2)).2

end Sys2Proof.Machine
end

