-- ==== Sys2Proof/Machine/Pool.lean ====
section
/-! DEFINITION. The escalation pool of a quill (R229, R254, R283), and the counts that exact accumulation makes (R231, R261,
R262). -/

namespace Sys2Proof.Machine

/-- The quill a CTX names (R242). -/
def ctxQuill (c : Nat) : Nat := c / 1024

/-- Open chunks of a quill. -/
def quillChunks (s : State) (q : Nat) : List Chunk := s.chunks.filter fun c => ctxQuill c.ctx == q

/-- Free entries of a quill's escalation pool (R229): those that neither a chunk's element nor a pass holds. -/
def poolFree (s : State) (q : Nat) : Nat :=
  16384 - ((s.quill q).pool.length + ((s.quill q).runs.map fun r => r.esc.getD 0).foldl (· + ·) 0)

/-- The order of the quill's oldest open chunk, a started pass counting as one (R254, R283). -/
def oldestSeq (s : State) (q : Nat) : Option Nat :=
  ((quillChunks s q).map (·.seq) ++ ((s.quill q).runs.filter (·.stage != .idle)).map (·.seq)).foldl
    (fun (a : Option Nat) x => match a with | none => some x | some y => some (min x y)) none

/-- Free entries that the work of order `seq` may take now: all of them for the oldest, for others those above 1,024 (R254). -/
def escLimit (s : State) (q : Nat) (seq : Option Nat) : Nat :=
  if seq.isSome ∧ oldestSeq s q = seq then poolFree s q else poolFree s q - 1024

/-- Raises ESC_POOL_RESERVE when free entries fall from `before` to 1,024 or less (R262). -/
def noteReserve (s : State) (q before after : Nat) : State :=
  if 1024 < before ∧ after ≤ 1024 then raiseLimited s ms q 0x0401 (quillOwner s q) [(1, q)] else s

/-- Counts `n` escalations of a quill's own work, of order `seq` among its chunks. What the pool may not give them uses the overflow
area (R283). Gives also the entries taken. -/
def chargeEsc (s : State) (q : Nat) (seq : Option Nat) (n : Nat) : Nat × State :=
  if n = 0 then (0, s)
  else
    let taken := min n (escLimit s q seq)
    (taken, noteReserve ((s.bump (quillObj q 4) n).bump (gatherObj q 0xB) (n - taken)) q (poolFree s q) (poolFree s q - taken))

/-- Counts what a result vector counts (R261). -/
def countVec (s : State) (v : VecOut) : State := (s.bump (okey 0x7000 6) v.nNan).bump (okey 0x7000 7) v.nOver

/-- Counts terms that quill `q` rounded toward zero; the event is limited device-wide (R231, R262, R597). -/
def countTrunc (s : State) (q n : Nat) : State :=
  if n = 0 then s else raiseLimited (s.bump (okey 0x7000 4) n) ms 0 0x0405 deviceWide [(1, q)]

end Sys2Proof.Machine
end

