-- ==== Sys2Proof/Machine/MemOps.lean ====
section
/-! DEFINITION. What the C3 and C7 memory opcodes do (R170 to R177, R212 to R215, R329 to R334): which runs they read and
write, and what they make of them. -/

namespace Sys2Proof.Machine

/-- What an operation reads and writes, or why it goes no further. -/
inductive Plan where
  | err (st : BitVec 8)
  | go (reads writes : List Want)
  deriving DecidableEq, Repr

/-- A plan that only reads, or only writes, one range. -/
def Plan.reading : Except (BitVec 8) Want → Plan
  | .error st => .err st
  | .ok w => .go [w] []
def Plan.writing : Except (BitVec 8) Want → Plan
  | .error st => .err st
  | .ok w => .go [] [w]

/-- Two plans, both of which must hold; the first that fails gives the status. -/
def Plan.join (a b : Plan) : Plan :=
  match a, b with
  | .go r w, .go r' w' => .go (r ++ r') (w ++ w')
  | .go _ _, p => p
  | p, _ => p

/-- A check that completes with a status. -/
def Plan.guard (ok : Bool) (st : BitVec 8) (p : Plan) : Plan := if ok then p else .err st

/-- The formats, elements and bytes of a MEM_REDUCE, when its header and payload are well formed (R332, R240). -/
structure MrOp where
  rop  : Rop
  ifmt : Fmt
  mfmt : Fmt
  sat  : Bool
  nel  : Nat
  deriving DecidableEq, Repr

def mrOp (m : Msg) : Option MrOp :=
  let h := mrHdr m.body
  match Rop.ofCode h.rop, Fmt.ofCode h.ifmt, Fmt.ofCode h.mfmt with
  | some op, some i, some f =>
    if (op == .sum || op == .max || op == .min) && combAllowed [i, f] op f && h.nel % 512 == 0 && decide (512 ≤ h.nel) &&
        decide (h.nel ≤ 16384) && m.body.length == 16 + roundUp (i.vecBytes h.nel) 16 then
      some { rop := op, ifmt := i, mfmt := f, sat := h.imode, nel := h.nel }
    else none
  | _, _, _ => none

/-- Bytes of the memory range of a MEM_REDUCE. -/
def mrLen (o : MrOp) : Nat := o.mfmt.vecBytes o.nel

/-- Decodes a memory request (R168 to R170, R174, R176, R214, R329 to R332). -/
def planOf (s : State) (m : Msg) : Plan :=
  let h := m.hdr
  let p := h.part.toNat
  let a := h.addr.toNat
  if h.op = Op.load ∨ h.op = Op.bulkLoad then
    Plan.guard (a % 16 == 0 && (spaceOf a == 3 || !loadVrec h)) St.formatUnsupported <|
      if spaceOf a = 3 then (if loadVrec h then .go [] [] else .reading (decodeVersion s p a (loadLen h)))
      else .reading (decodeOwn s p a (loadLen h) false)
  else if h.op = Op.store ∨ h.op = Op.bulkStore then
    Plan.guard (a % 16 == 0) St.formatUnsupported (.writing (decodeOwn s p a m.body.length true))
  else if h.op = Op.atomic then
    Plan.guard (atomicDefined h && m.body.length == 16 && a % atomicWidth h == 0) St.formatUnsupported
      (.writing (decodeOwn s p a (atomicWidth h) true))
  else if h.op = Op.fill then
    Plan.guard (m.body.length == 16) St.formatUnsupported (.writing (decodeOwn s p a (fillLen h) true))
  else if h.op = Op.copy then
    Plan.guard (m.body.length == 16 && copyLenOk (copyLen m.body)) St.formatUnsupported <|
      Plan.join (.writing (decodeOwn s p a (copyLen m.body) true))
        (.reading (decodeOwn s p (copySrc m.body) (copyLen m.body) false))
  else if h.op = Op.compare then
    Plan.guard (m.body.length == 32 && copyLenOk (copyLen m.body)) St.formatUnsupported <|
      Plan.join (.reading (decodeOwn s p a (copyLen m.body) false))
        (if cmpMode m.body then .go [] [] else .reading (decodeOwn s p (copySrc m.body) (copyLen m.body) false))
  else if h.op = Op.memReduce then
    match mrOp m with
    | none => .err St.formatUnsupported
    | some o =>
      Plan.guard (decide (a % 65536 + mrLen o ≤ 65536)) St.boundExceeded <|
        Plan.join (.reading (decodeOwn s p a (mrLen o) false)) (.writing (decodeOwn s p a (mrLen o) true))
  else .err St.formatUnsupported

/-! ### Arithmetic of MEM_REDUCE (R332, R241) -/

/-- One element: mem and x combined exactly; whether a term was rounded toward zero, and whether the element escalated. -/
def mrElem (o : MrOp) (v x : Val) : Res × Bool × Bool :=
  let a := v.toTerm
  let b := x.toTerm
  let e := (({} : Sum).take o.rop a.1).take o.rop b.1
  (e.result o.rop 1, a.2 || b.2, e.esc)

/-- The bytes written, CFLG, and the counts made (R332): escalations take the serving quill's pool while the elements are combined
(R229, R241). -/
def mrCompute (s : State) (m : Msg) (o : MrOp) (memBytes : List Byte) : List Byte × BitVec 8 × State :=
  let q := mrQuill s m.hdr.addr.toNat
  let xs := (decodeVec o.mfmt o.nel memBytes).zip (decodeVec o.ifmt o.nel (m.body.drop 16))
  let rs := xs.map fun e => mrElem o e.1 e.2
  let v := writeVec o.mfmt o.sat (rs.map (·.1))
  let s := (chargeEsc s q none (rs.filter (·.2.2)).length).2
  (v.bytes, cflgOf false v.nanSeen (quillDegraded s q) false, countVec (countTrunc s q (rs.filter (·.2.1)).length) v)

/-! ### COMPARE (R331) -/

/-- The 16-byte units that differ, by index. -/
def diffUnits (a b : List Byte) (n : Nat) : List Nat :=
  (List.range n).filter fun i => slice a (16 * i) 16 != slice b (16 * i) 16

/-- The one unit COMPARE returns. -/
def compareResult (m : Msg) (data : List Byte) : List Byte :=
  let len := copyLen m.body
  let n := len / 16
  let other := if cmpMode m.body then (List.replicate n (cmpPattern m.body)).flatten else data.drop len
  let ds := diffUnits (data.take len) other n
  leBytes 8 (match ds with | [] => 2 ^ 64 - 1 | i :: _ => 16 * i) ++ leBytes 8 ds.length

/-! ### Performing an operation -/

/-- The tier of a run that lies in a piece of an object. -/
def Seg.piece (g : Seg) : Option Nat := g.obj.map fun _ => g.tier

/-- The result once every part is done. -/
def resultOf (m : Msg) (subs : List Sub) : MemRes :=
  match failedSub subs with
  | some x => { st := x.st, cflg := x.cflg, cdat := x.cdat, piece := x.seg.piece }
  | none =>
    let data := subsData subs
    if m.hdr.op = Op.load ∨ m.hdr.op = Op.bulkLoad then { st := St.ok, data := some data }
    else if m.hdr.op = Op.compare then { st := St.ok, data := some (compareResult m data) }
    else if m.hdr.op = Op.atomic then
      { st := St.ok, cflg := (subs.head?.map (·.cflg)).getD 0, data := some (slice (padTo 16 data) 0 16) }
    else { st := St.ok, cflg := (subs.head?.map (·.cflg)).getD 0 }

/-- Cause 7: the reads of a request from T3 or T4, through SPACE 0x02, have taken longer than STALL_SLOW (R324). -/
def countSlow (s : State) (r : Reissue) : Bool × State :=
  if ¬ r.counted ∧ (failedSub r.subs).isNone ∧ us * s.o (okey 0x5400 0xC) < s.time - r.start then
    match r.subs.find? fun x => x.seg.obj.isSome && decide (3 ≤ x.seg.tier) with
    | some x => (true, countStall s r.orig.hdr.part.toNat x.seg.tier 7)
    | none => (r.counted, s)
  else (r.counted, s)

/-- The counts of the near-memory operations once one has succeeded (R335). -/
def countNear (s : State) (m : Msg) : State :=
  let h := m.hdr
  if h.op = Op.fill then s.bump (okey 0x5600 1) (fillLen h)
  else if h.op = Op.copy then s.bump (okey 0x5600 2) (copyLen m.body)
  else if h.op = Op.compare then s.bump (okey 0x5600 3) (copyLen m.body)
  else if h.op = Op.memReduce then s.bump (okey 0x5600 4) 1
  else s

/-- Completes an operation whose parts are all done. -/
def endReissue (s : State) (r : Reissue) : State :=
  let res := resultOf r.orig r.subs
  finishMem (if res.st = St.ok then countNear s r.orig else s) r.orig r.counted res

/-- The writes of COPY and MEM_REDUCE, from what their reads gave. -/
def writeStage (s : State) (j : MemReq) (ws : List Seg) : List Sub × State :=
  let data := subsData j.got
  if j.msg.hdr.op = Op.memReduce then
    match mrOp j.msg with
    | some o =>
      let x := mrCompute s j.msg o data
      let y := writeSubs x.2.2 j.msg ws x.1
      (y.1.map fun u => { u with cflg := if u.st = St.ok then x.2.1 else u.cflg }, y.2)
    | none => ([], s)
  else writeSubs s j.msg ws data

/-- Every part is done. -/
def allDone (subs : List Sub) : Bool := subs.all (·.done)

/-- An ATOMIC on a word held here (R174 to R177); under a forwarded line the word of a retired channel still cannot be written. -/
def atomicHere (s : State) (ov : Fwd) (m : Msg) (g : Seg) (a : Nat) : Sub × State :=
  match readOver s ov a g.len with
  | none =>
    ({ key := default, seg := g, done := true, st := St.uncorrectable }, raiseUncorr s m.hdr.part.toNat g.addr)
  | some old =>
    if !ov.isEmpty && channelRetired s a then
      ({ key := default, seg := g, done := true, st := St.uncorrectable }, raiseUncorr s m.hdr.part.toNat g.addr)
    else
      match atomicResult (aopOf m.hdr) (atypeOf m.hdr) (leNat old) (atomicOpa m.body) (atomicOpb m.body) with
      | some (v, nan) =>
        ({ key := default, seg := g, done := true, cflg := cflgOf false nan false false, data := padTo 16 old },
          { s with mem := Memory.writeN s.mem a (leBytes g.len v) })
      | none => ({ key := default, seg := g, done := true, st := St.formatUnsupported }, s)

/-- One run of an ATOMIC; what is sent on holds no reserved bits (R9). -/
def atomicSub (s : State) (ov : Fwd) (m : Msg) (g : Seg) : Sub × State :=
  match g.loc with
  | .phys a => atomicHere s ov m g a
  | .remote _ fid ra => forwardSub s m g fid ra (m.hdr.aux.toNat % 256) m.body

/-- Splits a remote run of a FILL into its whole 16-byte patterns and what is left. -/
def fillRuns (g : Seg) : List Seg :=
  match g.loc with
  | .phys _ => [g]
  | .remote _ _ _ =>
    let n := g.len / 16 * 16
    (if n = 0 then [] else [g.part 0 n]) ++ (if n = g.len then [] else storeRuns (g.part n (g.len - n)))

/-- One run of a FILL, at byte `off` of its range, where the pattern goes on (R329). -/
def fillSub (s : State) (m : Msg) (off : Nat) (g : Seg) : Sub × State :=
  let pat := m.body.drop (off % 16) ++ m.body.take (off % 16)
  let bytes := ((List.replicate (g.len / 16 + 1) pat).flatten).take g.len
  match g.loc with
  | .phys _ => writeSub s m g bytes
  | .remote _ fid ra => if g.len % 16 = 0 then forwardSub s m g fid ra (g.len / 16 - 1) pat else writeSub s m g bytes

/-- The accesses of a request whose ranges have been resolved: its reads, where it has any, else its writes. `ov` are the lines that
caches have forwarded. -/
def startParts (s : State) (ov : Fwd) (j : MemReq) (rs ws : List Seg) : List Sub × State :=
  let m := j.msg
  let h := m.hdr
  if !j.reads.isEmpty then readSubs s ov m rs
  else if h.op = Op.store ∨ h.op = Op.bulkStore then writeSubs s m ws m.body
  else if h.op = Op.atomic then overRuns (fun s _ g => atomicSub s ov m g) s ws
  else if h.op = Op.fill then overRuns (fun s off g => fillSub s m off g) s (ws.flatMap fillRuns)
  else writeStage s j ws

/-- Starts the accesses and hands them to `go`, with the writes that are to follow. -/
def perform (go : State → Reissue → State) (s : State) (ov : Fwd) (j : MemReq) (rs ws : List Seg) : State :=
  let x := startParts s ov j rs ws
  go x.2 { orig := j.msg, subs := x.1, writes := if j.reads.isEmpty || j.writes.isEmpty then none else some j.writes,
           start := j.start, counted := j.counted }

/-- Notes a versioned load until its last byte has left (R214, R215). -/
def noteVersioned (s : State) (m : Msg) : State :=
  match s.region (regionIx m.hdr.addr.toNat) with
  | some r =>
    { s with vloads := s.vloads ++ [{ region := regionIx m.hdr.addr.toNat, version := r.version, key := hdrKey m.hdr }] }
  | none => s

/-- VREC: the region record as it stands at decode (R170, R214). -/
def serveVrec (s : State) (m : Msg) : State :=
  match s.region (regionIx m.hdr.addr.toNat) with
  | some r =>
    if regionReadable s r m.hdr.part.toNat then completeData s ingMemory m.hdr 0 0 (regionRecord r)
    else complete s ingMemory m.hdr St.accessDenied 0 0
  | none => complete s ingMemory m.hdr St.accessDenied 0 0

/-- Packets of a completion still in the device (R215). -/
def completionInside (s : State) (k : ReqKey) : Bool :=
  let hs := (s.inq.flatMap (·.2)) ++ s.spine.map (·.held) ++ s.outs.flatMap fun e => e.2.q
  hs.any fun h => isCmplOp h.pkt.hdr.op && cmplKey h.pkt.hdr == k

/-- A versioned load has not sent its last byte (R215). -/
def vloadActive (s : State) (v : VLoad) : Bool :=
  completionInside s v.key || (openJobs s).any fun j => hdrKey j.msg.hdr == v.key

/-- Versioned loads of a region under a version that still run. -/
def readersOf (s : State) (region : Nat) (version : BitVec 64) : Bool :=
  s.vloads.any fun v => v.region == region && v.version == version && vloadActive s v

/-- Forgets versioned loads that have sent their last byte. -/
def pruneVloads (s : State) : State := { s with vloads := s.vloads.filter (vloadActive s) }

/-- Performs a PUBLISH (R212, R213, R215). -/
def publishNow (s : State) (m : Msg) : State :=
  let h := m.hdr
  let a := h.addr.toNat
  let i := regionIx a
  let base := pubBase m.body
  let len := pubLen m.body
  let no (st : BitVec 8) (cdat : BitVec 16) := finishOnce s ingMemory h st 0 cdat none
  if spaceOf a ≠ 3 ∨ regionOff a ≠ 0 ∨ m.body.length ≠ 32 ∨ 2 < spaceOf base ∨ len % 16 ≠ 0 ∨ 2 ^ 36 < len then
    no St.formatUnsupported 0
  else
    match s.region i with
    | none => no St.accessDenied 0
    | some r =>
      let writable : Bool := match resolveContent s h.part.toNat base len true false with | .segs _ => true | _ => false
      if r.owner.val ≠ h.part.toNat ∨ ¬ writable ∨ (spaceOf base < 2 ∧ touchesObject s h.part.toNat base len) then
        no St.accessDenied 0
      else if r.version ≠ pubExpect m.body then no St.publishConflict (r.version.setWidth 16)
      else
        let v := r.version + 1
        let s := s.setRegion i (some { r with version := v, base := BitVec.ofNat 56 base, len := BitVec.ofNat 64 len, fid := h.src })
        if readersOf s i r.version then
          { s with waitPubs := s.waitPubs ++ [{ region := i, old := r.version, req := m, cdat := v.setWidth 16 }] }
        else finishOnce s ingMemory h St.ok 0 (v.setWidth 16) none

/-- Sends the completions of PUBLISH requests whose superseded version has no reader left (R215). -/
def releasePubs (s : State) (region : Nat) : State :=
  let s := pruneVloads s
  let ready := s.waitPubs.filter fun w => w.region == region && !readersOf s region w.old
  let s := { s with waitPubs := s.waitPubs.filter fun w => !(w.region == region && !readersOf s region w.old) }
  ready.foldl (fun s w => finishOnce s ingMemory w.req.hdr St.ok 0 w.cdat none) s

end Sys2Proof.Machine
end

