-- ==== Sys2Proof/Machine/Coherence.lean ====
section
/-! DEFINITION. Coherence (R188 to R200, R202), the C3 and C7 memory requests that may touch windows (R198, R199), and the requests
on published regions. -/

namespace Sys2Proof.Machine

/-! ### The directory (R189, R190) -/

def dirEntry (s : State) (line : Nat) : DirEntry := Sparse.get {} s.dir line
/-- Writes an entry, with its check code (R190). -/
def setDir (s : State) (line : Nat) (e : DirEntry) : State := { s with dir := Sparse.set {} s.dir line { e with chk := 0 } }

/-- An entry with its agent `a` added as a sharer. -/
def DirEntry.addSharer (e : DirEntry) (a : Nat) : DirEntry := { e with sharers := e.sharers ||| (1#16 <<< a) }
def DirEntry.dropSharer (e : DirEntry) (a : Nat) : DirEntry := { e with sharers := e.sharers &&& ~~~ (1#16 <<< a) }
def DirEntry.sharerList (e : DirEntry) : List Nat := (List.range 16).filter e.sharers.getLsbD
/-- The owner in X and O. -/
def DirEntry.ownerOf (e : DirEntry) : Option Nat := match e.st with | .x | .o => some e.owner | _ => none
/-- Every agent that may hold the line. -/
def DirEntry.holders (e : DirEntry) : List Nat :=
  match e.st with
  | .i => []
  | .s => e.sharerList
  | .x => [e.owner]
  | .o => if e.owner ∈ e.sharerList then e.sharerList else e.owner :: e.sharerList

def ownedBy (a : Nat) : DirEntry := { st := .x, owner := a }

/-- AGENT_a of a domain (R220). -/
def agentFid (s : State) (d a : Nat) : Fid := BitVec.ofNat 24 (s.o (domObj d 1 (a + 1)))

/-- CACHING of a domain. -/
def isCaching (s : State) (d a : Nat) : Bool := decide (a < 16) && bit (s.o (domObj d 0 4)) a

/-- The agent number of a FID in a domain (R188). -/
def agentOf (s : State) (d : Nat) (f : Fid) : Option Nat :=
  (List.range 16).find? fun a => agentFid s d a == f && f != 0

/-! ### Snoops and data (R195) -/

/-- A C2 packet of the home about a request's line; a message of one packet, it carries LAST (R69). -/
def homePacket (s : State) (op : BitVec 8) (req : Hdr) (dst : Fid) (addr : Addr) (aux : Nat) (body : List Byte) : Packet :=
  { hdr := { ver := 1, cls := 2, ep := origEp s, ks := 0, op := op, flg := flagLast, plen := BitVec.ofNat 8 (body.length / 16),
             dst := dst, src := devFid s, part := req.part, val := false, hop := 0, tag := req.tag, mid := 0, opid := req.opid,
             addr := addr, aux := BitVec.ofNat 32 aux }
    payload := body }

/-- Sends a SNOOP and counts it. -/
def sendSnoop (s : State) (d a skind : Nat) (req : Hdr) (addr : Addr) (fwd : Fid) : State :=
  (originate s ingMemory .unit [homePacket s Op.snoop req (agentFid s d a) addr (skind + 256 * fwd.toNat) []]).bump
    (domObj d 3 1) 1

/-- Sends a DATA_FWD with the line. -/
def sendData (s : State) (d a grant : Nat) (place : Bool) (req : Hdr) (addr : Addr) (line : List Byte) : State :=
  originate s ingMemory .unit [homePacket s Op.dataFwd req (agentFid s d a) addr (grant + 8 * b2n place) line]

/-- Physical address of a line number. -/
def linePhys (line : Nat) : Nat := 128 * line

/-- A line read from memory; none when it has an uncorrectable word (R218). -/
def readLine (s : State) (line : Nat) : Option (List Byte) := readPhys s (linePhys line) 128

/-! ### Transactions (R192) -/

/-- A line is being served, or an earlier request waits for it. -/
def lineBusy (s : State) (l : Nat) : Bool := (s.txns.any fun t => t.line == l) || s.cohWait.any fun w => l ∈ w.lines

/-- The answer of the snooped owner says that it forwards the line. -/
def forwards (r : Option (BitVec 4)) : Bool := r == some resFwdClean || r == some resFwdDirty

/-- Every answer a transaction calls for has arrived. -/
def Txn.ready (t : Txn) : Bool := t.place.isNone && t.await.isEmpty && (!t.wantData || !forwards t.res || t.data.isSome)

/-- Sends the snoops a transaction calls for: the owner for data, the others to invalidate. -/
def sendSnoops (s : State) (t : Txn) (skind : Nat) (fwd : Fid) (inv : List Nat) : State :=
  let s := match t.owner with
    | some o => sendSnoop s t.domain.val o skind t.req.hdr t.addr fwd
    | none => s
  inv.foldl (fun s a => sendSnoop s t.domain.val a snpInv t.req.hdr t.addr 0) s

/-- Completes a request of C1 and ends its transaction. -/
def completeC1 (s : State) (t : Txn) (st : BitVec 8) (grant : Nat) : State :=
  complete s ingMemory t.req.hdr st 0 (grantCdat grant false)

/-- Completes with the line: from memory, or an error when memory cannot be read (R193, R194, R218). -/
def grantFromMemory (s : State) (t : Txn) (grant : Nat) (e : DirEntry) : State :=
  match readLine s t.line with
  | some d => completeData (setDir s t.line e) ingMemory t.req.hdr 0 (grantCdat grant false) d
  | none =>
    let w := (firstDead s (linePhys t.line) 128).getD 0
    complete (raiseUncorr s t.req.hdr.part.toNat (wordAddr (linePhys t.line) t.addr.toNat w)) ingMemory t.req.hdr St.uncorrectable 0 0

/-- Completes with FWD: the line arrives from its owner (R193). -/
def grantForward (s : State) (t : Txn) (grant : Nat) (e : DirEntry) : State :=
  completeData (setDir s t.line e) ingMemory t.req.hdr 0 (grantCdat grant true) []

/-- Places a written line with an agent; the line stays busy until it answers (R199). -/
def placeLine (s : State) (t : Txn) (target : Nat) : State :=
  match readLine s t.line with
  | some d =>
    let s := sendData s t.domain.val target 2 true t.req.hdr t.addr d
    { s with txns := s.txns ++ [{ t with place := some target, job := none, await := [], wantData := false, since := s.time }] }
  | none => s

/-- The bytes a COH_STORE writes: unit g of the line where GMASK has bit g (R195), a whole 32-byte word at once (R217). -/
def gmaskRuns (m : Msg) : List (Nat × List Byte) :=
  let g := bit (gmaskOf m.hdr)
  (List.range 4).flatMap fun k =>
    if g (2 * k) && g (2 * k + 1) then [(32 * k, slice m.body (32 * k) 32)]
    else (if g (2 * k) then [(32 * k, slice m.body (32 * k) 16)] else []) ++
      (if g (2 * k + 1) then [(32 * k + 16, slice m.body (32 * k + 16) 16)] else [])

/-- Performs a HOME_ATOMIC or COH_STORE at the home, memory holding the line (R193, R199). -/
def performHome (s : State) (t : Txn) : State :=
  let m := t.req
  let h := m.hdr
  let s := setDir s t.line {}
  if h.op = Op.homeAtomic then
    let a := linePhys t.line + h.addr.toNat % 128
    let ov : Fwd := t.data.toList.map fun d => (t.line, d)
    match readOver s ov a (atomicWidth h) with
    | none => complete (raiseUncorr s h.part.toNat h.addr.toNat) ingMemory h St.uncorrectable 0 0
    | some old =>
      if !ov.isEmpty && channelRetired s a then complete (raiseUncorr s h.part.toNat h.addr.toNat) ingMemory h St.uncorrectable 0 0
      else
        match atomicResult (aopOf h) (atypeOf h) (leNat old) (atomicOpa m.body) (atomicOpb m.body) with
        | some (v, nan) =>
          let s := { s with mem := Memory.writeN s.mem a (leBytes (atomicWidth h) v) }
          completeData s ingMemory h (cflgOf false nan false false) 0 (padTo 16 old)
        | none => complete s ingMemory h St.formatUnsupported 0 0
  else
    let r := (gmaskRuns m).foldl (fun (r : Option Nat × State) x =>
      let y := storePhys r.2 (linePhys t.line + x.1) x.2
      (r.1.or y.1, y.2)) (none, s)
    match r.1 with
    | some w =>
      complete (raiseUncorr r.2 h.part.toNat (wordAddr (linePhys t.line) t.addr.toNat w)) ingMemory h St.uncorrectable 0 0
    | none =>
      let s := complete r.2 ingMemory h St.ok 0 0
      if h.hint ∧ gmaskOf h = 0xFF ∧ isCaching s t.domain.val (htgtOf h) then placeLine s t (htgtOf h) else s

/-- Ends a C1 transaction whose answers have all arrived (R193, R194). The transaction is no longer in the list. -/
def endC1 (s : State) (t : Txn) (a : Nat) : State :=
  let e := dirEntry s t.line
  let op := t.req.hdr.op
  if op = Op.rdShared then
    match t.owner with
    | none => if e.st = .s then grantFromMemory s t 1 (e.addSharer a) else grantFromMemory s t 2 (ownedBy a)
    | some o =>
      if t.res = some resFwdDirty then grantForward s t 1 ({ e with st := .o }.addSharer a)
      else if t.res = some resFwdClean then
        grantForward s t 1 (({ st := .s, sharers := if e.st = .o then e.sharers else 0 : DirEntry }.addSharer o).addSharer a)
      else grantFromMemory s t 2 (ownedBy a)
  else if op = Op.homeAtomic ∨ op = Op.cohStore then
    performHome (match t.data with | some d => (storePhys s (linePhys t.line) d).2 | none => s) t
  else if op = Op.upgrade ∧ t.wantData then
    completeC1 (setDir s t.line (ownedBy a)) t St.ok 3
  else
    match t.owner with
    | none => grantFromMemory s t 2 (ownedBy a)
    | some _ =>
      if t.res = some resFwdDirty then grantForward s t 3 (ownedBy a)
      else if t.res = some resFwdClean then grantForward s t 2 (ownedBy a)
      else grantFromMemory s t 2 (ownedBy a)

/-- Ends the transaction if it is ready, else keeps it. `wantData` of an UPGRADE marks that the requester holds the line. -/
def settleC1 (s : State) (t : Txn) : State :=
  match t.agent with
  | some a =>
    if t.await.isEmpty ∧ (t.ready ∨ t.req.hdr.op = Op.upgrade) then endC1 s t a else { s with txns := s.txns ++ [t] }
  | none => s

/-- WRITEBACK and EVICT, which call for no snoop (R193). -/
def endSimple (s : State) (t : Txn) (a : Nat) : State :=
  let e := dirEntry s t.line
  let afterOwner : DirEntry := if e.st = .o ∧ (e.dropSharer a).sharers ≠ 0 then { st := .s, sharers := (e.dropSharer a).sharers } else {}
  if t.req.hdr.op = Op.writeback then
    if e.ownerOf = some a then
      let r := storePhys s (linePhys t.line) (slice t.req.body 0 128)
      let s := setDir r.2 t.line afterOwner
      match r.1 with
      | none => completeC1 s t St.ok 0
      | some w =>
        completeC1 (raiseUncorr s t.req.hdr.part.toNat (wordAddr (linePhys t.line) t.addr.toNat w)) t St.uncorrectable 0
    else completeC1 s t St.ok 0
  else if e.ownerOf = some a then completeC1 (setDir s t.line afterOwner) t St.ok 0
  else
    let e' := e.dropSharer a
    let e' := if e'.st = .s ∧ e'.sharers = 0 then {} else e'
    completeC1 (setDir s t.line e') t St.ok 0

/-- Starts a C1 request on its line (R193). -/
def startC1 (s : State) (m : Msg) (d : Part) (a line : Nat) (lineAddr : Addr) : State :=
  let e := dirEntry s line
  let op := m.hdr.op
  let t : Txn := { domain := d, line := line, addr := lineAddr, req := m, agent := some a, job := none, write := false, await := [],
                   owner := none, res := none, wantData := false, data := none, place := none, since := s.time }
  if op = Op.writeback ∨ op = Op.evict then endSimple s t a
  else if op = Op.rdShared then
    match e.ownerOf with
    | some o => let t := { t with owner := some o, await := [o] }; settleC1 (sendSnoops s t snpShared m.hdr.src []) t
    | none => settleC1 s t
  else if op = Op.homeAtomic ∨ op = Op.cohStore then
    let inv := e.sharerList.filter fun x => e.ownerOf != some x
    let t := { t with owner := e.ownerOf, await := e.ownerOf.toList ++ inv, wantData := e.ownerOf.isSome }
    settleC1 (sendSnoops s t snpOwn (devFid s) inv) t
  else if op = Op.upgrade ∧ a ∈ e.holders then
    let inv := e.holders.filter (· != a)
    let t := { t with await := inv, wantData := true }
    settleC1 (sendSnoops s t snpInv 0 inv) t
  else
    let inv := e.sharerList.filter fun x => x != a && e.ownerOf != some x
    let t := { t with owner := e.ownerOf, await := e.ownerOf.toList ++ inv }
    settleC1 (sendSnoops s t snpOwn m.hdr.src inv) t

/-! ### C3 requests in windows (R198) -/

/-- A window line a C3 request touches. -/
structure LineUse where
  line  : Nat
  addr  : Addr
  dom   : Nat
  write : Bool
  deriving DecidableEq, Repr

/-- Lines of a run. -/
def segLines (s : State) (write : Bool) (g : Seg) : List LineUse :=
  match g.loc, g.dom with
  | .phys a, some d =>
    if (s.domain d).st = .active ∧ 0 < g.len then
      (List.range ((a + g.len - 1) / 128 + 1 - a / 128)).map fun i =>
        { line := a / 128 + i, addr := BitVec.ofNat 56 (g.addr - a % 128 + 128 * i), dom := d, write := write }
    else []
  | _, _ => []

/-- The lines of a phase of a request, a written line once as written. MEM_REDUCE writes the lines it reads: it takes them from
their caches at once. -/
def linesOf (s : State) (m : Msg) (rs ws : List Seg) : List LineUse :=
  let w := (if m.hdr.op = Op.memReduce then rs ++ ws else ws).flatMap (segLines s true)
  let r := (rs.flatMap (segLines s false)).filter fun x => !(w.any fun y => y.line == x.line)
  w ++ r

/-- The first run in a window of a HELD domain (R200). -/
def heldRun (s : State) (gs : List Seg) : Option Seg :=
  gs.find? fun g => g.dom.any fun d => (s.domain d).st == .held

/-- A transaction of a C3 or C7 request, not a placement after it. -/
def Txn.isMem (t : Txn) : Bool := t.agent.isNone && t.place.isNone

/-- The transactions of a C3 request. -/
def groupOf (s : State) (m : Msg) : List Txn := s.txns.filter fun t => t.isMem && t.req == m

/-- The new DSTATE of a line that a C3 request has used (R193, R198). -/
def afterC3 (e : DirEntry) (t : Txn) : DirEntry :=
  if t.write then {}
  else match t.owner with
    | none => e
    | some o =>
      if t.res = some resFwdDirty then { e with st := .o }
      else if t.res = some resFwdClean then
        { st := .s, sharers := (DirEntry.addSharer { e with sharers := if e.st = .o then e.sharers else 0 } o).sharers }
      else if e.st = .o ∧ (e.dropSharer o).sharers ≠ 0 then { st := .s, sharers := (e.dropSharer o).sharers } else {}

/-- A STORE wrote the whole line at this address. -/
def wholeLine (m : Msg) (t : Txn) : Bool :=
  decide (m.hdr.addr.toNat ≤ t.addr.toNat) && decide (t.addr.toNat + 128 ≤ m.hdr.addr.toNat + m.body.length)

/-- The placements that follow a STORE with HINT (R199). -/
def placeLines (s : State) (m : Msg) (ts : List Txn) : State :=
  if m.hdr.op = Op.store ∧ m.hdr.hint then
    ts.foldl (fun s t =>
      if t.write ∧ wholeLine m t ∧ isCaching s t.domain.val (htgtOf m.hdr) then placeLine s t (htgtOf m.hdr) else s) s
  else s

/-- Ends a C3 request's transactions: an owner's line stands for memory while the request runs, and is written back first where the
request writes it (R193, R198, R218). -/
def endGroup (go : State → Reissue → State) (s : State) (j : MemReq) (ts : List Txn) : State :=
  let s := ts.foldl (fun s t =>
    let s := setDir s t.line (afterC3 (dirEntry s t.line) t)
    match t.data with
    | some d => if t.write then (storePhys s (linePhys t.line) d).2 else s
    | none => s) s
  let ov : Fwd := ts.filterMap fun t => t.data.map fun d => (t.line, d)
  placeLines (perform go s ov j (j.reads.flatMap Want.fixed) (if j.reads.isEmpty then j.writes.flatMap Want.fixed else [])) j.msg ts

/-- Snoops one line for a C3 request. -/
def openLine (j : MemReq) (s : State) (u : LineUse) : State :=
  let e := dirEntry s u.line
  let t : Txn := { domain := ⟨u.dom % 32, by omega⟩, line := u.line, addr := u.addr, req := j.msg, agent := none, job := some j,
                   write := u.write, await := [], owner := e.ownerOf, res := none, wantData := e.ownerOf.isSome, data := none,
                   place := none, since := s.time }
  let inv := if u.write then e.sharerList.filter fun x => e.ownerOf != some x else []
  let t := { t with await := e.ownerOf.toList ++ inv }
  let s := sendSnoops s t (if u.write then snpOwn else snpShared) (devFid s) inv
  { s with txns := s.txns ++ [t] }

/-- Ends a C3 request if all its lines are ready. -/
def settleGroup (go : State → Reissue → State) (s : State) (j : MemReq) : State :=
  let ts := groupOf s j.msg
  if ts.all Txn.ready then
    endGroup go { s with txns := s.txns.filter fun t => !(t.isMem && t.req == j.msg) } j ts
  else s

/-- Runs a phase of a request whose ranges have been resolved: at once, under its window lines, or behind them (R192, R198, R200). -/
def runResolved (go : State → Reissue → State) (s : State) (j : MemReq) (rs ws : List Seg) : State :=
  match heldRun s (rs ++ ws ++ j.writes.flatMap Want.fixed) with
  | some g => finishMem s j.msg j.counted { st := St.tgtDead, piece := g.piece }
  | none =>
    let us := linesOf s j.msg rs ws
    if us.isEmpty then perform go s [] j rs ws
    else if us.any fun u => lineBusy s u.line then
      { s with cohWait := s.cohWait ++ [{ msg := j.msg, lines := us.map (·.line), job := some j }] }
    else settleGroup go (us.foldl (openLine j) s) j

/-- A request has reached a piece in TRANSIT: it waits, which is cause 3 where nothing has been counted for it (R313, R324). -/
def waitPiece (s : State) (j : MemReq) (obj tier : Nat) : State :=
  let s := if j.counted then s else countStall s j.msg.hdr.part.toNat tier 3
  { s with transitWait := s.transitWait ++ [{ job := { j with counted := true }, obj := obj, since := s.time }] }

/-- Serves the next phase of a request, its reads or else its writes: the pieces of objects are resolved now (R313). -/
def serveWith (go : State → Reissue → State) (s : State) (j : MemReq) : State :=
  if j.reads.isEmpty then
    match resolveWants s true j.writes with
    | .segs ws => runResolved go s { j with writes := [.runs ws] } [] ws
    | .err st piece => finishMem s j.msg j.counted { st := st, piece := piece }
    | .wait o t => waitPiece s j o t
  else
    match resolveWants s false j.reads with
    | .segs rs => runResolved go s { j with reads := [.runs rs] } rs []
    | .err st piece => finishMem s j.msg j.counted { st := st, piece := piece }
    | .wait o t => waitPiece s j o t

/-- Completes an operation whose last parts are done, or holds it while some are out. -/
def advanceLast (s : State) (r : Reissue) : State :=
  if allDone r.subs then endReissue s r else { s with reissues := s.reissues ++ [r] }

/-- Takes an operation on: it is held while parts are out; then its writes follow its reads, or it completes. -/
def advance (s : State) (r : Reissue) : State :=
  if !allDone r.subs then { s with reissues := s.reissues ++ [r] }
  else
    match r.writes with
    | none =>
      let c := if r.orig.hdr.op ∈ [Op.load, Op.bulkLoad, Op.compare] then countSlow s r else (r.counted, s)
      endReissue c.2 { r with counted := c.1 }
    | some ws =>
      if (failedSub r.subs).isSome then endReissue s r
      else
        let c := countSlow s r
        serveWith advanceLast c.2 { msg := r.orig, reads := [], writes := ws, got := r.subs, start := r.start, counted := c.1 }

/-- Serves a decoded memory request. -/
def serveJob (s : State) (j : MemReq) : State := serveWith advance s j

/-- A part's completion has come back (R206). -/
def subDone (s : State) (r : Reissue) (k : ReqKey) (st cflg : BitVec 8) (cdat : BitVec 16) (data : List Byte) : State :=
  let x := r.subs.foldl (fun (a : List Sub × State) x =>
    if x.key = k ∧ ¬ x.done then let y := partDone a.2 x st cflg cdat data; (a.1 ++ [y.1], y.2) else (a.1 ++ [x], a.2)) ([], s)
  advance { x.2 with reissues := x.2.reissues.filter (· != r) } { r with subs := x.1 }

/-! ### C1 requests (R188, R200) -/

/-- Where a C1 request goes: its domain, agent and line; or the status it completes with. -/
def routeC1 (s : State) (m : Msg) : Except (BitVec 8) (Part × Nat × Nat × Addr) :=
  let h := m.hdr
  let p := h.part.toNat
  let a := h.addr.toNat
  let sp := spaceOf a
  let la := a / 128 * 128
  if h.retry ∨ 2 < sp then .error St.formatUnsupported
  else if h.op = Op.homeAtomic ∧ ¬ (atomicDefined h ∧ m.body.length = 16 ∧ a % atomicWidth h = 0) then .error St.formatUnsupported
  else if h.op ≠ Op.homeAtomic ∧ a % 128 ≠ 0 then .error St.formatUnsupported
  else if (h.op = Op.writeback ∨ h.op = Op.cohStore) ∧ m.body.length ≠ 128 then .error St.formatUnsupported
  else if 1 < sp then .error St.accessDenied
  else if (sp = 0 ∧ bits a 47 33 ≠ 0) ∨ (sp = 1 ∧ bits a 47 44 ≠ 0) then .error St.formatUnsupported
  else
    match windowDomain s p sp (if sp = 0 then bits a 32 26 else bits a 43 28) with
    | none => .error St.accessDenied
    | some d =>
      match agentOf s d h.src with
      | none => .error St.accessDenied
      | some g =>
        let reads := h.op != Op.homeAtomic && h.op != Op.cohStore
        if reads ∧ ¬ isCaching s d g then .error St.accessDenied
        else match (s.domain d).st with
          | .idle => .error St.accessDenied
          | .held | .tornDown => .error St.fenced
          | .active =>
            let write := h.op == Op.homeAtomic || h.op == Op.cohStore || h.op == Op.writeback
            if touchesObject s p la 128 then .error St.accessDenied
            else match resolveFlat s p la 128 write with
            | .error (st, _) => .error st
            | .ok seg =>
              match seg.loc with
              | .phys x => .ok (⟨d % 32, by omega⟩, g, x / 128, BitVec.ofNat 56 la)
              | .remote _ _ _ => .error St.accessDenied

/-- Starts a waiting request; nothing it needs is busy any more. -/
def startWaiting (s : State) (w : CohReq) : State :=
  match w.job with
  | some j => serveJob s j
  | none =>
    match routeC1 s w.msg with
    | .ok (d, a, line, la) => startC1 s w.msg d a line la
    | .error st => complete s ingMemory w.msg.hdr st 0 0

/-- The line that a request's ADDR names, where it lies in a window of an ACTIVE or HELD domain. -/
def windowLine (s : State) (h : Hdr) : Option (Nat × Nat) :=
  let r := if spaceOf h.addr.toNat = 2 then resolveObject s h.part.toNat h.addr.toNat 1 false false
    else if spaceOf h.addr.toNat < 2 then
      match resolveFlat s h.part.toNat h.addr.toNat 1 false with | .ok g => .segs [g] | .error _ => .segs []
    else .segs []
  match r with
  | .segs [{ loc := .phys a, dom := some d, .. }] => if (s.domain d).st = .active ∨ (s.domain d).st = .held then some (a / 128, d) else none
  | _ => none

/-- A C1 request of a HELD domain that waits for its line stays as it is until TEARDOWN (R200, R203). -/
def frozen (s : State) (w : CohReq) : Bool :=
  w.job.isNone && (windowLine s w.msg.hdr).any fun x => (s.domain x.2).st == .held

/-- The first waiting request whose lines are free of transactions and of earlier waiting requests, with those before and
after it. -/
def nextWaiting (s : State) : List CohReq → List CohReq → Option (CohReq × List CohReq)
  | _, [] => none
  | before, w :: rest =>
    if (w.lines.all fun l => !(s.txns.any fun t => t.line == l) && !(before.any fun b => l ∈ b.lines)) && !frozen s w then
      some (w, before ++ rest)
    else nextWaiting s (before ++ [w]) rest

/-- Starts every waiting request that can start, in arrival order (R192). -/
def wakeN : Nat → State → State
  | 0, s => s
  | n + 1, s =>
    match nextWaiting s [] s.cohWait with
    | some (w, rest) => wakeN n (startWaiting { s with cohWait := rest } w)
    | none => s

def wake (s : State) : State := wakeN s.cohWait.length s

/-- Requests that wait at the home quill of a line: for their lines, or delivered and not yet taken (R192). -/
def waitingAt (s : State) (line : Nat) : Nat :=
  let here (l : Nat) : Bool := Config.homeQuill l == Config.homeQuill line
  (s.cohWait.filter fun w => w.lines.any here).length +
    (s.delivered.filter fun d => d.msg.hdr.cls.toNat < 4 && (windowLine s d.msg.hdr).any fun x => here x.1).length

/-- The home quill of a request's line holds its 4,096 waiting requests: the request waits at ingress (R192). -/
def homeFull (s : State) (h : Hdr) : Bool := (windowLine s h).any fun x => decide (4096 ≤ waitingAt s x.1)

/-- Serves a C1 request: at once, or behind what its line is busy with (R192). -/
def serveC1 (s : State) (m : Msg) : State :=
  let s := takeDelivered s m
  match routeC1 s m with
  | .error st => complete s ingMemory m.hdr st 0 0
  | .ok (d, a, line, la) =>
    if lineBusy s line then { s with cohWait := s.cohWait ++ [{ msg := m, lines := [line], job := none }] }
    else wake (startC1 s m d a line la)

def execRdShared (m : Msg) (s : State) : Host.Outcome State Fault Refusal := .next (serveC1 s m)
def execRdOwn (m : Msg) (s : State) : Host.Outcome State Fault Refusal := .next (serveC1 s m)
def execUpgrade (m : Msg) (s : State) : Host.Outcome State Fault Refusal := .next (serveC1 s m)
def execWriteback (m : Msg) (s : State) : Host.Outcome State Fault Refusal := .next (serveC1 s m)
def execEvict (m : Msg) (s : State) : Host.Outcome State Fault Refusal := .next (serveC1 s m)
def execHomeAtomic (m : Msg) (s : State) : Host.Outcome State Fault Refusal := .next (serveC1 s m)
def execCohStore (m : Msg) (s : State) : Host.Outcome State Fault Refusal := .next (serveC1 s m)

/-! ### Answers of agents (R193, R195, R199) -/

/-- The packet as the message delivered for it. -/
def packetMsg (p : Packet) : Msg := { hdr := p.hdr, body := p.payload }

/-- A transaction of the request a C2 packet names. -/
def sameRequest (h : Hdr) (t : Txn) : Bool := t.req.hdr.tag == h.tag && t.req.hdr.opid == h.opid && t.req.hdr.part == h.part

/-- The transaction a C2 packet answers among those `ok` admits: the one of its ADDR, else the first. -/
def findTxn (s : State) (h : Hdr) (ok : Txn → Bool) : Option Txn :=
  let c := s.txns.filter fun t => sameRequest h t && ok t && (s.domain t.domain.val).st == .active
  (c.find? fun t => t.addr == h.addr).or c.head?

/-- Replaces a transaction. -/
def replaceTxn (s : State) (old new : Txn) : State := { s with txns := s.txns.map fun t => if t = old then new else t }
def removeTxn (s : State) (t : Txn) : State := { s with txns := s.txns.filter (· != t) }

/-- Takes a changed transaction on. -/
def settle (s : State) (old t : Txn) : State :=
  match t.agent with
  | some _ => wake (settleC1 (removeTxn s old) t)
  | none => wake (match t.job with | some j => settleGroup advance (replaceTxn s old t) j | none => replaceTxn s old t)

/-- The answer to a placement (R199). -/
def placed (s : State) (t : Txn) (a : Nat) (res : BitVec 4) : State :=
  let s := removeTxn s t
  if res = resAccept then wake (setDir (s.bump (domObj t.domain.val 3 2) 1) t.line (ownedBy a))
  else wake ((setDir s t.line {}).bump (domObj t.domain.val 3 3) 1)

/-- A SNOOP_RESP: the answer counts once for its agent; one that matches nothing is discarded (R193, R203). -/
def takeSnoopResp (s : State) (p : Packet) : State :=
  let h := p.hdr
  match findTxn s h fun t => t.place.any fun a => agentFid s t.domain.val a == h.src with
  | some t => placed s t (t.place.getD 0) (resOf h)
  | none =>
    match findTxn s h fun t => t.await.any fun a => agentFid s t.domain.val a == h.src with
    | some t =>
      match t.await.find? fun a => agentFid s t.domain.val a == h.src with
      | some a =>
        settle s t { t with await := t.await.filter (· != a), res := if t.owner = some a then some (resOf h) else t.res }
      | none => s
    | none => s

/-- A DATA_FWD for the home (R195). -/
def takeDataFwd (s : State) (p : Packet) : State :=
  let h := p.hdr
  match findTxn s h fun t => t.wantData && t.data.isNone && (t.owner.any fun o => agentFid s t.domain.val o == h.src) with
  | some t => settle s t { t with data := some (slice p.payload 0 128) }
  | none => s

def execSnoopResp (p : Packet) (s : State) : Host.Outcome State Fault Refusal :=
  .next (takeSnoopResp (takeDelivered s (packetMsg p)) p)
def execDataFwd (p : Packet) (s : State) : Host.Outcome State Fault Refusal :=
  .next (takeDataFwd (takeDelivered s (packetMsg p)) p)

/-! ### HELD (R200, R202) -/

/-- Completes with TGT_DEAD the C3 and C7 requests to window lines of a domain that has become HELD; its C1 transactions and waiting C1
requests stay (R200). -/
def failHeld (s : State) (d : Nat) : State :=
  let hit (j : MemReq) : Option Seg := j.runs.find? fun g => g.dom == some d
  let ts := (((s.txns.filter Txn.isMem).filterMap (·.job)).eraseDups.filter fun j => (hit j).isSome)
  let ws := (s.cohWait.filterMap (·.job)).filter fun j => (hit j).isSome
  let s := { s with txns := s.txns.filter fun t => !(t.isMem && t.job.any fun j => (hit j).isSome)
                    cohWait := s.cohWait.filter fun w => !(w.job.any fun j => (hit j).isSome) }
  wake ((ts ++ ws).foldl (fun s j =>
    finishMem s j.msg j.counted { st := St.tgtDead, piece := (hit j).bind Seg.piece }) s)

/-- An ACTIVE domain enters HELD, with its cause and agent (R202). -/
def holdDomain (s : State) (d cause agent : Nat) : State :=
  let v := s.domain d
  if v.st = .active then
    let s := raise (s.setDomain d { v with st := .held, heldCause := cause, heldAgent := agent }) 0x0303
      (s.o (domObj d 0 1)) [(1, d), (1, cause), (1, agent)]
    failHeld s d
  else s

/-- A SNOOP stayed unanswered for SNOOP_WAIT (R202). -/
def execSnoopWaitTimeout (d : Part) (agent : Fin 16) (s : State) : Host.Outcome State Fault Refusal :=
  .next (if s.txns.any fun t => t.domain == d && (agent.val ∈ t.await || t.place == some agent.val) then
    holdDomain s d.val 3 agent.val else s)

/-! ### C3 and C7 memory requests -/

/-- Decodes a memory request, counts the stalls it meets, and serves it. -/
def arriveMem (s : State) (m : Msg) : State :=
  let h := m.hdr
  match planOf s m with
  | .err st => finishMem s m false { st := st }
  | .go reads writes =>
    if spaceOf h.addr.toNat = 3 ∧ loadVrec h then serveVrec s m
    else
      let s := if spaceOf h.addr.toNat = 3 then noteVersioned s m else s
      let x := stallOnArrival s h.part.toNat (reads ++ writes)
      serveJob x.2 { msg := m, reads := reads, writes := writes, start := s.time, counted := x.1 }

/-- A memory request of a message, in its turn; once where R430 says so. -/
def memRequest (s : State) (m : Msg) : State :=
  inTurn s m fun s =>
    let s := takeDelivered s m
    if m.hdr.op ∈ onceOps then once s ingMemory m (fun s => arriveMem s m) else arriveMem s m

def execLoad (m : Msg) (s : State) : Host.Outcome State Fault Refusal := .next (memRequest s m)
def execStore (m : Msg) (s : State) : Host.Outcome State Fault Refusal := .next (memRequest s m)
def execAtomic (m : Msg) (s : State) : Host.Outcome State Fault Refusal := .next (memRequest s m)
def execBulkLoad (m : Msg) (s : State) : Host.Outcome State Fault Refusal := .next (memRequest s m)
def execBulkStore (m : Msg) (s : State) : Host.Outcome State Fault Refusal := .next (memRequest s m)
def execFill (m : Msg) (s : State) : Host.Outcome State Fault Refusal := .next (memRequest s m)
def execCopy (m : Msg) (s : State) : Host.Outcome State Fault Refusal := .next (memRequest s m)
def execCompare (m : Msg) (s : State) : Host.Outcome State Fault Refusal := .next (memRequest s m)
def execMemReduce (m : Msg) (s : State) : Host.Outcome State Fault Refusal := .next (memRequest s m)

/-- PUBLISH: once, by the region's home quill (R213). -/
def execPublish (m : Msg) (s : State) : Host.Outcome State Fault Refusal :=
  .next (inTurn s m fun s => once (takeDelivered s m) ingMemory m (fun s => publishNow s m))

/-- Readers of a superseded version have sent their last bytes (R215). -/
def execPublishRelease (region : BitVec 12) (s : State) : Host.Outcome State Fault Refusal :=
  .next (releasePubs s region.toNat)

end Sys2Proof.Machine
end

