-- ==== Sys2Proof/Machine/Egress.lean ====
section
/-! DEFINITION. Outputs: liveness, random early drop, queueing at an output, the shapers' token test, and starting a packet
on a link or a host port. -/

namespace Sys2Proof.Machine

/-! ### Liveness (R112, R389) -/

/-- A fabric port whose link is ACTIVE or RETRAIN. -/
def linkCarries (s : State) (p : Nat) : Bool :=
  match (s.port p).st with | .active | .retrain => true | _ => false

/-- An active key slot of a port for a partition: loaded and allowed to send (R389, R404). -/
def activeSlot (s : State) (port part : Nat) : Option Nat :=
  let ks := [1, 2, 3].filter fun i => (s.key port part i).st == 1 && (s.key port part i).txOn
  ks.foldl (fun best i =>
    match best with
    | none => some i
    | some b => if (s.key port part b).order < (s.key port part i).order then some i else some b) none

/-- KEYX and ATTEST of class C0, exempt from R389 and R89. Their completions, of which KX_RESP is one, travel with KS 0 too (R400, R401);
a completion does not name its request, so every one of class C0 is exempt: DEDUCED (notes/assumptions/93.md). -/
def keyExempt (h : Hdr) : Bool := h.cls == 0 && (h.op == Op.keyx || h.op == Op.attest || isCmplOp h.op)

/-- A packet that must not cross a link in clear (R389). -/
def mustEncrypt (s : State) (h : Hdr) : Bool := isSealed s h.part.toNat && !keyExempt h

/-- A listed port is live (R112); for a SEALED partition only with an active key slot (R389). -/
def portLive (s : State) (h : Hdr) (o : Nat) : Bool :=
  if o < 128 then
    portOk s o && linkCarries s o && !fenced s (s.port o).peerFid.toNat &&
      (!mustEncrypt s h || (activeSlot s o h.part.toNat).isSome)
  else decide (o < 130) && (s.hostP (o - 128)).up

/-- Whether an output can hold and send packets now (R160). -/
def outputUp (s : State) (o : Nat) : Bool := if o < 128 then linkCarries s o else (s.hostP (o - 128)).up

/-! ### Values in force (R148, R159, R161) -/

def qosVal (s : State) (k : Nat) : Nat := Sparse.get (objDefault k) s.qos k

/-- Classes an output serves strictly (R140). -/
def isStrict (s : State) (o c : Nat) : Bool := bit (qosVal s (outObj o 0 1)) c

/-- RATE and BURST of a bucket: 0-7 class, 8 port (R163). -/
def bucketRate (s : State) (o b : Nat) : Nat := qosVal s (if b < 8 then outObj o 0 (0x20 + b) else outObj o 0 2)
def bucketBurst (s : State) (o b : Nat) : Nat := qosVal s (if b < 8 then outObj o 0 (0x28 + b) else outObj o 0 3)

/-- The ceiling of a bucket (R145). -/
def bucketCeiling (s : State) (o b : Nat) : Nat := max (bucketBurst s o b) (bucketRate s o b + 2100)

/-- The token test of R147, counting only buckets that shape. -/
def tokensOk (s : State) (o c : Nat) : Bool :=
  let t := (s.outSt o).tokens
  (bucketRate s o c == 0 || decide (0 < t.getD c 0)) && (bucketRate s o 8 == 0 || decide (0 < t.getD 8 0))

/-- Deducts a packet's length from the class and port buckets that shape (R147, R145). -/
def chargeTokens (s : State) (o c len : Nat) : State :=
  let st := s.outSt o
  let t := st.tokens
  let t := if bucketRate s o c = 0 then t else t.set c (t.getD c 0 - len)
  let t := if bucketRate s o 8 = 0 then t else t.set 8 (t.getD 8 0 - len)
  s.setOut o { st with tokens := t }

/-! ### Class queues (R136, R137) -/

/-- Cells queued at an output for a class (R138). -/
def queueCells (s : State) (o c : Nat) : Nat :=
  (s.outSt o).q.foldl (fun a h => if h.pkt.hdr.cls.toNat = c then a + cellsOf h.len else a) 0

/-- XOFF is clear for a VC of an output; a host port has none. -/
def vcClear (s : State) (o v : Nat) : Bool := !(decide (o < 128) && (s.port o).xoffRx.getLsbD v)

/-- R389: a packet of a SEALED partition leaves by a fabric link only under a key; without one it stays queued. -/
def mayLeave (s : State) (o : Nat) (h : Hdr) : Bool :=
  !(decide (o < 128) && mustEncrypt s h) || (activeSlot s o h.part.toNat).isSome

/-- The head of a packet's FIFO may leave: its VC has XOFF clear (R137), and it needs no key that is missing (R389). -/
def headReady (s : State) (o : Nat) (h : Held) : Bool := vcClear s o (vcOf h.pkt.hdr) && mayLeave s o h.pkt.hdr

/-- The oldest of the FIFO heads of a class that may leave; `held` are the VCs whose head may not, and nothing of theirs
overtakes it (R107, R137). -/
def headOf (s : State) (o c : Nat) : List Held → List Nat → Option Held
  | [], _ => none
  | h :: hs, held =>
    if h.pkt.hdr.cls.toNat ≠ c ∨ vcOf h.pkt.hdr ∈ held then headOf s o c hs held
    else if headReady s o h then some h
    else headOf s o c hs (vcOf h.pkt.hdr :: held)

/-- The head of a class queue, one FIFO per VC (R137). -/
def queueHead (s : State) (o c : Nat) : Option Held := headOf s o c (s.outSt o).q []

/-- Removes the first packet of an output's queue with this age. -/
def dequeue (q : List Held) (age : Nat) : List Held := q.eraseP fun h => h.age == age

/-! ### Random early drop (R156 to R158) -/

/-- MIN, MAX and MAXP of a colour's profile (R163). -/
def redProfile (s : State) (o : Nat) (c : Colour) : Nat × Nat × Nat :=
  let b := match c with | .green => 3 | .yellow => 6 | .red => 9
  (qosVal s (outObj o 1 b), qosVal s (outObj o 1 (b + 1)), qosVal s (outObj o 1 (b + 2)))

/-- The outcome of R158. -/
inductive RedResult where
  | queue | tail | drop
  deriving DecidableEq, Repr

/-- The draw of R158: low 16 bits of word 0. -/
def redDraw (s : State) (o : Nat) : Nat :=
  (ctrgen (BitVec.ofNat 64 (s.o (okey 0x4302 1))) (BitVec.ofNat 32 (devFid s).toNat) (BitVec.ofNat 32 o) 3
    (s.outSt o).c7n).x0.toNat % 65536

/-- P of R158. -/
def redP (maxp avg mn mx : Nat) : Nat := maxp * (avg - mn) / (mx - mn)

/-- Drops a C7 packet of k cells by R158. -/
def redDecide (s : State) (o : Nat) (colour : Colour) (k : Nat) : RedResult :=
  let q := queueCells s o 7
  let (mn, mx, mp) := redProfile s o colour
  let avg := (s.outSt o).avg / 1024
  if qosVal s (outObj o 1 2) < q + k then .tail
  else if avg < mn then .queue
  else if mx ≤ avg then .drop
  else if redDraw s o < redP mp avg mn mx then .drop else .queue

/-- Removes the branch of a ligature record that a copy of a request left by (R129, R130). -/
def ligDropBranch (s : State) (k : ReqKey) (p : Nat) : State :=
  { s with ligRecs := s.ligRecs.map fun r =>
      if r.key = k then { r with open_ := r.open_.filter fun b =>
        match b with | .endpoint x => x.val != p | .switch x => x.val != p | .local_ => true } else r }

/-- Counts a C7 drop (R158, R163). -/
def countRed (s : State) (o : Nat) (c : Colour) (r : RedResult) : State :=
  match r with
  | .queue => s
  | .tail => raiseLimited (s.bump (outObj o 2 0x0C) 1) ms o 0x020E (outOwner s o) [(1, o)]
  | .drop => s.bump (outObj o 2 (match c with | .green => 9 | .yellow => 0xA | .red => 0xB)) 1

/-- Counts a C7 drop and ends what waited for the packet: no completion (R80, R158), the entry released (R180). -/
def redDropped (s : State) (o : Nat) (h : Held) (r : RedResult) : State :=
  let s := if h.pkt.hdr.mcast then ligDropBranch s (hdrKey h.pkt.hdr) o else s
  let s := if isCmplOp h.pkt.hdr.op ∨ h.pkt.hdr.mcast then s else dropTag s (hdrKey h.pkt.hdr)
  countRed s o h.colour r

/-- Counts one C7 packet decided at an output (R158). -/
def countC7 (s : State) (o : Nat) : State := let st := s.outSt o; s.setOut o { st with c7n := st.c7n + 1 }

/-- A packet lost with its output: counted, and its request recovered under R420 (a) (R160). -/
def discardDown (s : State) (o : Nat) (h : Held) : State :=
  let s := s.bump (outObj o 2 0x0F) 1
  if isCmplOp h.pkt.hdr.op then s else replayTrigger s (hdrKey h.pkt.hdr)

/-- Appends a packet to an output's queue. -/
def appendOut (s : State) (o : Nat) (h : Held) : State :=
  let n := s.nextSerial
  let st := n.2.outSt o
  n.2.setOut o { st with q := st.q ++ [{ h with age := n.1 }] }

/-- A packet is queued at an output: C7 passes random early drop, an output that is down discards (R156, R160). -/
def enqueueOut (s : State) (o : Nat) (h : Held) : State :=
  if !outputUp s o then discardDown s o h
  else if h.pkt.hdr.cls.toNat = 7 then
    let r := redDecide s o h.colour (cellsOf h.len)
    let s := countC7 s o
    if r = .queue then appendOut s o h else redDropped s o h r
  else appendOut s o h

/-- An output that goes down discards its queues (R160). -/
def outputDown (s : State) (o : Nat) : State :=
  let st := s.outSt o
  st.q.foldl (fun s h => discardDown s o h) (s.setOut o { st with q := [] })

/-! ### Starting a packet (R52, R55, R84 to R87) -/

/-- The key slot a packet leaves under: none for the device's own KEYX, otherwise the active slot loaded last (R404). -/
def egressSlot (s : State) (p : Nat) (h : Held) : Option Nat :=
  if h.kind = .raw then none else activeSlot s p h.pkt.hdr.part.toNat

/-- LEN of a packet at an egress: its length on that link (R67, R142). -/
def egressLen (s : State) (o : Nat) (h : Held) : Nat :=
  36 + 16 * h.pkt.hdr.plen.toNat + (if o < 128 ∧ (egressSlot s o h).isSome then 16 else 0)

/-- Bytes held unacknowledged in a replay buffer (R57). -/
def replayBytes (st : PortSt) : Nat := st.unacked.foldl (fun a r => a + r.pkt.hdr.wireLen) 0

/-- The replay buffer admits a packet of `len` bytes (R57). -/
def replayAdmits (st : PortSt) (len : Nat) : Bool :=
  decide (replayBytes st + len ≤ 196608) && decide (st.unacked.length < 32768)

/-- The packet as it leaves: each device increments HOP at egress (R68); the device's own KEYX keeps HOP 0 (R401). -/
def egressPacket (h : Held) : Packet :=
  if h.kind = .raw then h.pkt else { h.pkt with hdr := { h.pkt.hdr with hop := h.pkt.hdr.hop + 1 } }

/-- Seals a packet for a port; the key count advances, and a key at 2^48 stops (R84 to R87). -/
def sealFor (s : State) (p : Nat) (h : Held) : WirePacket × State :=
  let pk := egressPacket h
  match egressSlot s p h with
  | none => (sealClear pk, s)
  | some i =>
    let part := pk.hdr.part.toNat
    let k := s.key p part i
    let w := sealKeyed (BitVec.ofNat 2 i) k.txKey k.txSalt k.kcnt pk
    let n := k.kcnt + 1
    let s := s.setKey p part i { k with kcnt := n, st := if 2 ^ 48 ≤ n then 2 else k.st }
    (w, if n = 2 ^ 48 then raise s 0x0109 (portOwner s p) [(1, p), (1, part), (1, i)] else s)

/-- Sends a packet on a fabric port: it takes the next LSEQ and stays in the replay buffer (R52, R55). -/
def sendOnLink (s : State) (p : Nat) (w : WirePacket) : State :=
  let st := s.port p
  let q := st.txLseq
  (s.setPort p { st with txLseq := q + 1, unacked := st.unacked ++ [{ lseq := q, pkt := w }] }).emit
    (.packet ⟨p % 128, by omega⟩ q w)

/-- Starts a packet at an output: on a link, or as a datagram of a host port (R93). -/
def startPacket (s : State) (o : Nat) (h : Held) : State :=
  if o < 128 then
    let r := sealFor s o h
    sendOnLink r.2 o r.1
  else s.emit (.hostPacket ⟨(o - 128) % 2, by omega⟩ h.ret (egressPacket h))

end Sys2Proof.Machine
end

