-- ==== Sys2Proof/Machine/Switching.lean ====
section
/-! DEFINITION. The forwarding decision's parts (03_switching_routing.md): route lookup, two-phase choice, port choice, checks at
ingress, acceptance, metering, assembly, cut-through and ligatures. -/

namespace Sys2Proof.Machine

/-! ### Route entries (R110, R111) -/

/-- An entry that nothing has written: PORT0 to PORT3 are 0xFF, and every other field 0 (R110). -/
def reDefault : BitVec 128 := 0xFFFFFFFF00000000#128

def reValid (e : BitVec 128) : Bool := bit e.toNat 127
def rePls (e : BitVec 128) : Nat := bits e.toNat 126 125
def reTph (e : BitVec 128) : Bool := bit e.toNat 124
def reNports (e : BitVec 128) : Nat := bits e.toNat 122 121 + 1
def rePrefix (e : BitVec 128) : Nat := bits e.toNat 119 96
def rePmask (e : BitVec 128) : Nat := bits e.toNat 95 64
def reIlBase (e : BitVec 128) : Nat := bits e.toNat 31 20
def reIlCnt (e : BitVec 128) : Nat := bits e.toNat 19 8

/-- The listed places, in listed order; 0xFF is an empty place (R112). -/
def rePlaces (e : BitVec 128) : List Nat :=
  ([bits e.toNat 63 56, bits e.toNat 55 48, bits e.toNat 47 40, bits e.toNat 39 32].take (reNports e)).filter (· != 0xFF)

/-- The longest valid entry no longer than `maxPls` whose PREFIX matches (R97, R111, R116). -/
def longestMatch (slot : RouteSlot) (target maxPls : Nat) : Option (BitVec 128) :=
  slot.entries.foldl (fun best e =>
    if reValid e.2 && decide (rePls e.2 ≤ maxPls) && prefixMatch (rePls e.2) (rePrefix e.2) target then
      match best with
      | none => some e.2
      | some b => if rePls b < rePls e.2 then some e.2 else some b
    else best) none

/-- Live listed ports, in listed order (R112). -/
def livePlaces (s : State) (h : Hdr) (e : BitVec 128) : List Nat := (rePlaces e).filter (portLive s h)

/-- The value of the ordered choice: CRC-32C over SRC ‖ DST in wire order (R113). -/
def orderedHash (h : Hdr) : Nat := (crc32c (beBytes 3 h.src.toNat ++ beBytes 3 h.dst.toNat)).toNat

/-- A port of the least queued choice: in ACTIVE, or a host port that is up (R113). -/
def isActivePlace (s : State) (o : Nat) : Bool := if o < 128 then (s.port o).st == .active else true

/-- The place with the fewest cells queued for the class; ties go to the earlier (R113). -/
def leastQueued (s : State) (c : Nat) (ps : List Nat) : Option Nat :=
  ps.foldl (fun best o =>
    match best with
    | none => some o
    | some b => if queueCells s o c < queueCells s b c then some o else some b) none

/-- choose_port (R113). -/
def choosePort (s : State) (h : Hdr) (e : BitVec 128) : Option Nat :=
  let live := livePlaces s h e
  if isOrdered h then live[orderedHash h % live.length]?
  else
    let act := live.filter (isActivePlace s)
    leastQueued s h.cls.toNat (if act.isEmpty then live else act)

/-! ### Two-phase routing (R116, R119) -/

/-- Intermediate list entry `i` of a slot. -/
def ilEntry (slot : RouteSlot) (i : Nat) : BitVec 32 := Sparse.get 0 slot.ilist i

/-- The own route entry of an intermediate (R116). -/
def ownEntry (slot : RouteSlot) (w : BitVec 32) : Option (BitVec 128) := longestMatch slot (recPrefix w) (recPls w)

/-- Some member prefix contains the intermediate's prefix (R462). -/
def memberPrefix (s : State) (w : BitVec 32) : Bool := s.members.isEmpty || s.members.any (recContains · w)

/-- An intermediate is usable: valid, not fenced, a member, with a live port in its own entry (R116, R462). -/
def ilUsable (s : State) (slot : RouteSlot) (h : Hdr) (w : BitVec 32) : Bool :=
  recValid w && !fencedPrefix s w && memberPrefix s w &&
    (match ownEntry slot w with | some e => !(livePlaces s h e).isEmpty | none => false)

/-- The intermediate that MID names through the local entry for DST; none when MID is not below its ILCNT (R119). -/
def intermediate (slot : RouteSlot) (h : Hdr) : Option (BitVec 32) :=
  match longestMatch slot h.dst.toNat 3 with
  | some e => if h.mid.toNat < reIlCnt e then some (ilEntry slot (reIlBase e + h.mid.toNat)) else none
  | none => none

/-- Eligible for two-phase routing (R116). -/
def twoPhaseEligible (h : Hdr) (e : BitVec 128) : Bool :=
  h.hop == 0 && !h.val && decide (3 ≤ h.cls.toNat) && !h.ord && !h.mcast && reTph e && decide (0 < reIlCnt e)

/-- Indices, within the list, of the usable intermediates of an entry (R116). -/
def usableList (s : State) (slot : RouteSlot) (h : Hdr) (e : BitVec 128) : List Nat :=
  (List.range (reIlCnt e)).filter fun i => ilUsable s slot h (ilEntry slot (reIlBase e + i))

/-- x of R116: the low 32 bits of the first output word. -/
def twoPhaseDraw (s : State) (ing : Nat) : Nat :=
  (ctrgen (BitVec.ofNat 64 (s.o (okey 0x3800 6))) (BitVec.ofNat 32 (devFid s).toNat) (BitVec.ofNat 32 ing) 2
    (Sparse.get 0 s.draws ing)).x0.toNat

/-- Counts a draw of an ingress code (R116). -/
def countDraw (s : State) (ing : Nat) : State :=
  { s with draws := Sparse.set 0 s.draws ing (Sparse.get 0 s.draws ing + 1) }

/-- A VAL 1 packet whose MID is out of range or whose intermediate is unusable returns to minimal routing, counted (R119). -/
def fallback (s : State) (ing : Nat) (h : Hdr) : State :=
  raiseLimited (s.bump (okey 0x3805 4) 1) ms 0 0x0208 deviceWide [(1, ing), (2, h.mid.toNat)]

/-- What the decision of R97 says of a packet. -/
inductive Verdict where
  | deliver
  | refuse (st : BitVec 8)
  | stale
  | hopLimit
  | noLive (target : Nat)
  | forward (o : Nat)
  deriving DecidableEq, Repr

/-- The last steps of R97 once the route is known. -/
def portVerdict (s : State) (h : Hdr) (e : BitVec 128) (target : Nat) : Verdict :=
  match choosePort s h e with
  | some o => .forward o
  | none => .noLive target

/-- The checks of R97 on a found entry: PMASK, then the hop limit. -/
def entryVerdict (s : State) (h : Hdr) (e : Option (BitVec 128)) : Option Verdict :=
  match e with
  | none => some (if h.op = Op.heartbeat then .deliver else .refuse St.accessDenied)
  | some e =>
    if !bit (rePmask e) h.part.toNat then some (.refuse St.accessDenied)
    else if s.o (okey 0x3800 3) ≤ h.hop.toNat then some .hopLimit
    else none

/-- choose_intermediate (R116): the header that travels, the intermediate if one is taken, and the counted draw. -/
def chooseIntermediate (s : State) (slot : RouteSlot) (h : Hdr) (e : BitVec 128) (ing : Nat) :
    Hdr × Option (BitVec 32) × State :=
  let us := usableList s slot h e
  if us.isEmpty then (h, none, s)
  else
    let x := twoPhaseDraw s ing
    let s := countDraw s ing
    let i := us.getD (x * us.length / 2 ^ 32) 0
    let w := ilEntry slot (reIlBase e + i)
    if recCovers w (devFid s).toNat then (h, none, s)
    else ({ h with val := true, mid := BitVec.ofNat 16 i }, some w, s)

/-- The phase of an arriving packet: its intermediate while VAL stays 1, otherwise VAL 0 and MID 0 (R97, R119). -/
def arrivePhase (s : State) (slot : RouteSlot) (h : Hdr) (ing : Nat) : Hdr × Option (BitVec 32) × State :=
  if h.val then
    let h0 := { h with val := false, mid := 0 }
    match intermediate slot h with
    | none => (h0, none, fallback s ing h)
    | some w =>
      if recCovers w (devFid s).toNat then (h0, none, s)
      else if ilUsable s slot h w then (h, some w, s)
      else (h0, none, fallback s ing h)
  else (h, none, s)

/-- Routes a packet that has an entry: the two-phase choice where it is eligible, then the port (R97). -/
def routeFrom (s : State) (slot : RouteSlot) (h : Hdr) (il : Option (BitVec 32)) (e : BitVec 128) (ing : Nat) :
    Verdict × Hdr × State :=
  match il with
  | some w => (portVerdict s h e (recPrefix w), h, s)
  | none =>
    if twoPhaseEligible h e then
      let (h', il', s') := chooseIntermediate s slot h e ing
      match il' with
      | none => (portVerdict s' h' e h'.dst.toNat, h', s')
      | some w =>
        let e' := ownEntry slot w
        match entryVerdict s' h' e' with
        | some v => (v, h', s')
        | none => (portVerdict s' h' (e'.getD e) (recPrefix w), h', s')
    else (portVerdict s h e h.dst.toNat, h, s)

/-- The decision of R97 for a packet without MCAST: the verdict, the header as it travels on, and the state. -/
def decide1 (s : State) (h : Hdr) (ing : Nat) : Verdict × Hdr × State :=
  let slot := s.routeSlot h.ep
  if !(slot.st == .serving || slot.st == .draining) then (.stale, h, s)
  else
    let (h, il, s) := arrivePhase s slot h ing
    if !h.val && h.dst == devFid s then (.deliver, h, s)
    else if fenced s h.dst.toNat then (.refuse St.fenced, h, s)
    else
      let e := match il with | some w => ownEntry slot w | none => longestMatch slot h.dst.toNat 3
      match entryVerdict s h e with
      | some v => (v, h, s)
      | none => routeFrom s slot h il (e.getD 0) ing

/-! ### Refusal and discard (R98, R80) -/

/-- Further packets of a message are discarded for 1 ms (R77). -/
def markBad (s : State) (k : ReqKey) : State := if k ∈ s.badMsgs then s else { s with badMsgs := s.badMsgs ++ [k] }

/-- Refuses a packet: a request with a completion completes, once for its message; any other packet is dropped (R98). -/
def refusePacket (s : State) (h : Held) (st : BitVec 8) : State :=
  let hd := h.pkt.hdr
  if isRequest hd.op && hasCmpl hd.op then
    let s := if 1 < pcntOf hd then markBad s (hdrKey hd) else s
    finishRequest s hd st 0 h.ret
  else if isRequest hd.op && (opInfo hd.op).isNone then finishRequest s hd st 0 h.ret
  else if st = St.fenced then s.bump (okey 0xA400 5) 1
  else s

/-- Completes a request message that gets no entry, once: the packets of its message that follow are discarded (R80, R94, R183). -/
def refuseOnce (s : State) (h : Held) (st : BitVec 8) : State :=
  let hd := h.pkt.hdr
  let s := if 1 < pcntOf hd then markBad s (hdrKey hd) else s
  enqueueIn s ingMemory .final h.ret (mkCmpl s hd st 0 0)

/-- A TAG clash under the OPID of the entry itself: the clashing message completes at its first packet, and its other packets
end with it; the earlier request continues (R80, R183). -/
def clashSame (s : State) (h : Held) (e : TagEntry) : State :=
  let i := pidxOf h.pkt.hdr
  if e.clashed.isEmpty ∨ i ∈ e.clashed then
    enqueueIn (setTag s { e with clashed := [i] }) ingMemory .final h.ret (mkCmpl s h.pkt.hdr St.formatUnsupported 0 0)
  else setTag s { e with clashed := e.clashed ++ [i] }

/-- After a discard under R97, the Blotter's record of the request is triggered (R420 (a)). -/
def afterDiscard (s : State) (h : Hdr) : State := if isCmplOp h.op then s else replayTrigger s (hdrKey h)

/-! ### Checks at ingress (R386, R388, R459, R462) -/

/-- PART is FREE. -/
def partFree (s : State) (p : Nat) : Bool := (s.part p).st == .free

/-- HFID of a host port in its owner's configuration (R388). -/
def hostFid (s : State) (h : Nat) : Fid := BitVec.ofNat 24 (s.o (partObj (hostOwner s h) 1 (5 + h)))

/-- R388: PART is accepted at this ingress. -/
def partAccepted (s : State) (ing : Nat) (h : Hdr) : Bool :=
  let p := h.part.toNat
  let req := isRequest h.op
  if ing < 128 then
    let o := portOwner s ing
    if req && keyExempt h then !partFree s p
    else if o ≠ 0 then p == o
    else if (s.port ing).peerRole = 1 then !partFree s p
    else if req then p == 0 else !partFree s p
  else if ing = 128 ∨ ing = 129 then req && p == hostOwner s (ing - 128) && h.src == hostFid s (ing - 128)
  else true

/-- Ports of R388's limit: the ingress code. Raises PART_VIOLATION and refuses or discards. -/
def partViolation (s : State) (ing : Nat) (h : Held) : State :=
  let ow := if ing < 128 then portOwner s ing else hostOwner s (ing - 128)
  let s := raiseLimited s ms ing 0x0807 ow [(1, ing), (1, h.pkt.hdr.part.toNat)]
  if isRequest h.pkt.hdr.op then refusePacket s h St.accessDenied else s.bump (okey 0xFFFF 2) 1

/-- A class the membership check covers: requests of C1, C3, C5, C7 (R462). -/
def memberChecked (h : Hdr) : Bool := isRequest h.op && h.cls.toNat % 2 == 1

/-- Ends a packet that fails a check before the decision; none: it passes (R62, R386, R388, R459, R462). What this device originates
for a partition that is being removed is not emitted (R411). -/
def ingressReject (s : State) (ing : Nat) (h : Held) : Option State :=
  let hd := h.pkt.hdr
  let p := hd.part.toNat
  if h.kind != .wire then (if removing s p then some s else none)
  else if fenced s hd.src.toNat then some (s.bump (okey 0xA400 5) 1)
  else if removing s p then some (s.bump (okey 0x2004 1) 1)
  else if !partAccepted s ing hd then some (partViolation s ing h)
  else if isRequest hd.op ∧ hdrKey hd ∈ s.badMsgs then some s
  else if (s.part p).st = .sealing ∧ isRequest hd.op ∧ ¬ keyExempt hd then some (refusePacket s h St.busy)
  else if memberChecked hd ∧ ¬ isMember s hd.src.toNat ∧ hdrKey hd ∉ s.grandfathered then
    some (refusePacket (s.bump (okey 0xA500 7) 1) h St.accessDenied)
  else if hd.val ∧ hd.cls.toNat < 3 then some (refusePacket s h St.formatUnsupported)
  else none

/-! ### Meters (R150 to R155) -/

/-- The meter an ingress binds to a class (R151). DESIGN CHOICE (notes/assumptions/77.md): a binding to a meter that is not VALID acts as
none, and a written binding acts at once. -/
def boundMeter (s : State) (ing c : Nat) : Option Nat :=
  if ing < 130 ∧ (c = 1 ∨ c = 3 ∨ c = 5 ∨ c = 7) then
    let m := s.o (outObj ing 0 (0x30 + c))
    if m = 0xFFFF then none
    else if bit (s.meter m).word.toNat 191 then some m else none
  else none

/-- The colour-blind marker (R152): colour, TP and TC after. -/
def markColour (tp tc b : Nat) : Colour × Nat × Nat :=
  if tp < b then (.red, tp, tc) else if tc < b then (.yellow, tp - b, tc) else (.green, tp - b, tc - b)

/-- Colours a packet at its ingress and counts its bytes (R152, 0x4300.04-.06). -/
def meterPacket (s : State) (ing : Nat) (h : Held) : Colour × State :=
  if h.kind != .wire then (.green, s)
  else
    match boundMeter s ing h.pkt.hdr.cls.toNat with
    | none => (.green, s)
    | some m =>
      let v := s.meter m
      let (c, tp, tc) := markColour v.tp v.tc h.len
      let v := { v with tp := tp, tc := tc }
      let v := match c with
        | .green => { v with green := v.green + h.len }
        | .yellow => { v with yellow := v.yellow + h.len }
        | .red => { v with red := v.red + h.len }
      let s := s.setMeter m v
      if c = .red ∧ h.pkt.hdr.cls.toNat ≠ 7 then
        let s := s.bump (outObj ing 2 0x0E) 1
        if ing < 128 then
          let hold : Hold := { port := ⟨ing % 128, by omega⟩, cls := h.pkt.hdr.cls.toNat, meter := m }
          if s.holds.any (fun x => x.port == hold.port && x.cls == hold.cls) then (c, s)
          else
            let s := ({ s with holds := s.holds ++ [hold] }).bump (outObj ing 2 0x0D) 1
            (c, raiseLimited s ms ing 0x020F (portOwner s ing) [(1, ing), (1, hold.cls), (2, m)])
        else (c, s)
      else (c, s)

/-! ### Acceptance (R178 to R183, R417 to R425) -/

/-- The accepting device takes the request here (R178). -/
def isAccepting (s : State) (ing : Nat) (h : Held) : Bool :=
  match h.kind with
  | .wire => if ing < 128 then h.pkt.hdr.hop == 0 && (s.port ing).peerRole != 1 else true
  | .unit => decide (192 ≤ ing)
  | _ => false

/-- HELD of a forwarded request (R419). -/
def heldForwarded (h : Hdr) : Bool :=
  (h.cls == 3 || h.cls == 5) && pcntOf h == 1 && decide (h.plen.toNat ≤ 1)

/-- RKIND of the record a request takes: 3 originated here, 2 performed here, 1 forwarded (R418). -/
def recordKind (h : Held) (local_ : Bool) : Nat := if h.kind = .unit then 3 else if local_ then 2 else 1

/-- The outcome of acceptance. -/
inductive Accepted where
  | go (s : State)
  | ended (s : State)
  | wait

/-- Takes the Blotter's record if the request has none and its class allows one (R417, R424). -/
def acceptJournal (s : State) (h : Held) (local_ : Bool) : State :=
  let hd := h.pkt.hdr
  if hd.cls = 7 ∨ (findJournal s (hdrKey hd)).isSome then s
  else
    let k := recordKind h local_
    takeJournal s h.tile hd (if pcntOf hd = 1 then h.pkt.payload else []) k (k != 1 || heldForwarded hd) h.ingress

/-- A request that meets an outstanding entry with its SRC, PART and TAG (R183, R425). -/
def acceptAgain (s : State) (h : Held) (e : TagEntry) : Accepted :=
  let hd := h.pkt.hdr
  let i := pidxOf hd
  if e.key.opid ≠ hd.opid then .ended (refuseOnce s h St.formatUnsupported)
  else if !hd.retry then
    if i ∈ e.held then .ended (clashSame s h e) else .go (setTag s { e with held := e.held ++ [i] })
  else if e.retrying ∧ i ∉ e.held then .go (setTag s { e with held := e.held ++ [i] })
  else if e.att < 3 then
    let s := setTag s { e with held := [i], retrying := true, att := e.att + 1 }
    let s := match findJournal s e.key with
      | some j => setJournal s { j with att := j.att + 1, tlast := tb32 s }
      | none => s
    .go (s.bump (okey 0xA000 4) 1)
  else
    let s := if 1 < pcntOf hd then markBad s (hdrKey hd) else s
    .ended (finishRequest s hd St.replayExhausted 3)

/-- The request is delivered inside this device. -/
def isLocal (s : State) (h : Hdr) : Bool := h.dst == devFid s && !h.mcast

/-- The request will need a ligature record of its own (R130). -/
def needsLig (s : State) (h : Hdr) : Bool := h.mcast && hasCmpl h.op && !(s.ligRecs.any fun x => x.key == hdrKey h && !x.closed)

/-- The request, or its LOCAL copy, will need a completed-operation record of its own (R427). -/
def needsOp (s : State) (h : Hdr) : Bool :=
  (isLocal s h || (h.mcast && bit (Sparse.get 0 s.ligs (h.dst.toNat % 4096)).toNat 249)) && h.op ∈ onceOps && (findOp s h).isNone &&
    !inTileWindow s h

/-- Blotter entries that taking a request takes in tile `t`: a journal record, a ligature record, and an entry for a
completed-operation record where no pair is half empty. -/
def blotterNeed (s : State) (h : Held) (journal : Bool) (t : Nat) : Nat :=
  b2n (journal && h.tile.val == t) + b2n (needsLig s h.pkt.hdr && h.tile.val == t) +
    b2n (needsOp s h.pkt.hdr && crcTile s h.pkt.hdr.src h.pkt.hdr.opid == t && (s.opRecs.filter fun r => r.tile.val == t).length % 2 == 0)

/-- The tile whose Blotter lacks entries that the request needs (R426). -/
def blotterShort (s : State) (h : Held) (journal : Bool) : Option Nat :=
  [h.tile.val, crcTile s h.pkt.hdr.src h.pkt.hdr.opid].find? fun t =>
    blotterNeed s h journal t != 0 && decide (blotterSize s t < blotterUsed s t + blotterNeed s h journal t)

/-- A request without a journal record takes one, unless its class is C7 (R417, R424). -/
def wantsJournal (s : State) (h : Hdr) : Bool := h.cls != 7 && (findJournal s (hdrKey h)).isNone

/-- Accepts a request that has a completion: its table entry and its Blotter record (R178, R417). It waits for the Blotter entries that
it needs (R426). -/
def acceptRequest (s : State) (ing : Nat) (h : Held) (local_ : Bool) : Accepted :=
  let hd := h.pkt.hdr
  if !(isRequest hd.op && hasCmpl hd.op) || h.kind == .replay || h.kind == .final || h.kind == .raw then .go s
  else if isAccepting s ing h then
    match s.tags.find? fun t => t.key.src == hd.src && t.key.part == hd.part && t.key.tag == hd.tag with
    | some e => if (blotterShort s h false).isSome then .wait else acceptAgain s h e
    | none =>
      if tagFree s hd.part.toNat ing && (blotterShort s h (wantsJournal s hd)).isNone then
        let e : TagEntry := { key := hdrKey hd, op := hd.op, cls := hd.cls, dst := hd.dst, ingress := h.ingress,
                              quill := decide (192 ≤ ing), ret := h.ret, held := [pidxOf hd], retrying := hd.retry }
        .go (acceptJournal { s with tags := s.tags ++ [e] } h local_)
      else .wait
  else if h.kind = .unit ∨ local_ then
    if (blotterShort s h (wantsJournal s hd)).isSome then .wait else .go (acceptJournal s h local_)
  else .go s

/-- Notes a request that waits: TAG_TABLE_FULL, limited for the whole device, or BLOTTER_FULL, limited per tile (R181, R426, R597). -/
def noteWait (s : State) (ing : Nat) (h : Held) : State :=
  let k := hdrKey h.pkt.hdr
  if isAccepting s ing h ∧ ¬ (s.tags.any fun t => t.key.src == k.src && t.key.part == k.part && t.key.tag == k.tag) ∧
      ¬ tagFree s h.pkt.hdr.part.toNat ing then
    raiseLimited s ms 0 0x030A h.pkt.hdr.part.toNat [(1, ing), (1, h.pkt.hdr.part.toNat)]
  else
    let t := (blotterShort s h (wantsJournal s h.pkt.hdr)).getD h.tile.val
    raiseLimited s ms t 0x0907 deviceWide [(1, t)]

/-! ### Assembly (R73 to R77) -/

/-- The message's header: that of PIDX 0 (R73). -/
def asmHdr (h : Hdr) (pcnt : Nat) : Hdr :=
  if h.op = Op.cmplData then { h with addr := BitVec.ofNat 56 (h.addr.toNat / 2 ^ 24 * 2 ^ 24 + (pcnt - 1)) }
  else if isMulti h.op then { h with aux := BitVec.ofNat 32 (h.aux.toNat % 2 ^ 20) } else h

/-- The body of parts 0 to n - 1 in PIDX order. -/
def asmBody (parts : List (Nat × List Byte)) (n : Nat) : List Byte :=
  (List.range n).flatMap fun i => ((parts.find? fun p => p.1 == i).map (·.2)).getD []

/-- Hands a whole message to the unit that serves it. -/
def deliverMsg (s : State) (ing : BitVec 8) (m : Msg) : State :=
  { s with delivered := s.delivered ++ [{ msg := m, ingress := ing }] }

/-- The Blotter keeps the body of a request performed here (R419). -/
def keepBody (s : State) (m : Msg) : State :=
  match findJournal s (hdrKey m.hdr) with
  | some j => if j.rkind = 2 ∨ j.rkind = 3 then setJournal s { j with body := m.body } else s
  | none => s

/-- What assembling one packet gives. -/
inductive AsmResult where
  | partial_ (s : State)
  | whole (s : State) (m : Msg)
  | malformed (s : State)

/-- The packet breaks R77 against its message. -/
def malformedPart (a : Option Asm) (h : Hdr) : Bool :=
  let n := pcntOf h
  let i := pidxOf h
  decide (n ≤ i) || (i + 1 != n && h.plen != 128) ||
    (match a with | some a => a.pcnt != n || a.hdr.op != h.op || a.hdr.cls != h.cls || a.hdr.dst != h.dst | none => false)

/-- Assembles a packet of a message at its target (R75 to R77). -/
def assemble (s : State) (ing : BitVec 8) (k : ReqKey) (p : Packet) : AsmResult :=
  let h := p.hdr
  let a := s.asm.find? fun x => x.key == k
  let n := pcntOf h
  let i := pidxOf h
  if malformedPart a h then .malformed { s with asm := s.asm.filter fun x => x.key != k }
  else if n = 1 then .whole s { hdr := asmHdr h 1, body := p.payload }
  else
    match a with
    | none => .partial_ { s with asm := s.asm ++ [{ key := k, hdr := h, pcnt := n, parts := [(i, p.payload)], ingress := ing }] }
    | some x =>
      if x.parts.any (fun q => q.1 == i) then .partial_ s
      else
        let x := { x with parts := x.parts ++ [(i, p.payload)], hdr := if i = 0 then h else x.hdr }
        if x.parts.length = n then
          .whole { s with asm := s.asm.filter fun y => y.key != k }
            { hdr := asmHdr x.hdr n, body := asmBody x.parts n }
        else .partial_ { s with asm := s.asm.map fun y => if y.key = k then x else y }

/-! ### Delivery inside the device (R99) -/

/-- An EPOCH notice whose 16-byte payload names KIND 0 or 1; other kinds are reserved (R124). -/
def epochFormed (m : Msg) : Bool := m.body.length == 16 && decide (leAt m.body 0 1 < 2)

/-- A notice that reaches this device applies nothing here and completes OK: DEDUCED from R124, which speaks of endpoints; a reserved
KIND completes FORMAT_UNSUPPORTED (R12). The copy that LOCAL of a ligature delivers is completed by its record instead (R130). -/
def epochHere (s : State) (m : Msg) : State :=
  if m.hdr.mcast then s else complete s ingScribe m.hdr (if epochFormed m then St.ok else St.formatUnsupported) 0 0

/-- A whole message goes to the unit that serves it. A RESULT, which no unit of the device receives, ends: DEDUCED. A SNOOP has no
agent here. -/
def handOver (s : State) (h : Held) (m : Msg) : State :=
  if m.hdr.op = Op.epoch then epochHere s m
  else if m.hdr.op = Op.result ∨ m.hdr.op = Op.snoop then s
  else deliverMsg (keepBody s m) h.ingress m

/-! ### Forwarding (R101, R102, R128) -/

/-- Whether a packet cuts through (R101, R149): from a fabric port to a port of the same tile that holds nothing. -/
def cutsThrough (s : State) (ing o : Nat) (h : Held) : Bool :=
  h.kind == .wire && decide (ing < 128) && decide (o < 128) && decide (ing / 8 = o / 8) && (s.port o).st == .active &&
    (s.outSt o).q.isEmpty && (s.port o).resend.isEmpty && decide ((s.port ing).rate ≤ (s.port o).rate) &&
    vcClear s o (vcOf h.pkt.hdr) && mayLeave s o h.pkt.hdr && !h.pkt.hdr.mcast && tokensOk s o h.pkt.hdr.cls.toNat &&
    replayAdmits (s.port o) (egressLen s o h)

/-- The tile of an output: a host port is reached through the packet's own tile (R102). -/
def tileOfOutput (o : Nat) (t : Tile) : Tile := if o < 128 then ⟨o / 8 % 16, by omega⟩ else t

/-- forward(pkt): cut-through, the class queue of an output of this tile, or the spine (R101, R102). -/
def forwardTo (s : State) (ing o : Nat) (h : Held) : State :=
  let s := if isCmplOp h.pkt.hdr.op then s else noteEgress s (hdrKey h.pkt.hdr) o
  if cutsThrough s ing o h then
    let r := if h.pkt.hdr.cls.toNat = 7 then redDecide s o h.colour (cellsOf h.len) else .queue
    let s := if h.pkt.hdr.cls.toNat = 7 then countC7 s o else s
    if r = .queue then
      startPacket (chargeTokens (s.bump (okey 0x3805 8) 1) o h.pkt.hdr.cls.toNat (egressLen s o h)) o h
    else redDropped s o h r
  else
    let d := tileOfOutput o h.tile
    if d = h.tile then enqueueOut s o h
    else { s with spine := s.spine ++ [{ src := h.tile, dst := d, out := o, held := h }] }

/-! ### Ligatures (R126 to R133) -/

def ligEntry (s : State) (i : Nat) : BitVec 256 := Sparse.get 0 s.ligs i
def ligValid (e : BitVec 256) : Bool := bit e.toNat 255
def ligOwner (e : BitVec 256) : Nat := bits e.toNat 254 250
def ligLocal (e : BitVec 256) : Bool := bit e.toNat 249

/-- MCAST is allowed with this packet (R127). -/
def mcastAllowed (h : Hdr) : Bool :=
  (h.op == Op.trigger || h.op == Op.epoch || (h.op == Op.bulkStore && pcntOf h == 1) ||
    (h.op == Op.result && decide (pcntOf h ≤ 2))) && opAllowed h.op h.cls && h.dst.toNat / 4096 == 0

/-- Caps a count at 4,095 (R132). -/
def cap4095 (n : Nat) : Nat := min n 4095

/-- The CMPL with DELIV and FENCD (R78, R130). -/
def ligCmpl (s : State) (h : Hdr) (deliv fencd : Nat) : Packet :=
  let c := mkCmpl s h St.ok 0 0
  { c with hdr := { c.hdr with addr := BitVec.ofNat 56 (c.hdr.addr.toNat + cap4095 deliv * 4096 + cap4095 fencd) } }

/-- The request header a ligature record answers. -/
def ligHdr (r : LigRec) : Hdr :=
  { (default : Hdr) with cls := r.cls, ep := r.ep, src := r.key.src, part := r.key.part, tag := r.key.tag, opid := r.key.opid,
                         flg := if r.retry then flagRetry else 0 }

/-- A branch that reports by aggregate CMPL (R130). -/
def Branch.isSwitch : Branch → Bool
  | .switch _ => true
  | _ => false

/-- What is left of a record after it closes: the switch peers whose aggregate CMPL has not come (R131). -/
def closedLig (r : LigRec) : List LigRec :=
  let late := r.open_.filter Branch.isSwitch
  if late.isEmpty then [] else [{ r with open_ := late, closed := true }]

/-- Closes a record: the sender's CMPL, or the aggregate CMPL out through the arrival port (R130, R131). -/
def closeLig (s : State) (r : LigRec) : State :=
  let s := { s with ligRecs := (s.ligRecs.filter fun x => !(x.key == r.key)) ++ closedLig r }
  let c := ligCmpl s (ligHdr r) r.deliv r.fencd
  if r.hop = 0 then originate s ingMemory .unit [c]
  else if r.ingress.toNat < 128 then
    let n := s.nextSerial
    enqueueOut n.2 r.ingress.toNat (mkHeld s ingMemory n.1 c.hdr.wireLen .unit none c)
  else originate s ingMemory .unit [c]

/-- Stores a record, or closes it once every branch has reported (R131). -/
def updateLig (s : State) (r : LigRec) : State :=
  if r.open_.isEmpty then closeLig s r
  else { s with ligRecs := s.ligRecs.map fun x => if x.key = r.key then r else x }

/-- A branch of a replicated packet: sent, pruned as fenced, or down (R129). -/
inductive BranchState where
  | sent | pruned | down
  deriving DecidableEq, Repr

def branchState (s : State) (h : Hdr) (p : Nat) : BranchState :=
  if fenced s (s.port p).peerFid.toNat then .pruned else if portLive s h p then .sent else .down

/-- Branch ports of an entry, but for the arrival port (R128). -/
def branchPorts (e : BitVec 256) (ing : Nat) : List Nat := (List.range 128).filter fun n => bit e.toNat n && n != ing

/-- How a branch port reports (R130). -/
def branchOf (s : State) (p : Nat) : Branch :=
  if (s.port p).peerRole = 1 then .switch ⟨p % 128, by omega⟩ else .endpoint ⟨p % 128, by omega⟩

/-- The open record of a ligature packet. -/
def findLig (s : State) (k : ReqKey) : Option LigRec := s.ligRecs.find? fun x => x.key == k && !x.closed

/-- A branch gets no copy: it counts in FENCD when it is fenced, and nowhere when it is down (R129). -/
def ligSkipBranch (s : State) (k : ReqKey) (p fencd : Nat) : State :=
  let s := ligDropBranch s k p
  { s with ligRecs := s.ligRecs.map fun r => if r.key = k then { r with fencd := cap4095 (r.fencd + fencd) } else r }

/-- One branch port of the tile that replicates (R128, R129). -/
def copyToPort (h : Held) (s : State) (p : Nat) : State :=
  match branchState s h.pkt.hdr p with
  | .sent => enqueueOut s p h
  | .pruned => ligSkipBranch (s.bump (okey 0x3805 5) 1) (hdrKey h.pkt.hdr) p 1
  | .down => ligSkipBranch (s.bump (okey 0x3805 7) 1) (hdrKey h.pkt.hdr) p 0

/-- Copies to the branch ports of one tile; the record closes if no branch is left to report (R128 to R131). -/
def copyToPorts (s : State) (h : Held) (ps : List Nat) : State :=
  let s := ps.foldl (copyToPort h) s
  match findLig s (hdrKey h.pkt.hdr) with
  | some r => updateLig s r
  | none => s

/-- Marks the copies that cross the spine for the branches of another tile. -/
abbrev ligOut : Nat := 255

/-- LOCAL: one copy inside the device; a RESULT of two packets is assembled by count (R127, R130). -/
def ligHere (s : State) (h : Held) : State :=
  match assemble s h.ingress (hdrKey h.pkt.hdr) h.pkt with
  | .partial_ s => s
  | .malformed s => s
  | .whole s m => handOver s h m

/-- Replicates an allowed ligature packet (R128 to R130). Each tile judges its own branches when it copies. -/
def replicateCopies (s : State) (ing : Nat) (h : Held) (e : BitVec 256) : State :=
  let hd := h.pkt.hdr
  let ps := branchPorts e ing
  let r : LigRec := { tile := h.tile, key := hdrKey hd, lig := BitVec.ofNat 12 hd.dst.toNat, cls := hd.cls, ep := hd.ep,
                      retry := hd.retry, hop := hd.hop, ingress := h.ingress, deliv := b2n (ligLocal e), fencd := 0,
                      open_ := ps.map (branchOf s) }
  let s := if hasCmpl hd.op then
      noteBlotter { s with ligRecs := (s.ligRecs.filter fun x => !(x.key == r.key && x.closed)) ++ [r] } h.tile.val
    else s
  let s := if ligLocal e then ligHere s h else s
  let others := (List.range 16).filter fun t => t != h.tile.val && ps.any fun p => p / 8 == t
  let s := others.foldl (fun s t =>
    { s with spine := s.spine ++ [{ src := h.tile, dst := ⟨t % 16, by omega⟩, out := ligOut, held := h,
                                    ports := ps.filter fun p => p / 8 == t }] }) s
  copyToPorts s h (ps.filter fun p => p / 8 == h.tile.val)

/-- replicate(pkt) (R97, R127). -/
def replicate (s : State) (ing : Nat) (h : Held) : State :=
  let hd := h.pkt.hdr
  let e := ligEntry s (hd.dst.toNat % 4096)
  if !mcastAllowed hd then refusePacket s h St.formatUnsupported
  else if hd.part.toNat ≠ ligOwner e ∨ ¬ ligValid e then refusePacket s h St.accessDenied
  else if s.o (okey 0x3800 3) ≤ hd.hop.toNat then
    afterDiscard (raiseLimited (s.bump (okey 0x3805 2) 1) ms 0 0x0206 deviceWide [(1, ing), (4, hd.dst.toNat)]) hd
  else replicateCopies s ing { h with pkt := { h.pkt with hdr := { hd with val := false, mid := 0 } } } e

end Sys2Proof.Machine
end

