-- ==== Sys2Proof/Machine/Health.lean ====
section
/-! DEFINITION. Signs of life of peers (R455), the holding of coherence domains (R202), and ports and outputs going down
(R60, R160, R420). -/

namespace Sys2Proof.Machine

/-- The prefix record that names one FID (R117). -/
def fidRec (f : Fid) : BitVec 32 := BitVec.ofNat 32 (2 ^ 31 + 3 * 2 ^ 29 + f.toNat)

/-- A peer as an event names it: a FID, or a prefix laid out as R117 (R598). -/
def peerItem (w : BitVec 32) : Nat := if recPls w = 3 then recPrefix w else w.toNat

/-- A peer shows life: a dead one lives again and PEER_ALIVE is raised (R455). -/
def showAlive (s : State) (w : BitVec 32) : State :=
  let s := if w ∈ s.alive then s else { s with alive := s.alive ++ [w] }
  if w ∈ s.dead then
    raise { s with dead := s.dead.filter (· != w) } 0x090A deviceWide [(4, peerItem w)]
  else s

/-- A packet or item has arrived on a port: its peer is alive (R455). -/
def portHeard (s : State) (p : Nat) : State :=
  let f := (s.port p).peerFid
  if f = 0 then s else showAlive s (fidRec f)

/-- Holds every ACTIVE domain with an agent that satisfies `bad`, given its partition (R202). -/
def holdAgents (s : State) (cause : Nat) (bad : State → Nat → Fid → Bool) : State :=
  (List.range 32).foldl (fun s d =>
    if (s.domain d).st = .active then
      match (List.range 16).find? fun a => agentFid s d a != 0 && bad s (s.o (domObj d 0 1)) (agentFid s d a) with
      | some a => holdDomain s d cause a
      | none => s
    else s) s

/-- The route to an agent, for packets of partition `p` under a slot, has no live port (R113, R202 cause 2). -/
def routeDead (ep : Bool) (s : State) (p : Nat) (f : Fid) : Bool :=
  let h : Hdr := { (default : Hdr) with ver := 1, cls := 2, dst := f, part := BitVec.ofNat 5 p, ep := ep }
  match longestMatch (s.routeSlot ep) f.toNat 3 with
  | some e => (livePlaces s h e).isEmpty
  | none => false

/-- Holds the domains with an agent inside a fence, or that have lost the route to an agent, by the slot that originated packets use
(R202, R459). -/
def checkAgentRoutes (s : State) : State := holdAgents s 2 fun s p f => fenced s f.toNat || routeDead (origEp s) s p f

/-- Every entry whose latest attempt left by an output is triggered (R420 (a)). -/
def triggerOutput (s : State) (o : Nat) : State :=
  ((s.journal.filter fun j => j.egress.toNat == o && j.rkind != 2).map (·.key)).foldl replayTrigger s

/-- RATES of a port permits a rate: bit 0 for 1 (212.5 Gb/s), bit 1 for 2 (106.25 Gb/s) (R95). -/
def ratePermitted (s : State) (p rate : Nat) : Bool := bit (s.o (portObj p 0 2)) (rate - 1)

/-- The rate a port trains at first (R40). -/
def firstRate (s : State) (p : Nat) : Nat := if ratePermitted s p 1 then 1 else 2

/-- A fabric port goes down from ACTIVE or RETRAIN (R60, R96, R160, R420); it will train at its first rate again (R40), and the space
its queues held may change XOFF bits (R64). -/
def portDown (s : State) (p : Nat) (to_ : LinkSt) (code : Nat) : State :=
  let st := s.port p
  let s := s.setPort p { st with st := to_, rate := 0, realign := false, unacked := [], resend := [], refusing := false,
                                 xoffRx := 0, ackOwed := 0, lastNak := none, nakTxRun := 0, nakRxLast := none, nakRxRun := 0,
                                 capxRun := 0, tryRate := firstRate s p, fails := 0, rxHeld := [], rxBad := false }
  let s := outputDown s p
  let s := triggerOutput s p
  let s := raise s 0x0102 (portOwner s p) [(1, p), (1, code)]
  updateAllXoff (checkAgentRoutes s)

/-- Moves a port to DETECT or DISABLED: it goes down when it leaves ACTIVE or RETRAIN (R39, R60). -/
def portTo (s : State) (p : Nat) (to_ : LinkSt) (code : Nat) : State :=
  if linkCarries s p then portDown s p to_ code
  else s.modPort p fun st => { st with st := to_, rate := 0, realign := false, capxRun := 0, rxHeld := [], rxBad := false }

/-- A host port's link goes down: its queues are discarded and their requests recovered (R160, R420). -/
def hostDown (s : State) (h : Nat) : State :=
  if (s.hostP h).up then
    let s := s.setHostP h { up := false, rate := 0 }
    updateAllXoff (triggerOutput (outputDown s (128 + h)) (128 + h))
  else s

end Sys2Proof.Machine
end

