-- ==== Sys2Proof/Machine/Domains.lean ====
section
/-! DEFINITION. Control of coherence domains: ACTIVATE, TEARDOWN, RESET and the directory slices (R189, R200, R201, R203,
R220). -/

namespace Sys2Proof.Machine

/-! ### Domain control (R189, R200, R201, R203, R220) -/

/-- Windows of a domain: (SPACE, number). -/
def windowsOf (s : State) (d : Nat) : List (Nat × Nat) :=
  ((List.range 8).map fun w => s.o (domObj d 2 (w + 1))).filterMap fun v =>
    if v / 2 ^ 24 < 2 then some (v / 2 ^ 24, v % 2 ^ 24) else none

/-- Physical base and size of a window granted to the owning partition at home (R188). -/
def windowExtent (s : State) (p : Nat) (w : Nat × Nat) : Option (Nat × Nat) :=
  if w.1 = 0 then
    if 128 ≤ w.2 then none
    else match sliceOf s p w.2 with
      | some d => if d ∈ dirSliceList s then none else some (physSlice d, 2 ^ 26)
      | none => none
  else match findFolio s p w.2 with
    | some (_, f) => if f.st = .granted ∧ folHomek f.word = 0 then some (physStack (folLfolio f.word), 2 ^ 28) else none
    | none => none

/-- The partition of a domain. -/
def domainPart (s : State) (d : Nat) : Nat := s.o (domObj d 0 1)

/-- Directory entries that the windows of the other domains in use take. -/
def dirUsedBut (s : State) (d : Nat) : Nat :=
  ((List.range 32).map fun e =>
    if e = d ∨ (s.domain e).st = .idle then 0
    else ((windowsOf s e).map fun w => if w.1 = 0 then 524288 else 2097152).foldl (· + ·) 0).foldl (· + ·) 0

/-- ACTIVATE passes (R201). -/
def activateOk (s : State) (d : Nat) : Bool :=
  let p := domainPart s d
  let fids := ((List.range 16).filter fun a => isCaching s d a || agentFid s d a != 0).map (agentFid s d)
  let ws := windowsOf s d
  let need := (ws.map fun w => if w.1 = 0 then 524288 else 2097152).foldl (· + ·) 0
  fids.all (· != 0) && decide fids.Nodup && ws.all (fun w => (windowExtent s p w).isSome) && decide ws.Nodup &&
    (ws.all fun w => !((List.range 32).any fun e => e != d && domainPart s e == p && (s.domain e).st != .idle && w ∈ windowsOf s e)) &&
    decide (need + dirUsedBut s d ≤ 67108864)

/-- Every directory entry of a domain's windows is I. -/
def clearDir (s : State) (d : Nat) : State :=
  let ex := (windowsOf s d).filterMap (windowExtent s (domainPart s d))
  { s with dir := Sparse.drop (fun l => ex.any fun x => x.1 ≤ 128 * l && 128 * l < x.1 + x.2) s.dir }

/-- CONTROL 1, ACTIVATE (R200, R201). -/
def setActivate (s : State) (by_ : Caller) (d : Nat) : Ans :=
  guardRole s (oprOver s by_ (domainPart s d)) <|
  let v := s.domain d
  guardValue s (v.st == .idle || v.st == .tornDown) <|
  if activateOk s d then Ans.ok (checkAgentRoutes (clearDir (s.setDomain d { st := .active }) d))
  else Ans.no (raise s 0x0305 (domainPart s d) [(1, d)]) Ds.valueRejected

/-- Completes the C1 requests of a domain with FENCED and lets its C3 requests run as on ordinary memory (R200, R203). -/
def fenceDomain (s : State) (d : Nat) : State :=
  let ts := s.txns.filter fun t => t.domain.val == d
  let js := ((ts.filter Txn.isMem).filterMap (·.job)).eraseDups
  let s := { s with txns := s.txns.filter fun t => !(t.domain.val == d || (t.isMem && t.job.any (· ∈ js))) }
  let s := (ts.filter fun t => t.agent.isSome && t.place.isNone).foldl (fun s t => complete s ingMemory t.req.hdr St.fenced 0 0) s
  let s := js.foldl serveJob s
  wake s

/-- CONTROL 2, TEARDOWN (R203). -/
def setTeardown (s : State) (by_ : Caller) (d : Nat) : Ans :=
  guardRole s (oprOver s by_ (domainPart s d)) <|
  let v := s.domain d
  guardValue s (v.st == .active || v.st == .held) <|
  let s := fenceDomain (s.setDomain d { v with st := .tornDown }) d
  Ans.ok (raise s 0x0304 (domainPart s d) [(1, d)])

/-- CONTROL 3, RESET (R200). -/
def setDomainReset (s : State) (by_ : Caller) (d : Nat) : Ans :=
  guardRole s (oprOver s by_ (domainPart s d)) <|
  guardValue s ((s.domain d).st == .tornDown) <|
  Ans.ok (s.setDomain d {})

def execDomainActivate (by_ : Caller) (d : Part) (s : State) : Host.Outcome State Fault Refusal := (setActivate s by_ d.val).out by_
def execTeardown (by_ : Caller) (d : Part) (s : State) : Host.Outcome State Fault Refusal := (setTeardown s by_ d.val).out by_
def execDomainReset (by_ : Caller) (d : Part) (s : State) : Host.Outcome State Fault Refusal := (setDomainReset s by_ d.val).out by_

/-- Every domain is IDLE. -/
def allDomainsIdle (s : State) : Bool := s.domains.all fun e => e.2.st == .idle

/-- DIR_SLICES (R189). -/
def setDirSlices (s : State) (by_ : Caller) (v : Nat) : Ans :=
  let ns := [bits v 7 0, bits v 15 8, bits v 23 16, bits v 31 24]
  guardRole s (isOpr s by_) <|
  guardRange s (ns.all (sliceExists s)) <|
  if !allDomainsIdle s then Ans.no s Ds.unitNotStopped
  else guardValue s (ns.all fun n => !sliceGranted s n && !isWorkSlice s n) (Ans.ok (s.setO (okey 0x6000 1) v))

def execDirSlices (by_ : Caller) (v : BitVec 32) (s : State) : Host.Outcome State Fault Refusal :=
  (setDirSlices s by_ v.toNat).out by_

end Sys2Proof.Machine
end

