-- ==== Sys2Proof/Machine/Folios.lean ====
section
/-! DEFINITION. Folio records and their revocation (R204 to R210), published regions (R211), and request-table reserves
(R182). -/

namespace Sys2Proof.Machine

/-! ### Folio records (R205, R311, R439) -/

/-- Records other than `i` that are in use. -/
def otherFolios (s : State) (i : Nat) : List Folio := (s.folios.filter fun e => e.1 != i && e.2.st != .free).map (·.2)

/-- The owner takes resource writes of folio records: OPEN or SEALED (R386). -/
def folioOwnerOk (s : State) (p : Nat) : Bool :=
  match (s.part p).st with | .open_ | .sealed => true | _ => false

/-- REMOTE_OK of a partition (R311). -/
def remoteOk (s : State) (p : Nat) : Bool := s.o (okey (0x5320 + p) 0xC) == 1

/-- A stack with a retired channel (R439). -/
def stackHurt (s : State) (lfolio : Nat) : Bool := s.dumap.stkch.getD (lfolio / 384) 0 != 0

/-- A record write is accepted (R205, R311, R386, R439). -/
def folioOk (s : State) (i : Nat) (w : BitVec 256) : Bool :=
  let f := s.folio i
  let o := folOwner w
  folValid w && (f.st == .free || (f.st == .revoked && !f.scrubFailed)) && folHomek w != 3 && partConfigured s o &&
    folioOwnerOk s o && !((otherFolios s i).any fun x => folOwner x.word == o && folPfolio x.word == folPfolio w) &&
    (folHomek w != 0 || (decide (folLfolio w < 2304) && !stackHurt s (folLfolio w) &&
      !((otherFolios s i).any fun x => folHomek x.word == 0 && folLfolio x.word == folLfolio w))) &&
    folRaddr w % 2 ^ 28 == 0 && (folHomek w == 0 || !isSealed s o || remoteOk s o)

/-- One FOLIO_WRITE record: a valid record enters GRANTED (R205, R207). -/
def writeFolio (s : State) (r : BitVec 32 × BitVec 256) : Bool × State :=
  let i := r.1.toNat
  if i < 65536 ∧ folioOk s i r.2 then (true, s.setFolio i { word := r.2, st := .granted })
  else (false, raise s 0x0309 (folOwner r.2) [(2, i)])

def setFolios (s : State) (by_ : Caller) (recs : List (BitVec 32 × BitVec 256)) : Ans :=
  guardRole s (isOpr s by_) (writeRecords writeFolio s recs)

def execFolioWrite (by_ : Caller) (recs : List (BitVec 32 × BitVec 256)) (s : State) : Host.Outcome State Fault Refusal :=
  (setFolios s by_ recs).out by_

/-! ### Revocation (R207 to R210) -/

/-- The folio is a window of a domain that is not IDLE (R210). -/
def inBusyWindow (s : State) (f : Folio) : Bool :=
  (List.range 32).any fun d =>
    (s.domain d).st != .idle && domainPart s d == folOwner f.word && (1, folPfolio f.word) ∈ windowsOf s d

/-- FOLIO_REVOKE: GRANTED → DRAINING (R208, R210). -/
def setRevoke (s : State) (by_ : Caller) (i : Nat) : Ans :=
  guardRole s (isOpr s by_) <|
  let f := s.folio i
  guardValue s (f.st == .granted && !inBusyWindow s f) (Ans.ok (s.setFolio i { f with st := .draining }))

def execFolioRevoke (by_ : Caller) (i : BitVec 16) (s : State) : Host.Outcome State Fault Refusal :=
  (setRevoke s by_ i.toNat).out by_

/-- Begins the zero fill: at HOMEK 1 or 2 the device sends FILL with zero to RFID (R209). For a partition that is being removed,
or that a reset has ended, it carries PART 0 (R411). -/
def beginScrub (s : State) (i : Nat) : State :=
  let f := s.folio i
  if folHomek f.word = 0 then s.setFolio i { f with st := .scrubbing, fills := [] }
  else
    let ost := (s.part (folOwner f.word)).st
    let part := BitVec.ofNat 5 (if ost = .removing ∨ ost = .free then 0 else folOwner f.word)
    let r := sendOwn s (servingQuill s 0) Op.fill (folRfid f.word) part (folRaddr f.word) (2 ^ 24 - 1) (List.replicate 16 0#8)
    r.2.setFolio i { f with st := .scrubbing, fills := [r.1] }

/-- The zero fill has ended (R207, R209). -/
def endScrub (s : State) (i : Nat) (status : BitVec 8) : State :=
  let f := s.folio i
  if f.st ≠ .scrubbing then s
  else if status = St.ok then
    let s := if folHomek f.word = 0 then zeroPhys s (physStack (folLfolio f.word)) (2 ^ 28) else s
    if f.clearing then s.setFolio i {}
    else raise (s.setFolio i { f with st := .revoked, scrubFailed := false, fills := [] }) 0x0306 (folOwner f.word) [(2, i)]
  else
    let s := s.setFolio i { f with st := .revoked, scrubFailed := true, clearing := false, fills := [] }
    raise (raise s 0x0306 (folOwner f.word) [(2, i)]) 0x0308 (folOwner f.word) [(2, i), (1, status.toNat)]

/-- FOLIO_CLEAR: REVOKED → FREE, or the fill again where it failed (R209). -/
def setFolioClear (s : State) (by_ : Caller) (i : Nat) : Ans :=
  guardRole s (isOpr s by_) <|
  let f := s.folio i
  guardValue s (f.st == .revoked) <|
  Ans.ok (if f.scrubFailed || f.refill then beginScrub (s.setFolio i { f with clearing := true, refill := false }) i else s.setFolio i {})

def execFolioClear (by_ : Caller) (i : BitVec 16) (s : State) : Host.Outcome State Fault Refusal :=
  (setFolioClear s by_ i.toNat).out by_

/-! ### Regions (R211) -/

def rwRegion (w : BitVec 64) : Nat := bits w.toNat 15 0
def rwOwner (w : BitVec 64) : Nat := bits w.toNat 22 16
def rwValid (w : BitVec 64) : Bool := bit w.toNat 23
def rwReaders (w : BitVec 64) : BitVec 32 := BitVec.ofNat 32 (bits w.toNat 63 32)

/-- A versioned load of the region remains. -/
def regionRead (s : State) (i : Nat) : Bool := s.vloads.any fun v => v.region == i && vloadActive s v

/-- One REGION_WRITE record (R211). -/
def writeRegion (by_ : Caller) (s : State) (w : BitVec 64) : Bool × State :=
  let i := rwRegion w
  let p := rwOwner w
  if 4096 ≤ i ∨ 32 ≤ p ∨ ¬ ownerWrites s by_ p then (false, s)
  else
    match s.region i with
    | some r =>
      if r.owner.val ≠ p then (false, s)
      else if rwValid w then (true, s.setRegion i (some { r with readers := rwReaders w }))
      else (true, s.setRegion i none)
    | none =>
      if rwValid w ∧ ¬ regionRead s i then
        (true, s.setRegion i (some { owner := ⟨p % 32, by omega⟩, readers := rwReaders w, version := 0, base := 0, len := 0, fid := 0 }))
      else (false, s)

def setRegions (s : State) (by_ : Caller) (recs : List (BitVec 64)) : Ans :=
  guardRole s (isOpr s by_ || by_.role == .prt) (writeRecords (writeRegion by_) s recs)

def execRegionWrite (by_ : Caller) (recs : List (BitVec 64)) (s : State) : Host.Outcome State Fault Refusal :=
  (setRegions s by_ recs).out by_

/-! ### TAG_RESERVE (R182) -/

/-- TAG_RESERVE: refused when the reserves of all partitions would sum above 65,536 (R182), and while the partition's resources are
frozen (R386). -/
def setTagReserve (s : State) (by_ : Caller) (p v : Nat) : Ans :=
  guardRole s (oprOver s by_ p) <|
  guardRange s (decide (v ≤ 65536)) <|
  let others := ((List.range 32).map fun q => if q = p then 0 else tagReserve s q).foldl (· + ·) 0
  guardValue s (resourcesOpen s p && decide (others + v ≤ 65536)) (Ans.ok (s.setO (okey (0x5020 + p) 1) v))

def execTagReserve (by_ : Caller) (p : Part) (v : BitVec 32) (s : State) : Host.Outcome State Fault Refusal :=
  (setTagReserve s by_ p.val v.toNat).out by_

end Sys2Proof.Machine
end

