-- ==== Sys2Proof/Machine/Tiers.lean ====
section
/-! DEFINITION. Objects and their moves (R305 to R318), and prefetch schedules (R319 to R323). -/

namespace Sys2Proof.Machine

/-! ### T0 units (R309, R439) -/

/-- Retired quill-store banks of a quill. -/
def retiredBanks (s : State) (q : Nat) : Nat :=
  ((List.range 16).filter fun b => bankGone s (q / 4) (16 * (q % 4) + b)).length

/-- Units quill `q` would offer at a value of CHUNK_SLOTS (R309, R439). -/
def unitsOffered (s : State) (q slots : Nat) : Nat :=
  (7340032 - 524288 * retiredBanks s q - 16640 * slots - 2097152) / 65536

/-- Units of a quill that an object holds. -/
def unitsHeld (o : Obj) (q : Nat) : List Nat :=
  if o.st = .free then []
  else
    (if isT0 o.homea.toNat ∧ o.homea.toNat % 64 = q then o.unitsH else []) ++
      (if isT0 o.dsta.toNat ∧ o.dsta.toNat % 64 = q then o.unitsD else []) ++
      (o.pieces.filter fun x => isT0 (x.2 - 1) && (x.2 - 1) % 64 == q).map fun x => bits (x.2 - 1) 47 16

/-- Units of a quill in use. -/
def unitsUsed (s : State) (q : Nat) : List Nat := (s.objects.flatMap fun e => unitsHeld e.2 q).eraseDups

/-- Free units of a quill, lowest first (0x5300.08). -/
def unitsFree (s : State) (q : Nat) : List Nat :=
  let u := unitsUsed s q
  (List.range (unitsOffered s q (s.o (okey 0x7000 1)))).filter (· ∉ u)

/-- Zero-fills units of a quill as they are granted (R307, R309). -/
def zeroUnits (s : State) (q : Nat) (us : List Nat) : State := us.foldl (fun s u => zeroPhys s (physT0 q u) 65536) s

/-! ### Quotas (R310) -/

/-- An object counts against a tier's quota: every object in T0, those of OKIND 1 and 2 elsewhere. -/
def quotaCounts (o : Obj) (t : Nat) : Bool := t == 0 || o.okind == 1 || o.okind == 2

/-- Pieces a partition holds that count against the quota of a tier, but for object `but`. -/
def quotaUsed (s : State) (p t : Nat) (but : Nat) : Nat :=
  (s.objects.map fun e =>
    let o := e.2
    if e.1 = but ∨ o.st = .free ∨ o.owner.val ≠ p ∨ ¬ quotaCounts o t then 0
    else (if homeTier s o = t then o.size else 0) +
      (if o.st ≠ .home ∧ tierOfPlace s p o.dsta.toNat = t then o.size else 0)).foldl (· + ·) 0

/-- The quota of a tier, in pieces. -/
def quotaOf (s : State) (p t : Nat) : Nat := s.o (okey (0x5320 + p) (2 + t)) * (if t = 0 then 1 else 16)

/-- TIER_PRIV of a partition. -/
def tierPriv (s : State) (p : Nat) : Bool := s.o (okey (0x5320 + p) 1) == 1

/-- Taking `size` pieces more of a tier stays within the quota (R310). -/
def quotaOk (s : State) (o : Obj) (n t : Nat) : Bool :=
  !quotaCounts o t ||
    decide (quotaUsed s o.owner.val t n + (if o.st ≠ .free ∧ homeTier s o = t then o.size else 0) + o.size ≤ quotaOf s o.owner.val t)

/-! ### Homes (R306, R307, R312) -/

/-- The T0 form of a home with nothing but its quill (R306). -/
def t0FormOk (a : Nat) : Bool := isT0 a && bits a 47 6 == 0

/-- Why a home is not well placed: within the owner's grants, aligned, in one slice or folio, a T0 home on a quill of the owner
(R307, R384); in a folio that is being or has been revoked, EXTENT_REVOKED (R318). -/
def homeRefusal (s : State) (p a size : Nat) : Option (BitVec 8) :=
  if isT0 a then (if t0FormOk a && quillOk s (a % 64) && quillOwner s (a % 64) == p then none else some St.accessDenied)
  else if spaceOf a < 2 ∧ a % 65536 = 0 then
    match resolveFlat s p a (size * 65536) false with
    | .ok _ => none
    | .error (st, _) => some (if st = St.extentRevoked then st else St.accessDenied)
  else some St.accessDenied

def homeOk (s : State) (p a size : Nat) : Bool := (homeRefusal s p a size).isNone

/-- A flat range overlaps a home, destination or piece of another object. -/
def overlapsOthers (s : State) (p a size n : Nat) : Bool :=
  !isT0 a && (objectRanges { s with objects := s.objects.filter fun e => e.1 != n } p).any fun r => overlap a (size * 65536) r.1 r.2

/-- A flat range overlaps ranges that the object itself holds. -/
def overlapsOwn (s : State) (p a size n : Nat) : Bool :=
  !isT0 a && (objectRanges { s with objects := s.objects.filter fun e => e.1 == n } p).any fun r => overlap a (size * 65536) r.1 r.2

/-- A descriptor creates an object (R307). -/
def descriptorOk (s : State) (n : Nat) (w : BitVec 512) : Bool :=
  let p := odOwner w
  let a := odHomea w
  let o : Obj := { owner := ⟨p % 32, by omega⟩, okind := odOkind w, size := odSize w, homea := BitVec.ofNat 56 a }
  odValid w && odOkind w != 3 && decide (1 ≤ odSize w) && decide (odSize w ≤ 262144) && (s.object n).st == .free &&
    homeOk s p a (odSize w) && !overlapsOthers s p a (odSize w) n &&
    (!isT0 a || decide (odSize w ≤ (unitsFree s (a % 64)).length)) && (odOkind w == 0 || tierPriv s p) &&
    quotaOk s o n (tierOfPlace s p a)

/-- One OBJ_WRITE record (R307). -/
def writeObject (by_ : Caller) (s : State) (r : BitVec 16 × BitVec 512) : Bool × State :=
  let n := r.1.toNat
  let w := r.2
  let p := odOwner w
  if n < 16384 ∧ ownerWrites s by_ p ∧ descriptorOk s n w then
    let a := odHomea w
    let us := if isT0 a then (unitsFree s (a % 64)).take (odSize w) else []
    (true, (zeroUnits s (a % 64) us).setObject n
      { st := .home, owner := ⟨p % 32, by omega⟩, okind := odOkind w, size := odSize w, homea := BitVec.ofNat 56 a, unitsH := us })
  else (false, raise s 0x0601 p [(2, n)])

def setObjects (s : State) (by_ : Caller) (recs : List (BitVec 16 × BitVec 512)) : Ans :=
  guardRole s (isOpr s by_ || by_.role == .prt) (writeRecords (writeObject by_) s recs)

def execObjWrite (by_ : Caller) (recs : List (BitVec 16 × BitVec 512)) (s : State) : Host.Outcome State Fault Refusal :=
  (setObjects s by_ recs).out by_

/-- OBJ_DELETE (R318). -/
def setObjDelete (s : State) (by_ : Caller) (n : Nat) : Ans :=
  let o := s.object n
  guardRole s (if o.st = .free then isOpr s by_ || by_.role == .prt else ownerWrites s by_ o.owner.val) <|
  guardRange s (decide (n < 16384)) <|
  guardValue s (o.st == .home || o.st == .split) (Ans.ok (s.setObject n {}))

def execObjDelete (by_ : Caller) (o : BitVec 16) (s : State) : Host.Outcome State Fault Refusal :=
  (setObjDelete s by_ o.toNat).out by_

/-! ### Starting a move (R312, R315, R317) -/

/-- The engine of a home in the package (R315): ENG_0-15, then STK_0-5. -/
def engineOf (s : State) (p a : Nat) : Option Nat :=
  if isT0 a then some (a % 64 / 4)
  else if spaceOf a = 0 then (sliceOf s p (bits a 32 26)).map (· / 8)
  else match findFolio s p (bits a 43 28) with
    | some (_, f) => if folHomek f.word = 0 then some (16 + folLfolio f.word / 384) else none
    | none => none

/-- The engine that runs a move (R315). -/
def moveEngine (s : State) (n : Nat) (o : Obj) (dsta : Nat) : Nat :=
  match engineOf s o.owner.val dsta with
  | some e => e
  | none => match engineOf s o.owner.val o.homea.toNat with
    | some e => e
    | none => let ts := enabledTiles s; ts.getD (n % ts.length) 0

/-- A SPLIT object's move that names the same destination goes on from MOVED (R317). -/
def resumes (o : Obj) (dsta : Nat) : Bool := o.st == .split && o.dsta.toNat == dsta

/-- Nothing is to be moved: DSTA is the home of an object wholly at home (R312). -/
def alreadyHome (o : Obj) (dsta : Nat) : Bool := o.st == .home && o.homea.toNat == dsta

/-- The conditions of R312 on a destination, in the table's order. -/
def destRefusal (s : State) (n : Nat) (o : Obj) (dsta : Nat) : Option (BitVec 8) :=
  let p := o.owner.val
  let same := o.homea.toNat == dsta || resumes o dsta
  match homeRefusal s p dsta o.size with
  | some st => some st
  | none =>
    if overlapsOthers s p dsta o.size n || (!same && overlapsOwn s p dsta o.size n) then some St.accessDenied
    else if !same && !quotaOk s o n (tierOfPlace s p dsta) then some St.boundExceeded
    else if (isT0 dsta && (!same || alreadyHome o dsta) && decide ((unitsFree s (dsta % 64)).length < o.size)) ||
        decide (1024 ≤ s.moveQ.length) then some St.busy
    else none

/-- Queues a move that no condition refuses. -/
def queueMove (s : State) (n : Nat) (o : Obj) (dsta : Nat) (req : Option Msg) (sched : Option (Nat × Nat)) : State :=
  let go := resumes o dsta
  let us := if go then o.unitsD
    else if isT0 dsta then (if o.homea.toNat = dsta then o.unitsH else (unitsFree s (dsta % 64)).take o.size) else []
  let s := if isT0 dsta ∧ ¬ go ∧ o.homea.toNat ≠ dsta then zeroUnits s (dsta % 64) us else s
  let moved := if go then o.moved else 0
  let s := s.setObject n { o with st := .moving, dsta := BitVec.ofNat 56 dsta, unitsD := us, moved := moved, sched := sched }
  { s with moveQ := s.moveQ ++ [{ obj := n, engine := moveEngine s n o dsta, req := req, piece := moved, count := 0 }] }

/-- Performs an OBJ_MOVE (R312). -/
def objMoveNow (s : State) (m : Msg) : State :=
  let h := m.hdr
  let a := h.addr.toNat
  let n := bits a 47 34
  let o := s.object n
  let w := BitVec.ofNat 512 (leAt m.body 0 64)
  let no (st : BitVec 8) := finishOnce s ingMemory h st 0 0 none
  if spaceOf a ≠ 2 ∨ bits a 33 0 ≠ 0 ∨ m.body.length ≠ 64 then no St.formatUnsupported
  else if o.st = .free ∨ o.owner.val ≠ h.part.toNat then no St.accessDenied
  else if ¬ odValid w ∨ odOwner w ≠ o.owner.val ∨ odOkind w ≠ o.okind ∨ odSize w ≠ o.size then no St.formatUnsupported
  else if o.st = .moving then no St.busy
  else
    match destRefusal s n o (odDsta w) with
    | some st => no st
    | none =>
      if alreadyHome o (odDsta w) then no St.ok
      else queueMove s n o (odDsta w) (some m) none

def execObjMove (m : Msg) (s : State) : Host.Outcome State Fault Refusal :=
  .next (inTurn s m fun s => once (takeDelivered s m) ingMemory m (fun s => objMoveNow s m))

/-! ### Pieces (R313 to R317) -/

/-- The place of piece `i` at the destination. -/
def dstPlace (o : Obj) (i : Nat) : Nat :=
  if isT0 o.dsta.toNat then t0Place (o.dsta.toNat % 64) (o.unitsD.getD i 0) else o.dsta.toNat + 65536 * i

/-- Source and destination runs of a piece. -/
def pieceEnds (s : State) (o : Obj) (i : Nat) : Except (BitVec 8) (Seg × Seg) :=
  match resolvePlace s o.owner.val (piecePlace o i) 0 65536 false with
  | .error (st, _) => .error st
  | .ok a =>
    match resolvePlace s o.owner.val (dstPlace o i) 0 65536 true with
    | .error (st, _) => .error st
    | .ok b => .ok (a, b)

/-- The message on whose behalf a move reads and writes. -/
def moveMsg (o : Obj) : Msg := { hdr := { (default : Hdr) with part := BitVec.ofNat 5 o.owner.val }, body := [] }

/-- Replaces a running move. -/
def setMove (s : State) (m : Move) : State := { s with moves := s.moves.map fun x => if x.engine = m.engine then m else x }

/-- Some request resolved against a piece at its source has not completed (R314). -/
def pieceBusy (s : State) (n i : Nat) : Bool :=
  ((openJobs s).any fun j => j.runs.any fun g => g.obj == some (n, i)) ||
    (unitSubs s).any fun l => l.any fun x => x.seg.obj == some (n, i)

/-- Sends the STORE of a piece whose destination is on another device. -/
def sendPiece (s : State) (m : Move) (o : Obj) (g : Seg) (data : List Byte) : State :=
  match g.loc with
  | .remote _ _ _ => let x := writeSub s (moveMsg o) g data; setMove x.2 { m with wr := some x.1 }
  | .phys _ => s

/-- Takes the move's piece into TRANSIT, once nothing is outstanding on it, and starts its copy (R314). -/
def beginPiece (s : State) (m : Move) : State :=
  let o := s.object m.obj
  if m.transit ∨ pieceBusy s m.obj m.piece then s
  else
    match pieceEnds s o m.piece with
    | .error _ => setMove s { m with transit := true, ends := none, rd := none, wr := none }
    | .ok (a, b) =>
      let m := { m with transit := true, ends := some (a, b), rd := none, wr := none }
      let s := setMove s m
      match a.loc with
      | .remote _ _ _ => let x := readSub s [] (moveMsg o) a; setMove x.2 { m with rd := some x.1 }
      | .phys x => match readPhys s x 65536 with
        | some d => sendPiece s m o b d
        | none => s

/-- MOVE_START: an engine takes the next move that waits for it (R315). -/
def execMoveStart (engine : Fin 22) (s : State) : Host.Outcome State Fault Refusal :=
  .next (if s.moves.any fun m => m.engine == engine.val then s
    else match s.moveQ.find? fun m => m.engine == engine.val && !removing s (s.object m.obj).owner.val with
      | some m =>
        let s := { s with moveQ := s.moveQ.erase m, moves := s.moves ++ [m] }
        beginPiece s m
      | none => s)

/-- Serves again what waited on an object's piece in TRANSIT, and adds the waits to STALL_WAIT (R313, R324). -/
def serveWaiting (s : State) (n tier : Nat) : State :=
  let ws := s.transitWait.filter fun w => w.obj == n
  let s := { s with transitWait := s.transitWait.filter fun w => w.obj != n }
  ws.foldl (fun s w =>
    let s := s.bump (stallObj w.job.msg.hdr.part.toNat tier 0x10) (10 * (s.time - w.since))
    serveJob s w.job) s

/-- Ends a move: the OBJ_MOVE completes, if one started it. -/
def completeMove (s : State) (m : Move) (st : BitVec 8) (cdat : BitVec 16) : State :=
  match m.req with
  | some r => finishOnce s ingMemory r.hdr st 0 cdat none
  | none => s

/-- A running move ends before its last piece: the object is SPLIT (R317, R398, R410). -/
def stopMove (s : State) (m : Move) (st : BitVec 8) : State :=
  let s := { s with moves := s.moves.filter fun x => x.engine != m.engine }
  completeMove (s.setObject m.obj { s.object m.obj with st := .split, sched := none }) m st 0

/-- A piece failed (R317). -/
def haltMove (s : State) (m : Move) (st : BitVec 8) : State :=
  let o := s.object m.obj
  let t := tierOfPlace s o.owner.val (piecePlace o m.piece)
  serveWaiting (raise (stopMove s m st) 0x0602 o.owner.val [(2, m.obj), (1, st.toNat), (4, o.moved)]) m.obj t

/-- The last piece has landed: HOMEA becomes DSTA and the old home is released in one step (R316). -/
def finishMove (s : State) (m : Move) : State :=
  let o := s.object m.obj
  let s := { s with moves := s.moves.filter fun x => x.engine != m.engine }
  let s := s.setObject m.obj { o with st := .home, homea := o.dsta, dsta := 0, unitsH := o.unitsD, unitsD := [], pieces := [],
                                      moved := 0, sched := none }
  completeMove s m St.ok (BitVec.ofNat 16 m.count)

/-- A piece has landed at DSTA (R313, R316). A move of a partition that is being removed halts after it (R410 step 1). -/
def landPiece (s : State) (m : Move) : State :=
  let o := s.object m.obj
  let t := tierOfPlace s o.owner.val (piecePlace o m.piece)
  let o := { o with pieces := Sparse.set 0 o.pieces m.piece (dstPlace o m.piece + 1), moved := o.moved + 1 }
  let s := (s.setObject m.obj o).bump (okey 0x5300 7) 65536
  let m := { m with piece := m.piece + 1, count := m.count + 1, transit := false, rd := none, wr := none }
  let s := if o.size ≤ m.piece then finishMove s m
    else if removing s o.owner.val then stopMove s m St.busy
    else beginPiece (setMove s m) m
  serveWaiting s m.obj t

/-- Writes a piece held at hand to its destination here. -/
def landData (s : State) (m : Move) (b : Seg) (d : List Byte) : State :=
  match b.loc with
  | .phys y =>
    let r := storePhys s y d
    match r.1 with
    | none => landPiece r.2 m
    | some w => haltMove (raiseUncorr r.2 (s.object m.obj).owner.val (wordAddr y b.addr w)) m St.uncorrectable
  | .remote _ _ _ => sendPiece s m (s.object m.obj) b d

/-- PIECE_LANDED: the copy of an engine's piece has ended with a status (R314, R316, R317). A piece whose LOAD or STORE to another
device is still out cannot have ended: no effect. -/
def pieceLanded (s : State) (m : Move) (status : BitVec 8) : State :=
  let o := s.object m.obj
  if status ≠ St.ok then haltMove s m status
  else
    match m.ends with
    | none =>
      match pieceEnds s o m.piece with
      | .error st => haltMove s m st
      | .ok _ => beginPiece s { m with transit := false }
    | some (a, b) =>
      match m.wr, m.rd, a.loc with
      | some w, _, _ => if !w.done then s else if w.st = St.ok then landPiece s m else haltMove s m w.st
      | none, some r, _ => if !r.done then s else if r.st = St.ok then landData s m b r.data else haltMove s m r.st
      | none, none, .phys x =>
        match readPhys s x 65536 with
        | some d => landData s m b d
        | none =>
          haltMove (raiseUncorr s o.owner.val (wordAddr x a.addr ((firstDead s x 65536).getD 0))) m St.uncorrectable
      | none, none, .remote _ _ _ => s

def execPieceLanded (engine : Fin 22) (status : BitVec 8) (s : State) : Host.Outcome State Fault Refusal :=
  .next (match s.moves.find? fun m => m.engine == engine.val with
    | some m => if m.transit then pieceLanded s m status else beginPiece s m
    | none => s)

/-- A completion of a move's own LOAD or STORE (R328). -/
def moveSubDone (s : State) (m : Move) (isRead : Bool) (st : BitVec 8) (data : List Byte) : State :=
  let o := s.object m.obj
  if isRead then
    match m.rd with
    | some r =>
      let m := { m with rd := some { r with done := true, st := st, data := data } }
      let s := setMove s m
      if st = St.ok then
        match m.ends with
        | some (_, b) => sendPiece s m o b data
        | none => s
      else s
    | none => s
  else
    match m.wr with
    | some w => setMove s { m with wr := some { w with done := true, st := st } }
    | none => s

/-! ### Prefetch schedules (R319 to R323) -/

/-- Fields of a schedule entry (R319). -/
def peObj (w : BitVec 128) : Nat := bits w.toNat 13 0
def peLayer (w : BitVec 128) : Nat := bits w.toNat 31 16
def peSrct (w : BitVec 128) : Nat := bits w.toNat 34 32
def peDstt (w : BitVec 128) : Nat := bits w.toNat 37 35
def peDsta (w : BitVec 128) : Nat := bits w.toNat 119 64

/-- A pool entry. -/
def poolEntry (s : State) (i : Nat) : BitVec 128 := Sparse.get 0 s.pfPool i
/-- The entries of a schedule, in list order. -/
def schedEntries (s : State) (v : Sched) : List (BitVec 128) := (List.range v.nent).map fun i => poolEntry s (v.base + i)

/-- One PF_SCHED_WRITE record (R320, R335). -/
def writeSched (by_ : Caller) (s : State) (w : BitVec 64) : Bool × State :=
  let n := bits w.toNat 7 0
  let p := bits w.toNat 14 8
  let v := s.sched n
  if n < 64 ∧ p < 32 ∧ ownerWrites s by_ p ∧ (¬ v.valid ∨ ownerWrites s by_ v.owner.val) ∧ ¬ v.active then
    (true, s.setSched n { v with valid := bit w.toNat 15, owner := ⟨p % 32, by omega⟩, nent := bits w.toNat 31 16,
                                 base := bits w.toNat 47 32 })
  else (false, s)

def setScheds (s : State) (by_ : Caller) (recs : List (BitVec 64)) : Ans :=
  guardRole s (isOpr s by_ || by_.role == .prt) (writeRecords (writeSched by_) s recs)

def execPfSchedWrite (by_ : Caller) (recs : List (BitVec 64)) (s : State) : Host.Outcome State Fault Refusal :=
  (setScheds s by_ recs).out by_

/-- A pool index lies in a schedule's range. -/
def inRange (v : Sched) (i : Nat) : Bool := v.valid && decide (v.base ≤ i) && decide (i < v.base + v.nent)

/-- The partition of a pool entry: the owner of the schedule whose range holds it, else 0. -/
def entryOwner (s : State) (i : Nat) : Nat := ((s.scheds.find? fun e => inRange e.2 i).map fun e => e.2.owner.val).getD 0

/-- One PF_ENTRY_WRITE record (R320). -/
def writePfEntry (by_ : Caller) (s : State) (r : BitVec 16 × BitVec 128) : Bool × State :=
  let i := r.1.toNat
  if i < 16384 ∧ ownerWrites s by_ (entryOwner s i) ∧ ¬ (s.scheds.any fun e => e.2.active && inRange e.2 i) then
    (true, { s with pfPool := Sparse.set 0 s.pfPool i r.2 })
  else (false, s)

def setPfEntries (s : State) (by_ : Caller) (recs : List (BitVec 16 × BitVec 128)) : Ans :=
  guardRole s (isOpr s by_ || by_.role == .prt) (writeRecords (writePfEntry by_) s recs)

def execPfEntryWrite (by_ : Caller) (recs : List (BitVec 16 × BitVec 128)) (s : State) : Host.Outcome State Fault Refusal :=
  (setPfEntries s by_ recs).out by_

/-- Each number is at most the next. -/
def ascending : List Nat → Bool
  | a :: b :: l => decide (a ≤ b) && ascending (b :: l)
  | _ => true

/-- ACTIVATE passes (R320). -/
def schedOk (s : State) (n : Nat) (v : Sched) : Bool :=
  let es := schedEntries s v
  ascending (es.map peLayer) &&
    es.all (fun e => (s.object (peObj e)).st != .free && (s.object (peObj e)).owner == v.owner && decide (peSrct e ≤ 4) &&
      decide (peDstt e ≤ 4)) &&
    decide (v.base + v.nent ≤ 16384) &&
    !(s.scheds.any fun e => e.1 != n && e.2.active && overlap v.base v.nent e.2.base e.2.nent)

def setPfActivate (s : State) (by_ : Caller) (n : Nat) : Ans :=
  let v := s.sched n
  guardRole s (ownerWrites s by_ v.owner.val) <|
  guardRange s (decide (n < 64)) <|
  guardValue s (v.valid && !v.active) <|
  if schedOk s n v then Ans.ok (s.setSched n { v with active := true, step := 0, layer := 1 })
  else Ans.no (raise s 0x0606 v.owner.val [(1, n)]) Ds.valueRejected

def setPfStop (s : State) (by_ : Caller) (n : Nat) : Ans :=
  let v := s.sched n
  guardRole s (ownerWrites s by_ v.owner.val) <|
  guardRange s (decide (n < 64)) <|
  guardValue s v.active (Ans.ok (s.setSched n { v with active := false }))

def execPfActivate (by_ : Caller) (s' : BitVec 8) (s : State) : Host.Outcome State Fault Refusal :=
  (setPfActivate s by_ s'.toNat).out by_
def execPfStop (by_ : Caller) (s' : BitVec 8) (s : State) : Host.Outcome State Fault Refusal :=
  (setPfStop s by_ s'.toNat).out by_

/-- A refused entry (R323, R324 cause 5). -/
def refuseEntry (s : State) (n : Nat) (v : Sched) (e : BitVec 128) : State :=
  raiseLimited (countStall s v.owner.val (peSrct e) 5) ms n 0x0603 v.owner.val [(1, n), (2, peObj e)]

/-- Starts an entry (R323). -/
def startEntry (n : Nat) (v : Sched) (s : State) (e : BitVec 128) : State :=
  let i := peObj e
  let o := { s.object i with pending := false }
  let s := if o.st = .free then s else s.setObject i o
  if o.st = .free ∨ o.owner ≠ v.owner then refuseEntry s n v e
  else
    if homeTier s o = peDstt e then s.bump (okey 0x5400 0xB) 1
    else if o.st ≠ .home ∨ homeTier s o ≠ peSrct e then refuseEntry s n v e
    else match destRefusal s i o (peDsta e) with
      | some _ => refuseEntry s n v e
      | none => if alreadyHome o (peDsta e) then s else queueMove s i o (peDsta e) none (some (n, peSrct e))

/-- Marks the objects a schedule names PENDING (R322). -/
def markPending (s : State) (es : List (BitVec 128)) : State :=
  es.foldl (fun s e =>
    let o := s.object (peObj e)
    if o.st = .free then s else s.setObject (peObj e) { o with pending := true }) s

/-- `a` is newer than `b` in 32-bit serial arithmetic (R322). -/
def newer (a b : BitVec 32) : Bool := a != b && decide ((a - b).toNat < 2 ^ 31)

/-- The layer part of on_trigger: the boundary of a layer is reached (R322). -/
def layerTrigger (s : State) (n layer : Nat) : State :=
  let v := s.sched n
  if layer < v.layer then s.bump (okey 0x5400 8) 1
  else
    let s := if v.layer < layer then
        raise (s.bump (okey 0x5400 0xA) (layer - v.layer)) 0x0604 v.owner.val [(1, n), (2, v.layer), (2, layer - v.layer)]
      else s
    let s := ((schedEntries s v).filter fun e => v.layer ≤ peLayer e && peLayer e ≤ layer).foldl (startEntry n v) s
    s.setSched n { v with layer := layer + 1 }

/-- on_trigger of R322. -/
def onTrigger (s : State) (n : Nat) (isStep : Bool) (step : BitVec 32) (layer : Nat) : State :=
  let v := s.sched n
  if newer step v.step then
    let v := { v with step := step, layer := 1 }
    let es := schedEntries s v
    let s := markPending (s.setSched n v) es
    let s := (es.filter fun e => peLayer e == 0).foldl (startEntry n v) s
    if isStep then s else layerTrigger s n layer
  else if step ≠ v.step ∨ isStep then s.bump (okey 0x5400 8) 1
  else layerTrigger s n layer

/-- Fields of a TRIGGER (R321). -/
def trKind (b : List Byte) : Nat := bits (leAt b 0 16) 3 0
def trSched (b : List Byte) : Nat := bits (leAt b 0 16) 13 8
def trLayer (b : List Byte) : Nat := bits (leAt b 0 16) 47 32
def trStep (b : List Byte) : BitVec 32 := BitVec.ofNat 32 (bits (leAt b 0 16) 95 64)

/-- A TRIGGER the device acts on (R321). -/
def triggerOk (s : State) (m : Msg) : Bool :=
  let v := s.sched (trSched m.body)
  m.body.length == 16 && (trKind m.body == 2 || (trKind m.body == 1 && trLayer m.body != 0)) && v.valid && v.active &&
    v.owner.val == m.hdr.part.toNat

/-- A TRIGGER reaches the sequencer (R321, R322). -/
def sequencerTrigger (s : State) (m : Msg) : State :=
  if triggerOk s m then onTrigger s (trSched m.body) (trKind m.body == 2) (trStep m.body) (trLayer m.body)
  else s.bump (okey 0x5400 9) 1

end Sys2Proof.Machine
end

