-- ==== Sys2Proof/Machine/Revoke.lean ====
section
/-! DEFINITION. What is in flight on a folio, and how its revocation ends (R207, R208, R318). -/

namespace Sys2Proof.Machine

/-- An access of a unit of this device was decoded against folio `i`. -/
def onFolio (i : Nat) (x : Sub) : Bool := x.seg.folio == some i

/-- An access of a unit to a revoked folio ended with EXTENT_REVOKED; its later result is discarded (R208). -/
def revokeSub (i : Nat) (x : Sub) : Sub :=
  if onFolio i x = true then { x with done := true, put := none, st := St.extentRevoked } else x

/-- Moves that are copying a piece from or to the folio. -/
def movesOn (s : State) (i : Nat) : List Move :=
  s.moves.filter fun m => m.transit && m.ends.any fun e => e.1.folio == some i || e.2.folio == some i

/-- Requests served by units of this device, and moves, that are in flight on a folio. -/
def unitInflight (s : State) (i : Nat) : Nat := ((unitSubs s).filter fun l => l.any (onFolio i)).length + (movesOn s i).length

/-- No request is in flight on a draining folio (R207). -/
def execFolioDrained (i : BitVec 16) (s : State) : Host.Outcome State Fault Refusal :=
  .next (let n := i.toNat
    if (s.folio n).st = .draining ∧ (folioInflight s n).isEmpty ∧ unitInflight s n = 0 then beginScrub s n else s)

/-- The jobs of requests against a folio are given up. -/
def dropJobs (s : State) (i : Nat) : State :=
  let on (j : MemReq) : Bool := j.runs.any fun g => g.folio == some i
  { s with
    reissues := s.reissues.filter fun r => !on r.job
    txns := s.txns.filter fun t => !(t.job.any on)
    cohWait := s.cohWait.filter fun w => !(w.job.any on)
    transitWait := s.transitWait.filter fun w => !on w.job }

/-- Completes with EXTENT_REVOKED what is in flight on a folio, and discards its later results (R208, R318). -/
def forceComplete (s : State) (i : Nat) : State :=
  let js := folioJobs s i
  let ms := movesOn s i
  let n := js.length + unitInflight s i
  let tier := 2 + folHomek (s.folio i).word
  let s := mapSubs (revokeSub i) (dropJobs s i)
  let s := js.foldl (fun s j => finishMem s j.1 j.2 { st := St.extentRevoked, piece := if spaceOf j.1.hdr.addr.toNat = 2 then some tier else none }) s
  let s := ms.foldl (fun s m => haltMove s m St.extentRevoked) s
  if n = 0 then s
  else raise ((wake s).bump (okey 0x5100 0xA) n) 0x0307 (folOwner (s.folio i).word) [(2, i), (4, n)]

/-- REVOKE_BOUND has expired (R207, R208). -/
def execRevokeBoundExpire (i : BitVec 16) (s : State) : Host.Outcome State Fault Refusal :=
  .next (let n := i.toNat
    if (s.folio n).st = .draining then beginScrub (forceComplete s n) n else s)

end Sys2Proof.Machine
end

