-- ==== Sys2Proof/Machine/Collectives.lean ====
section
/-! DEFINITION. Collective contexts (R242 to R260), their mirrors (R443 to R451) and the straggler monitors (R465). -/

namespace Sys2Proof.Machine

/-! ### Descriptors (R242 to R246) -/

def cdCtx (w : BitVec 512) : Nat := bits w.toNat 15 0
def cdKind (w : BitVec 512) : Nat := bits w.toNat 19 16
def cdRop (w : BitVec 512) : Nat := if cdKind w = 2 then 0 else bits w.toNat 23 20
def cdIfmt (w : BitVec 512) : Nat := bits w.toNat 27 24
def cdOfmt (w : BitVec 512) : Nat := bits w.toNat 31 28
def cdImode (w : BitVec 512) : Bool := bit w.toNat 32
def cdNcm1 (w : BitVec 512) : Nat := bits w.toNat 49 40
def cdNchunk (w : BitVec 512) : Nat := bits w.toNat 95 64
def cdCwin (w : BitVec 512) : Nat := bits w.toNat 103 96
def cdRdst (w : BitVec 512) : Fid := BitVec.ofNat 24 (bits w.toNat 151 128)
def cdLig (w : BitVec 512) : Nat := bits w.toNat 163 152
def cdRbase (w : BitVec 512) : Nat := bits w.toNat 247 192
def cdPartner (w : BitVec 512) : Fid := BitVec.ofNat 24 (bits w.toNat 279 256)
def cdOepoch (w : BitVec 512) : BitVec 32 := BitVec.ofNat 32 (bits w.toNat 319 288)

/-- The descriptor with another PARTNER (R443). -/
def withPartner (w : BitVec 512) (f : Fid) : BitVec 512 :=
  BitVec.ofNat 512 (w.toNat - (cdPartner w).toNat * 2 ^ 256 + f.toNat * 2 ^ 256)

/-- E: elements of a chunk (R246). -/
def chunkElems (w : BitVec 512) : Nat := if cdIfmt w = 0 ∨ cdIfmt w = 0xC then 512 else 1024

/-- Formats of a descriptor, where both codes are defined. -/
def cdInFmt (w : BitVec 512) : Fmt := (Fmt.ofCode (cdIfmt w)).getD .fp32
def cdOutFmt (w : BitVec 512) : Fmt := (Fmt.ofCode (cdOfmt w)).getD .fp32
def cdOp (w : BitVec 512) : Rop := (Rop.ofCode (cdRop w)).getD .sum

/-- Distance between the results of consecutive chunks in memory (R256). -/
def resultStride (w : BitVec 512) : Nat :=
  chunkElems w * (cdOutFmt w).width / 8 + (if (cdOutFmt w).isMx then 32 else 0)

/-- Fields of JOIN, CLOSE and ABORT (R243). -/
def ccCtx (b : List Byte) : Nat := bits (leAt b 0 16) 15 0
def ccCgen (b : List Byte) : BitVec 8 := BitVec.ofNat 8 (bits (leAt b 0 16) 23 16)
def ccCidx (b : List Byte) : Nat := bits (leAt b 0 16) 33 24
/-- The command of a COLL_CTL, and HCGEN (R243). -/
def ccCmd (h : Hdr) : Nat := bits h.aux.toNat 3 0
def ccHcgen (h : Hdr) : BitVec 8 := BitVec.ofNat 8 (bits h.aux.toNat 15 8)

/-- A descriptor as it is sent on, its reserved bits zero (R9, R244). -/
def cdKeep (w : BitVec 512) : BitVec 512 :=
  BitVec.ofNat 512 (keepFields w.toNat [(15, 0), (19, 16), (23, 20), (27, 24), (31, 28), (32, 32), (49, 40), (95, 64), (103, 96),
    (151, 128), (163, 152), (247, 192), (279, 256), (319, 288)])

/-! ### Slots and pools (R251, R254, R261) -/

/-- Chunk slots a quill has (R251, R261). -/
def slotsOf (s : State) (q : Nat) : Nat :=
  min (s.o (okey 0x7000 1)) ((7340032 - 524288 * retiredBanks s q - 2097152) / 16640)

/-- Slots that a pass's accumulators take, 1,024 elements each (R282). -/
def runSlots (r : Run) : Nat := (r.elems + 1023) / 1024

/-- Chunk slots in use. -/
def slotsUsed (s : State) (q : Nat) : Nat :=
  (quillChunks s q).length + ((s.quill q).runs.map runSlots).foldl (· + ·) 0

/-- The pool of a quill. -/
abbrev Pool := Sparse (Option Acc)

def setPool (s : State) (q : Nat) (p : Pool) : State := if p = (s.quill q).pool then s else s.setQuill q { s.quill q with pool := p }

/-- A pool without the entries of some elements (R229). -/
def freePool (p : Pool) (es : List Elem) : Pool := p.filter fun x => !(es.any fun e => e.esc && e.sv.toNat % 2 ^ 14 == x.1)

/-- Removes chunks, with their slots and their pool entries (R256). -/
def removeChunks (s : State) (gone : Chunk → Bool) : State :=
  (s.chunks.filter gone).foldl (fun s k => setPool s (ctxQuill k.ctx) (freePool (s.quill (ctxQuill k.ctx)).pool k.elems))
    { s with chunks := s.chunks.filter fun k => !gone k }

/-! ### Messages of the quill (R252, R257, R445) -/

/-- A packet header the quill of a context originates. -/
def ctxHdr (s : State) (op : BitVec 8) (cls : BitVec 3) (dst : Fid) (part : Part) : Hdr × State :=
  let n := s.nextSerial
  ({ ver := 1, cls := cls, ep := origEp s, ks := 0, op := op, flg := 0, plen := 0, dst := dst, src := devFid s,
     part := BitVec.ofNat 5 part.val, val := false, hop := 0, tag := freeTag s n.1, mid := 0,
     opid := BitVec.ofNat 40 n.1, addr := 0, aux := 0 }, n.2)

/-- Sends a message of a context's quill and names it. -/
def sendCtx (s : State) (c : Nat) (op : BitVec 8) (cls : BitVec 3) (dst : Fid) (addr aux : Nat) (mcast : Bool)
    (body : List Byte) : ReqKey × State :=
  let x := ctxHdr s op cls dst (s.ctx c).part
  let h := { x.1 with addr := BitVec.ofNat 56 addr, aux := BitVec.ofNat 32 aux, flg := if mcast then 4 else 0 }
  (hdrKey h, originate x.2 (ingQuill (ctxQuill c)) .unit (mkRequest h body))

/-- OEPOCH as CREDITs carry it: 0 for an unmirrored context (R445). -/
def creditAux (v : Ctx) : Nat := if v.partner = 0 then 0 else v.oepoch.toNat

/-- Sends one CREDIT (R252). -/
def sendCredit (s : State) (c : Nat) (dst : Fid) : State :=
  let v := s.ctx c
  let body := leBytes 16 (c + v.cgen.toNat * 2 ^ 16 + v.limit * 2 ^ 32 + v.low * 2 ^ 64)
  (sendCtx s c Op.credit 6 dst 0 (creditAux v) false body).2

/-- CREDITs to every joined contributor, and the mirror record to the partner (R253, R445). -/
def sendCredits (s : State) (c : Nat) : State :=
  let v := s.ctx c
  let s := v.joined.foldl (fun s e => sendCredit s c e.2) s
  if v.partner ≠ 0 then sendCredit s c v.partner else s

/-! ### Opening chunks (R251, R253, R255) -/

/-- A chunk of a context is open. -/
def chunkOpen (s : State) (c i : Nat) : Bool := s.chunks.any fun k => k.ctx == c && k.idx == i

/-- A chunk with every element reset (R251). -/
def newChunk (s : State) (c i : Nat) : State :=
  let v := s.ctx c
  let n := s.nextSerial
  let k : Chunk := { ctx := c, idx := i, seq := n.1, bits := [], elems := List.replicate (chunkElems v.desc) {}, raw := [],
                     first := 0, storing := none }
  ({ n.2 with chunks := n.2.chunks ++ [k] }).setCtx c { v with limit := max v.limit (i + 1) }

/-- Opens what the window, the slots and the hold allow of one context. -/
def openCtx (q : Nat) (s : State) (c : Nat) : State :=
  let v := s.ctx c
  if v.st ≠ .running ∨ v.escHold ∨ removing s v.part.val then s
  else
    let want := (List.range (min (cdCwin v.desc) (cdNchunk v.desc - v.low))).map (v.low + ·)
    let s' := want.foldl (fun s i =>
      if chunkOpen s c i ∨ i ∈ (s.ctx c).delivered ∨ slotsOf s q ≤ slotsUsed s q then s else newChunk s c i) s
    if (s'.ctx c).limit = v.limit then s' else sendCredits s' c

/-- Ends escalation holds of a quill once its free entries reach ESC_RESUME (R255). -/
def releaseHolds (s : State) (q : Nat) : State :=
  if poolFree s q < s.o (okey 0x7000 2) then s
  else { s with ctxs := s.ctxs.map fun e => if ctxQuill e.1 = q then (e.1, { e.2 with escHold := false }) else e }

/-- The quill opens chunks of its contexts, in CTX order, unless a pass waits for slots (R251, R282). -/
def openChunks (s : State) (q : Nat) : State :=
  let s := releaseHolds s q
  if (s.quill q).waiting then s
  else
    ((s.ctxs.filter fun e => ctxQuill e.1 == q).map (·.1)).foldl (openCtx q) s

/-- Completes a COLL_CTL. -/
def endColl (s : State) (m : Msg) (c : Nat) (st : BitVec 8) (cdat : BitVec 16) : State :=
  finishOnce s (ingQuill (ctxQuill c)) m.hdr st (cflgOf false false (quillDegraded s (ctxQuill c)) false) cdat none

/-- Completes an OPEN that waits for its mirror open; `ok` says that the mirror is open (R444). -/
def answerOpener (s : State) (c : Nat) (ok : Bool) : State :=
  let v := s.ctx c
  match v.opener with
  | some m => endColl (s.setCtx c { v with opener := none }) m c St.ok (BitVec.ofNat 16 (v.cgen.toNat + 256 * b2n ok))
  | none => s

/-- Frees a context: its slot keeps CGEN, and an OPEN that waits for its mirror is answered, since it has been performed (R242, R259,
notes/assumptions/22.md). -/
def freeCtx (s : State) (c : Nat) : State :=
  let s := removeChunks (answerOpener s c false) fun k => k.ctx == c
  let v := s.ctx c
  openChunks (s.setCtx c { cgen := v.cgen, used := true }) (ctxQuill c)

/-- Sends the partner an ABORT that names the context's CGEN (R446). -/
def abortMirror (s : State) (c : Nat) : State :=
  let v := s.ctx c
  if v.partner = 0 ∨ v.st = .mirror then s
  else (sendCtx s c Op.collCtl 5 v.partner 0 4 false (leBytes 16 (c + v.cgen.toNat * 2 ^ 16))).2

/-- ABORT: frees the context in any state (R259, R262). -/
def abortCtx (s : State) (c : Nat) : State :=
  let v := s.ctx c
  let s := freeCtx (abortMirror s c) c
  if v.st = .running then raise s 0x0407 v.part.val [(2, c), (1, v.cgen.toNat)] else s

/-! ### Delivering chunks (R256 to R258) -/

/-- Puts a context in FAILED with a status (R258). -/
def failCtx (s : State) (c : Nat) (st : BitVec 8) : State :=
  let v := s.ctx c
  let s := removeChunks s fun k => k.ctx == c
  let s := openChunks (s.setCtx c { v with st := .failed, failSt := st, escHold := false }) (ctxQuill c)
  raise s 0x0406 v.part.val [(2, c), (1, st.toNat)]

/-- LOW after the delivered chunks at and above it; `fuel` bounds their number. -/
def advanceLow : Nat → Nat → List Nat → Nat
  | 0, low, _ => low
  | n + 1, low, d => if low ∈ d then advanceLow n (low + 1) d else low

/-- A chunk has been delivered: its slot and entries are freed, LOW advances, further chunks open (R256). -/
def chunkDelivered (s : State) (c i : Nat) : State :=
  let v := s.ctx c
  let s := removeChunks s fun k => k.ctx == c && k.idx == i
  let d := v.delivered ++ [i]
  let low := advanceLow d.length v.low d
  let v := { v with low := low, delivered := d.filter (low ≤ ·), st := if cdNchunk v.desc ≤ low then .done else v.st }
  openChunks (s.setCtx c v) (ctxQuill c)

/-- OPX of a RESULT (R257). -/
def resultOpx (s : State) (q : Nat) (v : VecOut) : Nat := b2n v.nanSeen + 2 * b2n v.over_ + 4 * b2n (quillDegraded s q)

/-- The chunk rounded once, or a broadcast's bits (R256). -/
def chunkResult (p : Pool) (v : Ctx) (k : Chunk) : VecOut :=
  if cdKind v.desc = 2 ∧ cdIfmt v.desc = cdOfmt v.desc then { bytes := k.raw, nanSeen := false, over_ := false, nNan := 0, nOver := 0 }
  else writeVec (cdOutFmt v.desc) (cdImode v.desc) (k.elems.map fun e => (e.total p).result (cdOp v.desc) (cdNcm1 v.desc + 1))

/-- Delivers a chunk whose bitmap is full (R256). -/
def deliverChunk (s : State) (c : Nat) (k : Chunk) : State :=
  let v := s.ctx c
  let q := ctxQuill c
  let r := chunkResult (s.quill q).pool v k
  let s := countVec s r
  let addr := c * 2 ^ 40 + k.idx * 2 ^ 20 + v.cgen.toNat * 2 ^ 12
  match cdKind v.desc with
  | 0 => chunkDelivered (sendCtx s c Op.result 6 (cdRdst v.desc) addr (resultOpx s q r) false r.bytes).2 c k.idx
  | 3 =>
    let x := sendCtx s c Op.store 3 v.memFid (cdRbase v.desc + k.idx * resultStride v.desc) 0 false r.bytes
    { x.2 with chunks := x.2.chunks.map fun y => if y.ctx = c ∧ y.idx = k.idx then { y with storing := some x.1 } else y }
  | _ =>
    chunkDelivered (sendCtx s c Op.result 6 (BitVec.ofNat 24 (cdLig v.desc)) addr (resultOpx s q r) true r.bytes).2 c k.idx

/-- The STORE of a REDUCE_TO_MEM chunk has completed (R256, R258). -/
def chunkStored (s : State) (k : Chunk) (st : BitVec 8) : State :=
  if st = St.ok then chunkDelivered s k.ctx k.idx else failCtx s k.ctx st

/-! ### Straggler monitors (R465) -/

/-- The bin of a lateness in timebase units. -/
def stragBin (t : Nat) : Nat := if t < us then 0 else min 7 (Nat.log2 (t / us) + 1)

/-- A monitor takes one accepted contribution; `last` says that it filled the chunk. -/
def stragTake (s : State) (m c i late : Nat) (last : Bool) : State :=
  let v := s.strag m
  let h := Sparse.get (List.replicate 8 0) v.hist i
  let h := h.set (stragBin late) (h.getD (stragBin late) 0 + 1)
  let run := if us * s.o (okey (0xA700 + m) 5) ≤ late then Sparse.get 0 v.run i + 1 else 0
  let s := s.setStrag m { hist := Sparse.set (List.replicate 8 0) v.hist i h,
                          last := if last then Sparse.set 0 v.last i (Sparse.get 0 v.last i + 1) else v.last,
                          run := Sparse.set 0 v.run i run }
  if 16 ≤ run then raiseLimited s (10 * ms) m 0x0912 (s.ctx c).part.val [(2, c), (2, i)] else s

/-- Every monitor that follows the context. -/
def stragglers (s : State) (c i late : Nat) (last : Bool) : State :=
  ((List.range 16).filter fun m => s.o (okey (0xA700 + m) 1) == c).foldl (fun s m => stragTake s m c i late last) s

/-! ### CONTRIB (R249, R250, R254) -/

/-- Fields of a CONTRIB's ADDR (R249). -/
def cnCtx (h : Hdr) : Nat := bits h.addr.toNat 55 40
def cnChunk (h : Hdr) : Nat := bits h.addr.toNat 39 20
def cnCgen (h : Hdr) : BitVec 8 := BitVec.ofNat 8 (bits h.addr.toNat 19 12)
def cnCidx (h : Hdr) : Nat := bits h.addr.toNat 9 0

/-- Contributors still missing from a chunk. -/
def missing (s : State) (c i : Nat) : Nat :=
  let v := s.ctx c
  let n := cdNcm1 v.desc + 1
  if i < v.low ∨ i ∈ v.delivered then 0
  else match s.chunks.find? fun k => k.ctx == c && k.idx == i with
    | some k => n - k.bits.length
    | none => n

/-- The outcome of R249 before anything is added: a status, "nothing added", or the chunk to add to. -/
inductive Judged where
  /-- `chunk` says that the chunk named is one of the context's, whose missing contributors the completion gives (R249). -/
  | refuse (st : BitVec 8) (chunk : Bool)
  | duplicate
  | busy
  | add (k : Chunk)
  deriving DecidableEq, Repr

def judge (s : State) (m : Msg) : Judged :=
  let h := m.hdr
  let c := cnCtx h
  let i := cnChunk h
  let x := cnCidx h
  let v := s.ctx c
  if v.st = .failed ∧ v.failSt = St.stateLost then .refuse St.stateLost false
  else if ¬ tileOk s (ctxQuill c / 4) then .refuse St.accessDenied false
  else if ¬ quillOk s (ctxQuill c) then .refuse St.replayExhausted false
  else if cnCgen h ≠ v.cgen ∨ v.st = .free ∨ v.st = .mirror then .refuse St.accessDenied false
  else if h.part.toNat ≠ v.part.val ∨ Sparse.get 0 v.joined x ≠ h.src ∨ ¬ (v.joined.any fun e => e.1 == x) then
    .refuse St.accessDenied false
  else if cdNcm1 v.desc < x ∨ cdNchunk v.desc ≤ i then .refuse St.boundExceeded (decide (i < cdNchunk v.desc))
  else if m.body.length ≠ (cdInFmt v.desc).vecBytes (chunkElems v.desc) then .refuse St.formatUnsupported true
  else if v.st = .failed then .refuse v.failSt true
  else if i < v.low ∨ i ∈ v.delivered then .duplicate
  else
    match s.chunks.find? fun k => k.ctx == c && k.idx == i with
    | some k => if x ∈ k.bits then .duplicate else if v.limit ≤ i then .busy else .add k
    | none => .busy

/-- Terms taken into elements in turn, from index `i` on, with the pool (R228, R229). -/
def takeTerms (op : Rop) : Pool → Nat → List Elem → List Term → List Elem × Pool
  | p, i, e :: es, t :: ts =>
    let x := e.takeIn op p i t
    let y := takeTerms op x.2 (i + 1) es ts
    (x.1 :: y.1, y.2)
  | p, _, es, _ => (es, p)

/-- Adds all E elements of a contribution: the elements and the pool after it, and the terms rounded toward zero. -/
def addElems (p : Pool) (v : Ctx) (k : Chunk) (body : List Byte) : List Elem × Pool × Nat :=
  let ts := (decodeVec (cdInFmt v.desc) (chunkElems v.desc) body).map Val.toTerm
  let x := takeTerms (cdOp v.desc) p 0 k.elems (ts.map (·.1))
  (x.1, x.2, (ts.filter (·.2)).length)

/-- Completes a contribution and counts it when it is refused (R249, R261, R262). -/
def answerContrib (s : State) (m : Msg) (st : BitVec 8) (cdat : Nat) : State :=
  let h := m.hdr
  let c := cnCtx h
  let cflg := cflgOf false false (quillDegraded s (ctxQuill c)) false
  let s := if st = St.ok then s else s.bump (okey 0x7000 8) 1
  let s := if st = St.ok ∨ st = St.busy then s
    else raiseLimited s ms c 0x0404 (s.ctx c).part.val [(2, c), (2, cnCidx h), (1, st.toNat)]
  complete s (ingQuill (ctxQuill c)) h st cflg (BitVec.ofNat 16 cdat)

/-- A contribution refused for want of escalation entries puts its context in escalation hold (R254, R255). -/
def refuseEsc (s : State) (m : Msg) (c i : Nat) : State :=
  let v := s.ctx c
  let s := s.bump (quillObj (ctxQuill c) 5) 1
  let s := if v.escHold then s
    else raise (s.setCtx c { v with escHold := true }) 0x0402 v.part.val [(2, c), (1, v.cgen.toNat)]
  answerContrib s m St.busy (missing s c i)

/-- Adds an accepted contribution, and delivers the chunk it fills (R250, R256). -/
def addContrib (s : State) (m : Msg) (k : Chunk) : State :=
  let c := k.ctx
  let q := ctxQuill c
  let v := s.ctx c
  let r := addElems (s.quill q).pool v k m.body
  let need := r.2.1.length - (s.quill q).pool.length
  if need ≠ 0 ∧ escLimit s q (some k.seq) < need then refuseEsc s m c k.idx
  else
    let before := poolFree s q
    let x := cnCidx m.hdr
    let k' := { k with bits := k.bits ++ [x], elems := r.1, raw := m.body, first := if k.bits.isEmpty then s.timebase else k.first }
    let full := decide (cdNcm1 v.desc + 1 ≤ k'.bits.length)
    let s := { s with chunks := s.chunks.map fun y => if y.ctx = c ∧ y.idx = k.idx then k' else y }
    let s := setPool s q r.2.1
    let s := if need = 0 then s else noteReserve (s.bump (quillObj q 4) need) q before (poolFree s q)
    let s := stragglers (countTrunc s q r.2.2) c x (s.timebase - k'.first) full
    let s := answerContrib s m St.ok (missing s c k.idx)
    if full then deliverChunk s c k' else s

def contribNow (s : State) (m : Msg) : State :=
  let c := cnCtx m.hdr
  let i := cnChunk m.hdr
  match judge s m with
  | .refuse st chunk => answerContrib s m st (if chunk then missing s c i else 0)
  | .duplicate => answerContrib (s.bump (okey 0x7000 5) 1) m St.ok (missing s c i)
  | .busy => answerContrib s m St.busy (missing s c i)
  | .add k => addContrib s m k

def execContrib (m : Msg) (s : State) : Host.Outcome State Fault Refusal :=
  .next (inTurn s m fun s => contribNow (takeDelivered s m) m)

/-! ### OPEN and the mirror open (R244, R245, R443, R444) -/

/-- The device that sent a mirror open: PARTNER equals SRC, a device's FID (R443). -/
def isMirrorOpen (m : Msg) (w : BitVec 512) : Bool := cdPartner w == m.hdr.src && cdPartner w != 0 && m.hdr.src.toNat % 256 == 0

/-- The rows of R245 that concern formats and bounds. -/
def openFormat (s : State) (m : Msg) (w : BitVec 512) : Option (BitVec 8) :=
  let f (c : Nat) := (Fmt.ofCode c).isNone
  if 3 < cdKind w ∨ 3 < cdRop w ∨ f (cdIfmt w) ∨ f (cdOfmt w) ∨ ¬ combAllowed [cdInFmt w] (cdOp w) (cdOutFmt w) ∨
      (cdKind w = 2 ∧ cdNcm1 w ≠ 0) ∨ (cdPartner w ≠ 0 ∧ (cdPartner w).toNat % 256 ≠ 0) ∨
      (cdPartner w = m.hdr.src ∧ cdPartner w ≠ 0 ∧ ¬ isMirrorOpen m w) then some St.formatUnsupported
  else if cdNchunk w = 0 ∨ 2 ^ 20 < cdNchunk w ∨ cdCwin w = 0 ∨ slotsOf s (ctxQuill (cdCtx w)) < cdCwin w then
    some St.boundExceeded
  else none

/-- The row of R245 that concerns where results go. -/
def openTarget (s : State) (p : Nat) (w : BitVec 512) : Option (BitVec 8) :=
  let e := ligEntry s (cdLig w)
  if (cdKind w = 1 ∨ cdKind w = 2) ∧ (¬ ligValid e ∨ ligOwner e ≠ p) then some St.accessDenied
  else if cdKind w = 3 then
    match resolveOwn s p (cdRbase w) (cdNchunk w * resultStride w) true with
    | .err st _ => some (if st = St.boundExceeded then st else St.accessDenied)
    | _ => none
  else none

/-- Why an OPEN fails, in order (R242, R245, R384, R439), and whether R245 or a rejection under R384 says so. -/
def openRefusal (s : State) (m : Msg) (w : BitVec 512) : Option (BitVec 8 × Bool) :=
  let c := cdCtx w
  let q := ctxQuill c
  let p := m.hdr.part.toNat
  let v := s.ctx c
  if m.body.length ≠ 64 then some (St.formatUnsupported, false)
  else if ¬ tileOk s (q / 4) then some (St.accessDenied, false)
  else if ¬ quillOk s q then some (St.replayExhausted, false)
  else if quillOwner s q ≠ p then some (St.accessDenied, true)
  else if v.st ≠ .free ∨ (isMirrorOpen m w ∧ v.used ∧ v.cgen = ccHcgen m.hdr) then some (St.busy, true)
  else match openFormat s m w with
    | some st => some (st, true)
    | none => if isMirrorOpen m w then none else (openTarget s p w).map fun st => (st, true)

/-- Sends a mirror open (R443). -/
def sendMirrorOpen (s : State) (c : Nat) (partner : Fid) : State :=
  let v := s.ctx c
  let x := sendCtx s c Op.collCtl 5 partner 0 (1 + v.cgen.toNat * 256) false (leBytes 64 (withPartner (cdKeep v.desc) (devFid s)).toNat)
  x.2.setCtx c { x.2.ctx c with partner := partner, mirror := 1, mirrorKey := some x.1 }

/-- Performs an OPEN or a mirror open. -/
def openNow (s : State) (m : Msg) : State :=
  let w := BitVec.ofNat 512 (leAt m.body 0 64)
  let c := cdCtx w
  let p : Part := ⟨m.hdr.part.toNat, m.hdr.part.isLt⟩
  match openRefusal s m w with
  | some (st, note) => endColl (if note then raise s 0x0403 p.val [(2, c), (1, st.toNat)] else s) m c st 0
  | none =>
    let v := s.ctx c
    if isMirrorOpen m w then
      let v : Ctx := { st := .mirror, cgen := ccHcgen m.hdr, desc := w, part := p, partner := m.hdr.src, oepoch := cdOepoch w,
                       mirror := 3, memFid := m.hdr.src, used := true }
      endColl (s.setCtx c v) m c St.ok (v.cgen.setWidth 16)
    else
      let v : Ctx := { st := .running, cgen := v.cgen + 1, desc := w, part := p, oepoch := cdOepoch w, memFid := devFid s, used := true }
      let s := s.setCtx c v
      if cdPartner w = 0 then openChunks (endColl s m c St.ok (v.cgen.setWidth 16)) (ctxQuill c)
      else
        let s := sendMirrorOpen (s.setCtx c { v with opener := some m }) c (cdPartner w)
        openChunks s (ctxQuill c)

/-- A context loses its mirror (R444, R452). -/
def mirrorLost (s : State) (c : Nat) : State :=
  let v := s.ctx c
  raise (s.setCtx c { v with partner := 0, mirror := 0, mirrorKey := none }) 0x090F v.part.val [(2, c), (4, v.partner.toNat)]

/-- The mirror open has completed, or its 4 µs have passed (R444). -/
def mirrorAnswer (s : State) (c : Nat) (ok : Bool) : State :=
  let v := s.ctx c
  let ok := ok && v.mirror == 1
  answerOpener (if ok then s.setCtx c { v with mirror := 2, mirrorKey := none } else if v.mirror = 1 then mirrorLost s c else s) c ok

/-- MIRROR_OPEN_TIMEOUT: 4 µs have passed since the mirror open was sent (R444). -/
def execMirrorOpenTimeout (ctx : BitVec 16) (s : State) : Host.Outcome State Fault Refusal :=
  .next (mirrorAnswer s ctx.toNat false)

/-! ### JOIN, CLOSE, ABORT (R248, R259, R446, R450) -/

/-- The context names a quill and its current CGEN; or the status (R242, R439, R450). -/
def ctxRefusal (s : State) (c : Nat) (cgen : BitVec 8) (abort : Bool) : Option (BitVec 8) :=
  let v := s.ctx c
  if ¬ abort ∧ v.st = .failed ∧ v.failSt = St.stateLost then some St.stateLost
  else if ¬ tileOk s (ctxQuill c / 4) then some St.accessDenied
  else if ¬ quillOk s (ctxQuill c) then some St.replayExhausted
  else if cgen ≠ v.cgen then some St.accessDenied
  else none

/-- JOIN (R248, R446). -/
def joinNow (s : State) (m : Msg) : State :=
  let c := ccCtx m.body
  let x := ccCidx m.body
  let v := s.ctx c
  match ctxRefusal s c (ccCgen m.body) false with
  | some st => endColl s m c st 0
  | none =>
    if v.st = .free ∨ v.part.val ≠ m.hdr.part.toNat then endColl s m c St.accessDenied 0
    else if v.st = .mirror then endColl s m c St.busy 0
    else if cdNcm1 v.desc < x then endColl s m c St.boundExceeded 0
    else
      match v.joined.find? fun e => e.1 == x with
      | some e =>
        if e.2 = m.hdr.src then sendCredit (endColl s m c St.ok 0) c m.hdr.src else endColl s m c St.accessDenied 0
      | none =>
        let s := s.setCtx c { v with joined := (v.joined.filter (·.1 < x)) ++ [(x, m.hdr.src)] ++ v.joined.filter (x < ·.1) }
        sendCredit (endColl s m c St.ok 0) c m.hdr.src

/-- CLOSE (R259). -/
def closeNow (s : State) (m : Msg) : State :=
  let c := ccCtx m.body
  let v := s.ctx c
  match ctxRefusal s c (ccCgen m.body) false with
  | some st => endColl s m c st 0
  | none =>
    if v.st = .free ∨ v.part.val ≠ m.hdr.part.toNat then endColl s m c St.accessDenied 0
    else match v.st with
      | .done => freeCtx (endColl (abortMirror s c) m c St.ok 0) c
      | .failed => freeCtx (endColl (abortMirror s c) m c v.failSt 0) c
      | .mirror => endColl s m c St.busy (BitVec.ofNat 16 (cdNchunk v.desc - v.recLow))
      | _ => endColl s m c St.busy (BitVec.ofNat 16 (cdNchunk v.desc - v.low))

/-- ABORT (R259). -/
def abortNow (s : State) (m : Msg) : State :=
  let c := ccCtx m.body
  let v := s.ctx c
  match ctxRefusal s c (ccCgen m.body) true with
  | some st => endColl s m c st 0
  | none =>
    if v.st = .free then endColl s m c St.ok 0
    else if v.part.val ≠ m.hdr.part.toNat then endColl s m c St.accessDenied 0
    else endColl (abortCtx s c) m c St.ok 0

/-- A COLL_CTL by its command (R243). -/
def collNow (s : State) (m : Msg) : State :=
  if ccCmd m.hdr = 1 then openNow s m
  else if m.body.length ≠ 16 then endColl s m (ccCtx m.body) St.formatUnsupported 0
  else match ccCmd m.hdr with
    | 2 => joinNow s m
    | 3 => closeNow s m
    | 4 => abortNow s m
    | _ => endColl s m (ccCtx m.body) St.formatUnsupported 0

/-- A COLL_CTL message, applied once. -/
def collRequest (s : State) (m : Msg) : State :=
  inTurn s m fun s => once (takeDelivered s m) (ingQuill (ctxQuill (ccCtx m.body))) m (fun s => collNow s m)

def execOpen (m : Msg) (s : State) : Host.Outcome State Fault Refusal := .next (collRequest s m)
def execMirrorOpen (m : Msg) (s : State) : Host.Outcome State Fault Refusal := .next (collRequest s m)
def execJoin (m : Msg) (s : State) : Host.Outcome State Fault Refusal := .next (collRequest s m)
def execClose (m : Msg) (s : State) : Host.Outcome State Fault Refusal := .next (collRequest s m)
def execAbort (m : Msg) (s : State) : Host.Outcome State Fault Refusal := .next (collRequest s m)

/-- CREDIT_REFRESH: CREDITs of every RUNNING context (R253). -/
def execCreditRefresh (s : State) : Host.Outcome State Fault Refusal :=
  .next (((s.ctxs.filter fun e => e.2.st == .running).map (·.1)).foldl sendCredits s)

/-! ### CREDIT received (R445, R449) -/

/-- The context becomes, or stays, a mirror with this record. -/
def adoptRecord (s : State) (c : Nat) (limit low : Nat) (epoch : BitVec 32) : State :=
  let v := s.ctx c
  let s := removeChunks s fun k => k.ctx == c
  openChunks (s.setCtx c { v with st := .mirror, mirror := 4, recLimit := limit, recLow := low, oepoch := epoch, joined := [],
                                  delivered := [], escHold := false }) (ctxQuill c)

def creditNow (s : State) (m : Msg) : State :=
  let b := leAt m.body 0 16
  let c := bits b 15 0
  let v := s.ctx c
  let e := m.hdr.aux
  if BitVec.ofNat 8 (bits b 23 16) ≠ v.cgen ∨ v.partner ≠ m.hdr.src ∨ v.partner = 0 ∨ v.part.val ≠ m.hdr.part.toNat then s
  else match v.st with
    | .mirror => if e.toNat < v.oepoch.toNat then s else adoptRecord s c (bits b 63 32) (bits b 95 64) e
    | .running =>
      if v.oepoch.toNat < e.toNat then adoptRecord s c (bits b 63 32) (bits b 95 64) e
      else if e.toNat < v.oepoch.toNat then s
      else if (devFid s).toNat < m.hdr.src.toNat then raise s 0x0910 v.part.val [(2, c), (4, v.partner.toNat)]
      else adoptRecord s c (bits b 63 32) (bits b 95 64) e
    | _ => s

def execCredit (m : Msg) (s : State) : Host.Outcome State Fault Refusal := .next (creditNow (takeDelivered s m) m)

/-! ### Promotion (R447, R450, R451) -/

/-- Promotes a complete mirror (R447). -/
def promote (s : State) (c : Nat) : State :=
  let v := s.ctx c
  let v' : Ctx := { v with st := .running, oepoch := v.oepoch + 1, low := v.recLow, limit := v.recLow, joined := [], delivered := [],
                           mirror := 0, escHold := false }
  let s := openChunks (s.setCtx c v') (ctxQuill c)
  let s := sendCredits (s.bump (okey 0xA600 6) 1) c
  raise s 0x090E v.part.val [(2, c), (4, v'.oepoch.toNat)]

/-- The home of a mirror is dead or fenced (R447, R450). -/
def homeLost (s : State) (c : Nat) : State :=
  let v := s.ctx c
  if v.mirror = 4 then promote s c
  else raise (s.setCtx c { v with st := .failed, failSt := St.stateLost, mirror := 0 }) 0x0911 v.part.val [(2, c)]

/-- Contexts whose partner or home is lost act on it (R447, R450, R452). -/
def partnersLost (s : State) (gone : Fid → Bool) : State :=
  ((s.ctxs.filter fun e => e.2.partner != 0 && gone e.2.partner).map (·.1)).foldl (fun s c =>
    match (s.ctx c).st with
    | .mirror => homeLost s c
    | .running => if (s.ctx c).mirror = 1 then mirrorAnswer s c false else if (s.ctx c).mirror = 2 then mirrorLost s c else s
    | _ => s) s

/-- MIRROR_PROMOTE (R447). -/
def setPromote (s : State) (by_ : Caller) (c : Nat) : Ans :=
  let v := s.ctx c
  guardRole s (ownerWrites s by_ v.part.val) <|
  guardRange s (quillOk s (ctxQuill c)) <|
  guardValue s (v.st == .mirror && v.mirror == 4) (Ans.ok (promote s c))

def execMirrorPromote (by_ : Caller) (ctx : BitVec 16) (s : State) : Host.Outcome State Fault Refusal :=
  (setPromote s by_ ctx.toNat).out by_

/-- MIRROR_RETARGET: aborts the current mirror and sends a mirror open to the new partner (R451). -/
def setRetarget (s : State) (by_ : Caller) (c : Nat) (partner : BitVec 32) : Ans :=
  let v := s.ctx c
  guardRole s (ownerWrites s by_ v.part.val) <|
  guardValue s (v.st == .running && partner.toNat % 256 == 0 && decide (partner.toNat < 2 ^ 24) && partner != 0 &&
      partner.toNat != (devFid s).toNat) <|
  let s := if v.mirror = 1 ∨ v.mirror = 2 then abortMirror s c else s
  Ans.ok (sendMirrorOpen s c (BitVec.ofNat 24 partner.toNat))

def execMirrorRetarget (by_ : Caller) (ctx : BitVec 16) (partner : BitVec 32) (s : State) : Host.Outcome State Fault Refusal :=
  (setRetarget s by_ ctx.toNat partner).out by_

/-! ### Dictionary writes (R259, R261) -/

/-- CTX_ABORT (R259). -/
def setCtxAbort (s : State) (by_ : Caller) (c : Nat) : Ans :=
  guardRole s (oprOver s by_ (s.ctx c).part.val) <|
  guardRange s (quillOk s (ctxQuill c)) <|
  Ans.ok (if (s.ctx c).st = .free then s else abortCtx s c)

def execCtxAbort (by_ : Caller) (ctx : BitVec 16) (s : State) : Host.Outcome State Fault Refusal := (setCtxAbort s by_ ctx.toNat).out by_

/-- Every context is FREE. -/
def allCtxFree (s : State) : Bool := s.ctxs.all fun e => e.2.st == .free

/-- CHUNK_SLOTS (R261, R309). -/
def setChunkSlots (s : State) (by_ : Caller) (v : Nat) : Ans :=
  guardRole s (isOpr s by_) <|
  guardRange s (decide (16 ≤ v) && decide (v ≤ 315)) <|
  if !allCtxFree s then Ans.no s Ds.unitNotStopped
  else guardValue s ((enabledQuills s).all fun q => decide ((unitsUsed s q).length ≤ unitsOffered s q v)) <|
    Ans.ok (s.setO (okey 0x7000 1) v)

def execChunkSlots (by_ : Caller) (v : BitVec 16) (s : State) : Host.Outcome State Fault Refusal := (setChunkSlots s by_ v.toNat).out by_

end Sys2Proof.Machine
end

