-- ==== Sys2Proof/Machine/Seals.lean ====
section
/-! DEFINITION. Seals and their batches (R374, R375, R378). -/

namespace Sys2Proof.Machine

/-- A Seal over its three digest messages (R375). -/
def sealOf (dp dw di : List Byte) : List Byte := shake 32 (ascii "SKOMIRS1" ++ shake 32 dp ++ shake 32 dw ++ shake 32 di)

/-- The program message: OP, PART, ADDR, OPX and the descriptor header (R375). -/
def sealProgram (m : Msg) (hdrLen : Nat) : List Byte :=
  [m.hdr.op, m.hdr.part.setWidth 8] ++ beBytes 7 m.hdr.addr.toNat ++ [BitVec.ofNat 8 (opxOf m.hdr)] ++ m.body.take hdrLen

/-- The 96-byte record of a Seal (R378). -/
def sealRecord (s : State) (h : Hdr) (sealed body : List Byte) : List Byte :=
  leBytes 8 h.opid.toNat ++ leBytes 8 (tstampNow s h.part.toNat) ++ sealed ++ shake 32 body ++ List.replicate 16 0#8

/-- Enters a record in the partition's open batch, or counts it (R378). -/
def recordSeal (s : State) (p : Nat) (r : List Byte) : State :=
  let b := s.batch p
  if b.open_.length < 4096 then s.setBatch p { b with open_ := b.open_ ++ [r] }
  else raiseLimited (s.bump (okey (0x7400 + p) 5) 1) ms p 0x040A p [(1, p)]

/-- Completes a BAG, FILTER or EXPAND with its data, and with a Seal where the request carries SEAL (R374). -/
def completeSealed (s : State) (ing : Nat) (m : Msg) (cflg : BitVec 8) (cdat : BitVec 16) (data : List Byte) (hdrLen : Nat)
    (dw di : List Byte) : State :=
  if m.hdr.seal then
    let body := padTo 16 data
    let x := sealOf (sealProgram m hdrLen) dw di
    let s := recordSeal s m.hdr.part.toNat (sealRecord s m.hdr x body)
    completeData s ing m.hdr (cflg ||| 8) cdat (body ++ x)
  else completeData s ing m.hdr cflg cdat data

end Sys2Proof.Machine
end

