-- ==== Sys2Proof/Machine/Tables.lean ====
section
/-! DEFINITION. Tables (R263 to R274): their records, row storage and the row directory. -/

namespace Sys2Proof.Machine

/-! ### Records (R263) -/

def tValid (w : BitVec 512) : Bool := bit w.toNat 511
def tSquill (w : BitVec 512) : Nat := bits w.toNat 505 500
def tRowlen (w : BitVec 512) : Nat := bits w.toNat 490 480
def tReaders (w : BitVec 512) : Nat := bits w.toNat 479 448
def tRowBase (w : BitVec 512) : Nat := bits w.toNat 447 408
def tNlocal (w : BitVec 512) : Nat := bits w.toNat 399 360
def tDirbase (w : BitVec 512) : Nat := bits w.toNat 359 304
def tDefaddr (w : BitVec 512) : Nat := bits w.toNat 303 248

/-- The record as it reads: reserved bits zero, TGEN of the generation in service. -/
def tableRecord (t : Table) : BitVec 512 :=
  let w := t.word.toNat
  let keep (hi lo : Nat) : Nat := bits w hi lo * 2 ^ lo
  BitVec.ofNat 512 (keep 511 500 + keep 490 480 + keep 479 408 + keep 399 248 + t.tgen.toNat)

/-- An extent in SPACE 0x00 of the owner, which may run across consecutive slice numbers (R264). -/
def extentOk (s : State) (p a n align : Nat) : Bool :=
  spaceOf a == 0 && bits a 47 33 == 0 && a % align == 0 &&
    (splitAt a n (2 ^ 26)).all fun x => decide (x.1 < 2 ^ 33) && (sliceOf s p (bits x.1 32 26)).isSome

/-- Bytes of a table's directory (R264). -/
def dirExtent (w : BitVec 512) : Nat := (tNlocal w + 63) / 64 * 32

/-- The first case of R264 that a record fails, as the lowest bit number of its field. `old` is the record in service that R292
compares a staged record with; `stateOk` says that the table is in the state the write needs. -/
def recordFault (s : State) (w : BitVec 512) (old : Option (BitVec 512)) (stateOk : Bool) : Option Nat :=
  let same (f : BitVec 512 → Nat) : Bool := match old with | some o => f o == f w | none => true
  let p := tableOwner w
  if !tValid w || !stateOk then some 511
  else if !partConfigured s p || !same tableOwner then some 506
  else if !quillOk s (tSquill w) || quillOwner s (tSquill w) != p || !same tSquill then some 500
  else if tRowlen w % 16 != 0 || decide (tRowlen w < 16) || decide (1024 < tRowlen w) || !same tRowlen then some 480
  else if !same tReaders then some 448
  else if decide (2 ^ 34 < tNlocal w) || decide (2 ^ 40 < tRowBase w + tNlocal w) then some 360
  else if !extentOk s p (tDirbase w) (dirExtent w) 32 then some 304
  else if !extentOk s p (tDefaddr w) (4 * tRowlen w) 16 then some 248
  else none

/-- The digest a table serves with from now on: what was staged, or zero (R376). -/
def Table.takeDigest (v : Table) : Table := { v with wdigest := v.wstaged.getD 0, wstaged := none }

/-- One TABLE_WRITE record (R264, R265). -/
def writeTable (by_ : Caller) (s : State) (r : BitVec 16 × BitVec 512) : Bool × State :=
  let t := r.1.toNat
  let w := r.2
  let v := s.table t
  if 4096 ≤ t ∨ ¬ ownerWrites s by_ (tableOwner w) then (false, s)
  else match recordFault s w none (v.st == .free) with
    | some f => (false, raise s 0x0501 (tableOwner w) [(2, t), (2, f)])
    | none => (true, s.setTable t { v.takeDigest with st := .serving, word := w, tgen := 0, staged := none, oldGens := [] })

def setTables (s : State) (by_ : Caller) (recs : List (BitVec 16 × BitVec 512)) : Ans :=
  guardRole s (isOpr s by_ || by_.role == .prt) (writeRecords (writeTable by_) s recs)

def execTableWrite (by_ : Caller) (recs : List (BitVec 16 × BitVec 512)) (s : State) : Host.Outcome State Fault Refusal :=
  (setTables s by_ recs).out by_

/-- One TABLE_STAGE record (R292, R295). -/
def stageTable (by_ : Caller) (s : State) (r : BitVec 16 × BitVec 512) : Bool × State :=
  let t := r.1.toNat
  let w := r.2
  let v := s.table t
  if 4096 ≤ t ∨ ¬ ownerWrites s by_ (tableOwner w) ∨ (v.st ≠ .free ∧ ¬ ownerWrites s by_ (tableOwner v.word)) ∨
      v.st = .switching then (false, s)
  else match recordFault s w (some v.word) (v.st == .serving) with
    | some f => (false, raise s 0x0501 (tableOwner w) [(2, t), (2, f)])
    | none => (true, s.setTable t { v with staged := some w })

/-- TABLE_STAGE takes one record (R302). -/
def setStages (s : State) (by_ : Caller) (recs : List (BitVec 16 × BitVec 512)) : Ans :=
  guardRole s (isOpr s by_ || by_.role == .prt) <|
  if recs.length ≠ 1 then Ans.no s Ds.wrongLength else writeRecords (stageTable by_) s recs

def execTableStage (by_ : Caller) (recs : List (BitVec 16 × BitVec 512)) (s : State) : Host.Outcome State Fault Refusal :=
  (setStages s by_ recs).out by_

/-- One WDIGEST_STAGE record (R376). A table that is not FREE belongs to its owner. -/
def stageDigest (by_ : Caller) (s : State) (r : BitVec 16 × BitVec 256) : Bool × State :=
  let t := r.1.toNat
  let v := s.table t
  if 4096 ≤ t ∨ (v.st ≠ .free ∧ ¬ ownerWrites s by_ (tableOwner v.word)) then (false, s)
  else (true, s.setTable t { v with wstaged := some r.2 })

def setDigests (s : State) (by_ : Caller) (recs : List (BitVec 16 × BitVec 256)) : Ans :=
  guardRole s (isOpr s by_ || by_.role == .prt) (writeRecords (stageDigest by_) s recs)

def execWdigestStage (by_ : Caller) (recs : List (BitVec 16 × BitVec 256)) (s : State) : Host.Outcome State Fault Refusal :=
  (setDigests s by_ recs).out by_

/-! ### Row storage (R267, R268) -/

/-- Row size by width class (R267). -/
def rowSize (wcls l : Nat) : Nat :=
  match wcls with
  | 0 => 4 * l
  | 1 => 2 * l
  | 2 => 16 + l
  | _ => 16 + 16 * ((l + 31) / 32)

/-- The exact product of two values; 0 × ∞ is NaN. -/
def Val.mul (a b : Val) : Val :=
  match a, b with
  | .nan, _ | _, .nan => .nan
  | .inf g, .inf h => .inf (g != h)
  | .inf g, .fin h m _ | .fin h m _, .inf g => if m = 0 then .nan else .inf (g != h)
  | .fin g m e, .fin h n f => .fin (g != h) (m * n) (e + f)

/-- The exact sum of two values; ∞ − ∞ is NaN. -/
def Val.plus (a b : Val) : Val :=
  match a, b with
  | .nan, _ | _, .nan => .nan
  | .inf g, .inf h => if g = h then .inf g else .nan
  | .inf g, .fin _ _ _ | .fin _ _ _, .inf g => .inf g
  | .fin g m e, .fin h n f =>
    let k := min e f
    let x : Int := m * 2 ^ (e - k).toNat
    let y : Int := n * 2 ^ (f - k).toNat
    let v := (if g then -x else x) + (if h then -y else y)
    .fin (if v = 0 then g && h else decide (v < 0)) v.natAbs k

/-- The exact element values of a row (R267, R268). -/
def decodeRow (wcls l : Nat) (bs : List Byte) : List Val :=
  match wcls with
  | 0 => decodeVec .fp32 l bs
  | 1 => decodeVec .bf16 l bs
  | 2 =>
    let sc := decodeElem .fp32 (leAt bs 0 4)
    (decodeVec .e4m3 l (bs.drop 16)).map fun e => e.mul sc
  | _ =>
    let sc := decodeElem .fp32 (leAt bs 0 4)
    let off := decodeElem .fp32 (leAt bs 4 4)
    (List.range l).map fun i => ((decodeInt 4 (packedAt bs 16 4 i) 0).mul sc).plus off

/-- A result in units of 2^-160, where it is finite. -/
def resUnits : Res → Option Int
  | .val g n d => some ((if g then -(n : Int) else n) / d)
  | _ => none

/-- 2^e as an FP32 pattern, for e from -149 to 127. -/
def pow2Fp32 (e : Int) : Nat := if e < -126 then 2 ^ (e + 149).toNat else (e + 127).toNat * 2 ^ 23

/-- The least e from -149 with a ≤ c × 2^e and b ≤ d × 2^e, in units of 2^-160; none when it exceeds 127. -/
def leastExp (a c b d : Int) : Option Int :=
  ((List.range 277).find? fun i => decide (a ≤ c * 2 ^ (11 + i)) && decide (b ≤ d * 2 ^ (11 + i))).map fun i => (i : Int) - 149

/-- One W8 element under SCALE' = 2^e; none of the row is beyond it unless `over` (R287). -/
def w8Elem (e : Int) (r : Res) : Written :=
  match r with
  | .val g n d =>
    if 448 * 2 ^ (e + 160).toNat * d < n then { pat := 0x7F, overflow := true }
    else { pat := signed .e4m3 g (min (roundMag .e4m3 n d e) 0x7E) }
  | .nan i => { pat := 0x7F, made := !i, nanIn := i }
  | .inf _ => { pat := 0x7F }

/-- A signed number divided by 2^k units, rounded to nearest even. -/
def rneUnits (v : Int) (k : Nat) : Int :=
  let q : Int := divRne v.natAbs (2 ^ k)
  if v < 0 then -q else q

/-- The counts and flags of written elements, with their bytes (R235, R236, R261). -/
def writtenOut (bytes : List Byte) (ws : List Written) (extra : Nat) : VecOut :=
  let over_ := (ws.filter (·.overflow)).length + extra
  { bytes := bytes, nanSeen := ws.any (·.nanIn), over_ := decide (0 < over_), nNan := (ws.filter (·.nanIn)).length,
    nOver := over_ + (ws.filter (·.made)).length }

/-- A W8 row (R287). -/
def encodeW8 (rs : List Res) : VecOut :=
  let a := (rs.filterMap resUnits).foldl (fun m x => max m x.natAbs) 0
  let e := if a = 0 then 0 else (leastExp a 448 0 1).getD 127
  let ws := rs.map (w8Elem e)
  writtenOut (leBytes 4 (pow2Fp32 e) ++ List.replicate 12 0#8 ++ ws.map fun w => BitVec.ofNat 8 w.pat) ws 0

/-- The W4 NaN row (R287). -/
def w4NanRow (l : Nat) : List Byte := leBytes 4 0x7FC00000 ++ List.replicate (rowSize 3 l - 4) 0#8

/-- A W4 row (R287). -/
def encodeW4 (rs : List Res) : VecOut :=
  let l := rs.length
  let us := rs.filterMap resUnits
  if us.length < l then
    writtenOut (w4NanRow l) (rs.map fun r => match r with | .nan i => { pat := 0, made := !i, nanIn := i } | _ => { pat := 0 }) 0
  else
    let hi := us.foldl max (us.headD 0)
    let lo := us.foldl min (us.headD 0)
    let mid := hi + lo
    let neg := if mid = 0 then rs.all fun r => match r with | .val g n _ => g && n == 0 | _ => false else decide (mid < 0)
    let o := writeFloat .fp32 (.val neg mid.natAbs 2)
    let ov := (resUnits (match (decodeElem .fp32 o.pat).toTerm.1 with | .fin g n => .val g n 1 | _ => .inf false)).getD 0
    let e := if hi - ov = 0 ∧ ov - lo = 0 then some 0 else leastExp (hi - ov) 7 (ov - lo) 8
    match o.overflow, e with
    | false, some e =>
      let qs := us.map fun u => ((max (-8) (min 7 (rneUnits (u - ov) (e + 160).toNat))) % 16).toNat
      writtenOut (padTo 16 (leBytes 4 (pow2Fp32 e) ++ leBytes 4 o.pat ++ List.replicate 8 0#8 ++ packBytes 4 qs)) [] 0
    | _, _ => writtenOut (w4NanRow l) [] 1

/-- A row as written back (R287). -/
def encodeRow (wcls : Nat) (rs : List Res) : VecOut :=
  match wcls with
  | 0 => writeVec .fp32 false rs
  | 1 => writeVec .bf16 false rs
  | 2 => encodeW8 rs
  | _ => encodeW4 rs

/-! ### The row directory (R269 to R271) -/

def geValid (e : Nat) : Bool := bit e 255
def geHomea (e : Nat) : Nat := bits e 247 192
def gePresent (e j : Nat) : Bool := bit e (128 + j)
def geWcls (e j : Nat) : Nat := bits e (2 * j + 1) (2 * j)

/-- Offset of row `j` in its group's storage (R270). -/
def rowOffset (e l j : Nat) : Nat :=
  ((List.range j).map fun k => if gePresent e k then rowSize (geWcls e k) l else 0).foldl (· + ·) 0

/-- Reads a group entry in the owner's memory, or why it cannot be read. -/
def readEntry (s : State) (w : BitVec 512) (g : Nat) : Except (BitVec 8 × Nat) Nat :=
  match resolveOwn s (tableOwner w) (tDirbase w + 32 * g) 32 false with
  | .segs [x] =>
    match x.loc with
    | .phys a => match readPhys s a 32 with
      | some bs => .ok (leNat bs)
      | none => .error (St.uncorrectable, x.addr)
    | .remote _ _ _ => .error (St.accessDenied, 0)
  | .err st _ => .error (st, 0)
  | _ => .error (St.accessDenied, 0)

/-- resolve(t, x) (R271). -/
def resolveIndex (s : State) (w : BitVec 512) (x : Nat) : IdxRes :=
  if 2 ^ 40 ≤ x then .invalid
  else if x < tRowBase w ∨ tNlocal w ≤ x - tRowBase w then .missing
  else
    let r := x - tRowBase w
    match readEntry s w (r / 64) with
    | .error e => .fail e.1
    | .ok e =>
      if !geValid e || !gePresent e (r % 64) then .missing
      else .row (geWcls e (r % 64)) (geHomea e + rowOffset e (tRowlen w) (r % 64))

/-- Directory words that an index list meets uncorrectable, by address: each raises MEM_UNCORRECTABLE (R216). -/
def badEntries (s : State) (w : BitVec 512) (xs : List Nat) : List Nat :=
  (xs.filterMap fun x =>
    if 2 ^ 40 ≤ x ∨ x < tRowBase w ∨ tNlocal w ≤ x - tRowBase w then none
    else match readEntry s w ((x - tRowBase w) / 64) with
      | .error (st, a) => if st = St.uncorrectable then some a else none
      | .ok _ => none).eraseDups

/-! ### Popularity (R273) -/

/-- The space-saving rule for one index position. -/
def popTake (l : List Pop) (t x : Nat) : List Pop :=
  if l.any fun e => e.table == t && e.index == x then
    l.map fun e => if e.table = t ∧ e.index = x then { e with count := e.count + 1 } else e
  else if l.length < 4096 then l ++ [{ table := t, index := x, count := 1 }]
  else
    let low := l.foldl (fun m e => min m e.count) ((l.head?.map (·.count)).getD 0)
    let i := l.findIdx fun e => e.count == low
    l.set i { table := t, index := x, count := low + 1 }

/-- POP_HALVING: all counts are halved (R273). -/
def execPopHalving (s : State) : Host.Outcome State Fault Refusal :=
  .next { s with quills := s.quills.map fun e => (e.1, { e.2 with pop := e.2.pop.map fun p => { p with count := p.count / 2 } }) }

end Sys2Proof.Machine
end

