-- ==== Sys2Proof/Machine/Gather.lean ====
section
/-! DEFINITION. BAG, SCATTER_ADD and FILTER (R275 to R300): queue, windows, passes and results; table replacement (R292 to R296). -/

namespace Sys2Proof.Machine

/-! ### Requests (R266, R275, R286, R297) -/

/-- The table a request names, and the table record. -/
def gTable (h : Hdr) : Nat := bits h.addr.toNat 55 44

def hdrField (m : Msg) (hi lo : Nat) : Nat := bits (leAt m.body 0 48) hi lo

/-- A request's index width in bytes. -/
def gIdxw (m : Msg) : Nat :=
  if bit (leAt m.body 0 48) (if m.hdr.op = Op.bag then 8 else if m.hdr.op = Op.scatterAdd then 4 else 3) then 8 else 4

def gNidx (m : Msg) : Nat := hdrField m 28 16
/-- WIN and WCNT; a FILTER has no window. -/
def gWin (m : Msg) : Nat := if m.hdr.op = Op.filter then 0 else hdrField m 47 32
def gWcnt (m : Msg) : Nat := hdrField m 60 48
def gRop (m : Msg) : Option Rop :=
  match hdrField m 3 0 with
  | 0 => some .sum | 1 => some .mean | 2 => some .max | 4 => some .wsum | 5 => some .dot | _ => none
/-- OFMT of a BAG, GFMT of a SCATTER_ADD. -/
def gOfmt (m : Msg) : Option Fmt := Fmt.ofCode (hdrField m 7 4)
def gGfmt (m : Msg) : Option Fmt := Fmt.ofCode (hdrField m 3 0)
def gScale (m : Msg) : Val := decodeElem .fp32 (hdrField m 95 64)

/-- FILTER header fields (R297). -/
def fTopk (m : Msg) : Bool := bit (leAt m.body 0 48) 0
def fRange (m : Msg) : Bool := bit (leAt m.body 0 48) 1
def fDot (m : Msg) : Bool := bit (leAt m.body 0 48) 2
def fBmap (m : Msg) : Bool := bit (leAt m.body 0 48) 4
def fDesc (m : Msg) : Bool := bit (leAt m.body 0 48) 5
def fVop (m : Msg) : Nat := hdrField m 10 8
def fK (m : Msg) : Nat := hdrField m 24 16
def fCol (m : Msg) : Nat := hdrField m 41 32
def fNcand (m : Msg) : Nat := hdrField m 84 64
def fVref (m : Msg) : Nat := hdrField m 127 96
def fRlo (m : Msg) : Nat := hdrField m 167 128
def fKlo (m : Msg) : Nat := hdrField m 231 192
def fKhi (m : Msg) : Nat := hdrField m 295 256
/-- Where the bitmap and the query of a FILTER begin. -/
def fBitsAt (m : Msg) : Nat := 48 + (if fRange m then 0 else roundUp (gIdxw m * fNcand m) 16)
def fQueryAt (m : Msg) : Nat := fBitsAt m + (if fBmap m then roundUp ((fNcand m + 7) / 8) 16 else 0)

/-- The index list: of a BAG or SCATTER_ADD, or a FILTER's candidates (R275, R286, R297). -/
def gIndices (m : Msg) : List Nat :=
  if m.hdr.op = Op.filter then
    if fRange m then (List.range (fNcand m)).map (fRlo m + ·)
    else (List.range (fNcand m)).map fun i => leAt m.body (48 + gIdxw m * i) (gIdxw m)
  else (List.range (gNidx m)).map fun i => leAt m.body (32 + gIdxw m * i) (gIdxw m)

/-- Where the weights, the query or the gradients begin. -/
def gTail (m : Msg) : Nat := 32 + roundUp (gIdxw m * gNidx m) 16

/-- Bytes of one gradient row. -/
def gradLen (f : Fmt) (l : Nat) : Nat := roundUp (f.vecBytes l) 16

/-- Why a BAG fails (R276). -/
def bagRefusal (m : Msg) (l : Nat) : Option (BitVec 8) :=
  if 16 ≤ m.body.length ∧ 4096 < gNidx m then some St.boundExceeded
  else if m.body.length < 32 then some St.formatUnsupported
  else match gRop m, gOfmt m with
    | some rop, some f =>
      let tail := match rop with | .wsum => roundUp (4 * gNidx m) 16 | .dot => roundUp (4 * l) 16 | _ => 0
      if m.body.length ≠ gTail m + tail ∨ f.isInt ∨ (f.isMx ∧ l % 32 ≠ 0) ∨
          (gWin m ≠ 0 ∧ (gWcnt m = 0 ∨ 4096 < gWcnt m)) then some St.formatUnsupported
      else none
    | _, _ => some St.formatUnsupported

/-- Why a SCATTER_ADD fails (R599). -/
def scatterRefusal (m : Msg) (l : Nat) : Option (BitVec 8) :=
  if 16 ≤ m.body.length ∧ 4096 < gNidx m then some St.boundExceeded
  else if m.body.length < 32 then some St.formatUnsupported
  else match gGfmt m with
    | some f =>
      if gNidx m = 0 ∨ ¬ (f = .fp32 ∨ f = .bf16 ∨ f = .fp16) ∨ (gWin m ≠ 0 ∧ (gWcnt m = 0 ∨ 4096 < gWcnt m)) ∨
          m.body.length ≠ gTail m + gNidx m * gradLen f l then some St.formatUnsupported
      else none
    | none => some St.formatUnsupported

/-- Why a FILTER fails (R300). -/
def filterRefusal (m : Msg) (l : Nat) : Option (BitVec 8) :=
  if m.body.length < 48 then some St.formatUnsupported
  else if fNcand m = 0 ∨ (if fRange m then 2 ^ 20 else 262144) < fNcand m ∨ (fTopk m ∧ (fK m = 0 ∨ 256 < fK m)) ∨
      (¬ fDot m ∧ l ≤ fCol m) then some St.boundExceeded
  else if fVop m = 7 ∨ m.body.length ≠ fQueryAt m + (if fDot m then 4 * l else 0) then some St.formatUnsupported
  else none

def gRefusal (m : Msg) (l : Nat) : Option (BitVec 8) :=
  if m.hdr.op = Op.bag then bagRefusal m l else if m.hdr.op = Op.scatterAdd then scatterRefusal m l else filterRefusal m l

/-! ### Completing -/

/-- Completes a request without data, and counts it (R302). -/
def gFail (s : State) (ing t : Nat) (m : Msg) (st cflg : BitVec 8) (cdat : Nat) : State :=
  let s := s.setTable t { s.table t with requests := (s.table t).requests + 1 }
  finishOnce s ing m.hdr st cflg (BitVec.ofNat 16 cdat) none

/-- CFLG of what a quill completes without data. -/
def quillFlag (s : State) (q : Nat) : BitVec 8 := cflgOf false false (quillDegraded s q) false

/-- Runs of a table. -/
def tableRuns (s : State) (t : Nat) : List Run := s.quills.flatMap fun e => e.2.runs.filter (·.table == t)

/-- Each generation that no request of its own runs on retires, and a RETIRING table enters FREE once none of its requests runs (R296,
R303). -/
def settleTable (s : State) (t : Nat) : State :=
  let s := (s.table t).oldGens.foldl (fun s g =>
    if (tableRuns s t).any fun r => r.tgen == g then s
    else
      let v := s.table t
      raise (s.setTable t { v with oldGens := v.oldGens.filter (· != g) }) 0x0503 (tableOwner v.word) [(2, t), (2, g.toNat)]) s
  if (s.table t).st = .retiring ∧ (tableRuns s t).isEmpty then
    s.setTable t { s.table t with st := .free, word := 0, tgen := 0, staged := none, wdigest := 0, oldGens := [] }
  else s

/-! ### Starting passes (R282 to R285, R294) -/

def modRun (s : State) (q : Nat) (r : Run) : State :=
  let v := s.quill q
  s.setQuill q { v with runs := v.runs.map fun x => if x.id = r.id then r else x }

/-- Accumulator elements of one item of a pass (R282). -/
def itemElems (l : Nat) (g : GReq) : Nat :=
  if g.msg.hdr.op = Op.filter then 0
  else if g.msg.hdr.op = Op.bag ∧ gRop g.msg = some .dot then roundUp (gNidx g.msg) 64 else roundUp l 64

/-- Items whose accumulators fit, and their elements. -/
def takeItems (cap : Nat) : List Nat → Nat → Nat × Nat
  | [], used => (0, used)
  | e :: es, used => if cap < used + e then (0, used) else let r := takeItems cap es (used + e); (r.1 + 1, r.2)

/-- The run writes its table back. -/
def Run.scatters (r : Run) : Bool := match r.reqs with | g :: _ => g.msg.hdr.op == Op.scatterAdd | [] => false

/-- A pass of the same table is under way that this one must be ordered against (R289). -/
def runBlocked (s : State) (q : Nat) (r : Run) : Bool :=
  (s.quill q).runs.any fun x => x.id != r.id && x.table == r.table && x.stage != .idle && (x.scatters || r.scatters)

/-- Spill areas: four in each slice that SPILL_SLICES names (R284). -/
def spillAreas (s : State) : Nat := 4 * (spillSliceList s).eraseDups.length
/-- Areas that started passes hold, and the lowest free one. -/
def spillsHeld (s : State) : List Nat := (s.quills.flatMap fun e => e.2.runs).filterMap (·.spill)
def freeSpill (s : State) : Option Nat := (List.range (spillAreas s)).find? fun a => a ∉ spillsHeld s

/-- Physical address of a spill area of 16 MiB. -/
def spillBase (s : State) (a : Nat) : Nat := physSlice ((spillSliceList s).eraseDups.getD (a / 4) 0) + a % 4 * 2 ^ 24

/-- A FILTER's candidates that its bitmap leaves, with their positions (R298). -/
def fCands (m : Msg) : List (Nat × Nat) :=
  let bm := slice m.body (fBitsAt m) ((fNcand m + 7) / 8)
  ((List.range (fNcand m)).zip (gIndices m)).filter fun c => !fBmap m || bit (bm.getD (c.1 / 8) 0).toNat (c.1 % 8)

/-- Indices a request resolves. -/
def gResolved (m : Msg) : List Nat := if m.hdr.op = Op.filter then (fCands m).map (·.2) else gIndices m

/-- A key passes a FILTER's bounds (R298). -/
def keyOk (m : Msg) (x : Nat) : Bool := decide (fKlo m ≤ x) && decide (x ≤ fKhi m)

/-- What an index of a run resolved to. -/
def Run.resOf (r : Run) (x : Nat) : IdxRes := ((r.res.find? fun e => e.1 == x).map (·.2)).getD .missing

/-- Starts the access of one row: a read, or a write of `bs` (R266, R271). -/
def accessRow (s : State) (q : Nat) (w : BitVec 512) (o : RowOp) (bs : Option (List Byte)) : RowOp × State :=
  let p := tableOwner w
  let len := rowSize o.wcls (tRowlen w)
  match resolveOwn s p o.addr len bs.isSome with
  | .err st tier =>
    ({ o with wait := none, subs := [deadSub o.addr len (tier.getD 0) st] }, s)
  | .wait n _ => ({ o with wait := some n, subs := [] }, s)
  | .segs gs =>
    let x := match bs with
      | some d => overRuns (fun s off g => writeAt s q (BitVec.ofNat 5 p) g (slice d off g.len)) s (gs.flatMap storeRuns)
      | none => overRuns (fun s _ g => readAt s [] q (BitVec.ofNat 5 p) g) s (gs.flatMap loadRuns)
    ({ o with wait := none, subs := x.1 }, x.2)

/-- Starts the reads of a list of rows. -/
def readRows (s : State) (q : Nat) (w : BitVec 512) (os : List RowOp) : List RowOp × State :=
  os.foldl (fun a o => let x := accessRow a.2 q w o none; (a.1 ++ [x.1], x.2)) ([], s)

/-- The rows a list of indices reads, each once; the default row once where a position needs it (R278, R282). -/
def rowsOf (r : Run) (xs : List Nat) (dflt : Bool) : List RowOp :=
  let rows := xs.eraseDups.filterMap fun x => match r.resOf x with
    | .row c a => some { index := some x, wcls := c, addr := a, subs := [] }
    | _ => none
  let missing := xs.any fun x => match r.resOf x with | .invalid | .missing => true | _ => false
  if dflt && missing then rows ++ [{ index := none, wcls := 0, addr := tDefaddr r.word, subs := [] }] else rows

/-- Counts one index position (R274). -/
def countPosition (scatter : Bool) (v : Table) (i : IdxRes) : Table :=
  let d := if scatter then v.defUsed else v.defUsed + 1
  match i with
  | .row c _ => { v with hits := v.hits.set c (v.hits.getD c 0 + 1) }
  | .missing => { v with missing := v.missing + 1, defUsed := d }
  | .invalid => { v with invalid := v.invalid + 1, defUsed := d }
  | .fail _ => v

/-- Counts the positions of requests by class, and those of BAGs by popularity (R273, R274). -/
def countPositions (s : State) (q : Nat) (r : Run) (gs : List GReq) : State :=
  gs.foldl (fun s g =>
    let xs := if g.msg.hdr.op = Op.filter then [] else gIndices g.msg
    let s := s.setTable r.table (xs.foldl (fun v x => countPosition (g.msg.hdr.op == Op.scatterAdd) v (r.resOf x)) (s.table r.table))
    if g.msg.hdr.op = Op.bag then
      let v := s.quill q
      s.setQuill q { v with pop := xs.foldl (fun l x => popTake l r.table x) v.pop }
    else s) s

/-- Counts the stall of a request's rows in objects (R324). -/
def gatherStall (s : State) (r : Run) (g : GReq) : State :=
  stallRanges s g.msg.hdr.part.toNat
    ((rowsOf r (gResolved g.msg) (g.msg.hdr.op == Op.bag)).map fun o => (o.addr, rowSize o.wcls (tRowlen r.word)))

/-- Resolves the indices of requests (R271, R294); directory words that cannot be read are reported (R216). -/
def resolveAll (s : State) (r : Run) (gs : List GReq) : Run × State :=
  let xs := (gs.flatMap fun g => gResolved g.msg).eraseDups
  ({ r with res := xs.map fun x => (x, resolveIndex s r.word x) },
    (badEntries s r.word xs).foldl (fun s a => raiseUncorr s (tableOwner r.word) a) s)

/-- The distinct present rows of a scatter-add window, in ascending index order (R288). -/
def scatterRows (r : Run) : List Nat :=
  let xs := r.res.filterMap fun e => match e.2 with | .row _ _ => some e.1 | _ => none
  xs.foldl (fun l x => l.takeWhile (· < x) ++ [x] ++ l.dropWhile (· < x)) []

/-- A run's items still to be passed, as accumulator elements. -/
def Run.items (r : Run) : List Nat :=
  if r.scatters then r.rows.map fun _ => roundUp (tRowlen r.word) 64 else r.reqs.map (itemElems (tRowlen r.word))

/-! ### Arithmetic of a pass (R277 to R279, R282, R287, R298) -/

/-- The access of a row in the pass; none for the default row. -/
def Run.opOf (r : Run) (x : Option Nat) : Option RowOp := r.ops.find? fun o => o.index == x

/-- A position's row: none for the default row. -/
def Run.rowKey (r : Run) (x : Nat) : Option Nat := match r.resOf x with | .row _ _ => some x | _ => none

/-- The status of a position (R279). -/
def Run.posStatus (r : Run) (x : Nat) : BitVec 8 :=
  match r.resOf x with
  | .fail st => st
  | _ => match (r.opOf (r.rowKey x)).bind fun o => failedSub o.subs with
    | some f => f.st
    | none => St.ok

/-- The exact elements of a row of the pass. -/
def Run.rowVals (r : Run) (x : Option Nat) : List Val :=
  match r.opOf x with
  | some o => decodeRow o.wcls (tRowlen r.word) (subsData o.subs)
  | none => []

/-- Adds one to the count of a (row, multiplier) pair. -/
def addPair (l : List ((Option Nat × Option Val) × Nat)) (k : Option Nat × Option Val) : List ((Option Nat × Option Val) × Nat) :=
  if l.any fun e => e.1 == k then l.map fun e => if e.1 = k then (k, e.2 + 1) else e else l ++ [(k, 1)]

/-- The terms of one coalesced row (R282). -/
def rowTerms (rop : Rop) (vs : List Val) (w : Option Val) (c : Nat) : List (Term × Bool) :=
  vs.map fun v => match rop, w with
    | .max, _ => v.toTerm
    | _, some x => mulTerm v (x.times c)
    | _, none => (v.times c).toTerm

/-- What pooling gives: the result elements, terms rounded toward zero, and elements escalated. -/
structure Pooled where
  rs    : List Res
  trunc : Nat
  esc   : Nat
  deriving DecidableEq, Repr, Inhabited

/-- The product sum of two vectors, and its rounded terms. -/
def dotElem (a b : List Val) : Sum × Nat :=
  let ts := (a.zip b).map fun p => mulTerm p.1 p.2
  (ts.foldl (fun e t => e.take .dot t.1) {}, (ts.filter (·.2)).length)

/-- A bag's exact result elements (R277, R282). -/
def poolBag (r : Run) (m : Msg) (rop : Rop) : Pooled :=
  let l := tRowlen r.word
  let keys := (gIndices m).map r.rowKey
  if rop = .dot then
    let q := decodeVec .fp32 l (m.body.drop (gTail m))
    let ds := keys.eraseDups.map fun k => (k, dotElem (r.rowVals k) q)
    { rs := keys.map fun k => ((ds.find? fun d => d.1 == k).map fun d => d.2.1.result .dot 1).getD (.nan false)
      trunc := (ds.map fun d => d.2.2).foldl (· + ·) 0
      esc := (ds.filter fun d => d.2.1.esc).length }
  else
    let ws := decodeVec .fp32 (gNidx m) (m.body.drop (gTail m))
    let pairs := if rop = .max then keys.eraseDups.map fun k => ((k, none), 1)
      else if rop = .wsum then (keys.zip ws).foldl (fun l k => addPair l (k.1, some k.2)) []
      else keys.foldl (fun l k => addPair l (k, none)) []
    let x := pairs.foldl (fun (a : List Sum × Nat) p =>
      let ts := rowTerms rop (r.rowVals p.1.1) p.1.2 p.2
      (List.zipWith (fun e t => e.take rop t.1) a.1 ts, a.2 + (ts.filter (·.2)).length)) (List.replicate l {}, 0)
    { rs := x.1.map (Sum.result rop (gNidx m)), trunc := x.2, esc := (x.1.filter (·.esc)).length }

/-- A candidate's exact score, its rounded terms, and whether the element escalated. -/
def scoreOf (r : Run) (m : Msg) (x : Nat) : Res × Nat × Bool :=
  let vs := r.rowVals (some x)
  if fDot m then
    let d := dotElem vs (decodeVec .fp32 (tRowlen r.word) (m.body.drop (fQueryAt m)))
    (d.1.result .dot 1, d.2, d.1.esc)
  else (((({} : Sum).take .sum (vs.getD (fCol m) .nan).toTerm.1).result .sum 1), 0, false)

/-- Elements that a bag escalates, where every row of it has been read. -/
def bagEsc (r : Run) (m : Msg) : Nat :=
  if (gIndices m).any fun x => r.posStatus x != St.ok then 0
  else match gRop m, gOfmt m with
    | some rop, some _ => (poolBag r m rop).esc
    | _, _ => 0

/-- Present candidates within the bounds. -/
def seenCands (r : Run) (m : Msg) : List (Nat × Nat) :=
  (fCands m).filter fun c => (match r.resOf c.2 with | .row _ _ => true | _ => false) && keyOk m c.2

/-- The distinct candidates' scores. -/
def candScores (r : Run) (m : Msg) : List (Nat × Res × Nat × Bool) :=
  ((seenCands r m).map (·.2)).eraseDups.map fun x => (x, scoreOf r m x)

/-- The first status other than OK that a FILTER's candidates meet (R279). -/
def candStatus (r : Run) (m : Msg) : BitVec 8 :=
  let look (x : Nat) : BitVec 8 := match r.resOf x with
    | .fail st => st
    | .row _ _ => if keyOk m x then r.posStatus x else St.ok
    | _ => St.ok
  (((fCands m).map fun c => look c.2).find? (· != St.ok)).getD St.ok

/-- Scores that a FILTER escalates, where every row of it has been read. -/
def filterEsc (r : Run) (m : Msg) : Nat :=
  if candStatus r m ≠ St.ok then 0 else ((candScores r m).filter fun i => i.2.2.2).length

/-- Gradient row `i` of a message. -/
def gradient (m : Msg) (l i : Nat) : List Val :=
  match gGfmt m with
  | some f => decodeVec f l (m.body.drop (gTail m + i * gradLen f l))
  | none => []

/-- Positions of a message that name index `x`. -/
def positionsOf (m : Msg) (x : Nat) : List Nat :=
  ((List.range (gNidx m)).zip (gIndices m)).filterMap fun e => if e.2 = x then some e.1 else none

/-- The exact row after a window's gradients, its rounded terms, and elements escalated (R287). -/
def scatterRow (r : Run) (x : Nat) : Pooled :=
  let l := tRowlen r.word
  let e0 := (r.rowVals (some x)).map fun v => ({} : Sum).take .sum v.toTerm.1
  let terms := r.reqs.flatMap fun g => (positionsOf g.msg x).map fun i => (gradient g.msg l i).map fun d => mulTerm d (gScale g.msg)
  let es := terms.foldl (fun es ts => List.zipWith (fun e t => e.take .sum t.1) es ts) e0
  { rs := es.map (Sum.result .sum 1), trunc := (terms.map fun ts => (ts.filter (·.2)).length).foldl (· + ·) 0,
    esc := (es.filter (·.esc)).length }

/-! ### Starting and ending passes -/

/-- Counts a pass of more than 65,536 distinct rows as a spill or a split, with its event (R284, R285). -/
def noteSpill (s : State) (q : Nat) (spills : Bool) : State :=
  raiseLimited (s.bump (gatherObj q (if spills then 6 else 7)) 1) ms q 0x0505 (quillOwner s q) [(1, q), (1, if spills then 1 else 2)]

/-- Items of the next pass, and their elements, by the free chunk slots (R282). -/
def nextItems (s : State) (q : Nat) (r : Run) : Nat × Nat :=
  takeItems (min 131072 (1024 * (slotsOf s q - slotsUsed s q))) r.items 0

/-- The free slots hold the first item of the pass (R282). -/
def passFits (s : State) (q : Nat) (r : Run) : Bool := decide (0 < (nextItems s q r).1) || r.items.isEmpty

/-- Indices whose rows a request of a pass reads. -/
def wantedRows (g : GReq) : List Nat :=
  if g.msg.hdr.op = Op.filter then (gResolved g.msg).filter (keyOk g.msg) else gResolved g.msg

/-- The rows that a pass over its first `n` items reads. -/
def passRows (r : Run) (n : Nat) : List RowOp :=
  if r.scatters then rowsOf r (r.rows.take n) false
  else
    let gs := r.reqs.take n
    rowsOf r (gs.flatMap wantedRows) (gs.any fun g => g.msg.hdr.op == Op.bag)

/-- The most items, up to `n` and at least one, whose rows the coalescer holds at once (R285). -/
def splitItems (r : Run) : Nat → Nat
  | 0 => 0
  | n + 1 => if n = 0 ∨ (passRows r (n + 1)).length ≤ 65536 then n + 1 else splitItems r n

/-- Rows in ascending order, the default row last (R284). -/
def sortRows (os : List RowOp) : List RowOp :=
  let before (a b : RowOp) : Bool := match a.index, b.index with
    | some x, some y => decide (x < y)
    | some _, none => true
    | none, _ => false
  os.foldl (fun l o => l.takeWhile (fun x => before x o) ++ [o] ++ l.dropWhile (fun x => before x o)) []

/-- The records of a spill, one per (row, bag, count), sorted by row (R284). Their layout is open (notes/assumptions/81.md). -/
def spillRecords (r : Run) (n : Nat) (os : List RowOp) : List Byte :=
  let gs := (List.range n).zip (r.reqs.take n)
  os.flatMap fun o => match o.index with
    | some x => gs.flatMap fun g =>
      let c := ((wantedRows g.2).filter (· == x)).length
      if c = 0 then [] else leBytes 8 (Config.spillRecord x g.1 c).toNat
    | none => []

/-- Coalescer entries in use at a quill. -/
def entriesUsed (s : State) (q : Nat) : Nat := ((s.quill q).runs.map (·.entries)).foldl (· + ·) 0

/-- Escalations of the pass of a run whose reads are done: of its bags, its candidates' scores or its rows (R229, R241). -/
def Run.escalated (r : Run) : Nat :=
  if r.scatters then ((r.rows.take r.cur).map fun x => (scatterRow r x).esc).foldl (· + ·) 0
  else ((r.reqs.take r.cur).map fun g => if g.msg.hdr.op = Op.filter then filterEsc r g.msg else bagEsc r g.msg).foldl (· + ·) 0

/-- Every access of the pass is done. -/
def Run.ready (r : Run) : Bool := r.stage != .idle && r.more.isEmpty && r.ops.all fun o => o.wait.isNone && o.subs.all (·.done)

/-- A pass whose reads are done adds its terms: its escalations hold entries of the pool until it has been rounded (R229, R283). -/
def takeEsc (q : Nat) (s : State) (r : Run) : State :=
  if r.ready ∧ r.stage = .reading ∧ r.esc.isNone then
    let x := chargeEsc s q (some r.seq) r.escalated
    modRun x.2 q { r with esc := some x.1 }
  else s

/-- Passes of any quill whose reads have just been done. -/
def settleReads (s : State) : State := s.quills.foldl (fun s e => (s.quill e.1).runs.foldl (takeEsc e.1) s) s

/-- Starts the next pass of a run, where it may start now: its rows' coalescer entries are free (R282), and where it spills an area
is (R284); without spill slices it takes only the bags, or reads at first only the rows, that the coalescer holds (R285). -/
def startPass (s : State) (q : Nat) (r : Run) : Option State :=
  let k := nextItems s q r
  if runBlocked s q r ∨ ¬ passFits s q r then none
  else
    let x := if r.scatters then (r, s) else resolveAll s r (r.reqs.take k.1)
    let r := x.1
    let big := decide (65536 < (passRows r k.1).length)
    let spills := big && !(spillSliceList s).isEmpty
    let n := if big && !spills then splitItems r k.1 else k.1
    let os := passRows r n
    let area := if spills then freeSpill s else none
    if (spills ∧ area.isNone) ∨ 65536 < entriesUsed s q + min 65536 os.length then none
    else
      let gs := r.reqs.take n
      let s := if r.scatters then x.2 else gs.foldl (fun s g => gatherStall s r g) (countPositions x.2 q r gs)
      let s := if big then noteSpill s q spills else s
      let os := if spills then sortRows os else os
      let s := match area with
        | some a => (storePhys s (spillBase s a) (spillRecords r n os)).2
        | none => s
      let id := s.nextSerial
      let first := if spills then os.length else 65536
      let z := readRows id.2 q r.word (os.take first)
      let r := { r with stage := .reading, cur := n, ops := z.1, more := os.drop first, elems := (takeItems k.2 (r.items.take n) 0).2,
                        entries := min 65536 os.length, spill := area, seq := id.1, start := s.time, esc := none }
      some (takeEsc q (modRun z.2 q r) r)

/-- The next sub-pass of a pass reads its rows, once those before it are done (R285). -/
def nextSubPass (q : Nat) (s : State) (r : Run) : State :=
  if r.stage = .reading ∧ ¬ r.more.isEmpty ∧ (r.ops.all fun o => o.wait.isNone && o.subs.all (·.done)) then
    let z := readRows s q r.word (r.more.take 65536)
    modRun z.2 q { r with ops := r.ops ++ z.1, more := r.more.drop 65536 }
  else s

/-- A run for a job, on the generation in service (R294). -/
def beginRun (s : State) (q : Nat) (j : Job) : Run × State :=
  let n := s.nextSerial
  let t := (j.reqs.head?.map (·.table)).getD 0
  let v := s.table t
  let r : Run := { id := n.1, reqs := j.reqs, table := t, word := v.word, tgen := v.tgen, wdigest := v.wdigest }
  let x := if r.scatters then resolveAll n.2 r j.reqs else (r, n.2)
  let r := x.1
  let r := if r.scatters then
      { r with rows := scatterRows r, fails := r.res.filterMap fun e => match e.2 with | .fail st => some (e.1, st) | _ => none }
    else r
  let s := if r.scatters then j.reqs.foldl (fun s g => gatherStall s r g) (countPositions x.2 q r j.reqs) else x.2
  let w := s.quill q
  (r, s.setQuill q { w with runs := w.runs ++ [r] })

/-- Notes whether the pass at the head waits for slots (R282). -/
def setWaiting (s : State) (q : Nat) (b : Bool) : State := s.setQuill q { s.quill q with waiting := b }

/-- The job at the head as a run, with the pass that starts it, if it may start: until then it stays queued (R294). -/
def tryJob (s : State) (q : Nat) (j : Job) (rest : List Job) : Run × State × Option State :=
  let x := beginRun (s.setQuill q { s.quill q with jobs := rest }) q j
  (x.1, x.2, startPass x.2 q x.1)

/-- The pass at the head of the quill's work waits for chunk slots (R282). -/
def headWaits (s : State) (q : Nat) : Bool :=
  match (s.quill q).runs.find? (·.stage == .idle), (s.quill q).jobs with
  | some r, _ => !passFits s q r
  | none, [] => false
  | none, j :: rest => let x := tryJob s q j rest; !passFits x.2.1 q x.1

/-- The head no longer waits for slots: chunks may open (R251). -/
def endWait (s : State) (q : Nat) : State := if (s.quill q).waiting then openChunks (setWaiting s q false) q else s

/-- Notes again whether the head waits, after work has left the queue. -/
def recheckWait (s : State) (q : Nat) : State := if (s.quill q).waiting ∧ ¬ headWaits s q then endWait s q else s

/-- Starts one pass at the head of the quill's work, where it may start; else the head waits. A quill of a partition that is being
removed starts no new work (R410 step 1). -/
def startHead (s : State) (q : Nat) : State :=
  let v := s.quill q
  match v.runs.find? (·.stage == .idle) with
  | some r =>
    match startPass s q r with
    | some s => endWait s q
    | none => setWaiting s q (!passFits s q r)
  | none =>
    match v.jobs with
    | [] => endWait s q
    | j :: rest =>
      if removing s (quillOwner s q) then s
      else
      let x := tryJob s q j rest
      match x.2.2 with
      | some s => endWait s q
      | none => setWaiting s q (!passFits x.2.1 q x.1)

/-- Requests outside windows start as they reach the head of the queue (R280). -/
def kick : Nat → State → Nat → State
  | 0, s, _ => s
  | n + 1, s, q =>
    let v := s.quill q
    match v.runs.find? (·.stage == .idle), v.jobs with
    | none, j :: _ => if j.win then s else
      let s' := startHead s q
      if (s'.quill q).jobs.length < v.jobs.length then kick n s' q else s'
    | _, _ => s

def kickQuill (s : State) (q : Nat) : State := kick (s.quill q).jobs.length s q

/-- PASS_START: the next pass of the quill starts once its accumulators fit (R282). -/
def execPassStart (q : Quill) (s : State) : Host.Outcome State Fault Refusal :=
  .next (kickQuill (startHead s q.val) q.val)

/-! ### Arrival (R266, R276, R280, R281, R291) -/

def queueMsgs (v : QuillSt) : Nat :=
  (v.jobs.map fun j => j.reqs.length).foldl (· + ·) 0 + (v.wins.map fun w => w.reqs.length).foldl (· + ·) 0
def queueBytes (v : QuillSt) : Nat :=
  ((v.jobs.flatMap (·.reqs) ++ v.wins.flatMap (·.reqs)).map fun g => g.msg.body.length).foldl (· + ·) 0

/-- Closes a window: its key counts as served from now (R280, R281). -/
def closeWin (s : State) (q : Nat) (w : Win) : State :=
  let v := s.quill q
  s.setQuill q { v with wins := v.wins.filter fun x => x.key != w.key, served := v.served ++ [w.key],
                        jobs := v.jobs ++ [{ win := true, reqs := w.reqs }] }

/-- A request started alone joins the queue. -/
def addAlone (s : State) (q : Nat) (g : GReq) : State :=
  let v := s.quill q
  kickQuill (s.setQuill q { v with jobs := v.jobs ++ [{ win := false, reqs := [g] }] }) q

/-- The window a request names (R280). -/
def winKey (m : Msg) : WinKey :=
  { op := m.hdr.op, table := BitVec.ofNat 12 (gTable m.hdr), part := m.hdr.part, win := BitVec.ofNat 16 (gWin m) }
def isWindowed (m : Msg) : Bool := (m.hdr.op == Op.bag || m.hdr.op == Op.scatterAdd) && gWin m != 0

/-- Puts an accepted request in the queue or in its window (R280, R281). -/
def placeReq (s : State) (q : Nat) (g : GReq) : State :=
  let m := g.msg
  let v := s.quill q
  let key := winKey m
  if gWin m = 0 then addAlone s q g
  else match v.wins.find? fun w => w.key == key with
    | some w =>
      if w.wcnt ≠ gWcnt m then gFail s (ingQuill q) g.table m St.formatUnsupported (quillFlag s q) 0
      else if 2 ^ 20 < ((w.reqs ++ [g]).map fun x => gNidx x.msg).foldl (· + ·) 0 then addAlone (closeWin s q w) q g
      else
        let w' := { w with reqs := w.reqs ++ [g] }
        if w.wcnt ≤ w'.reqs.length then closeWin s q w'
        else s.setQuill q { v with wins := v.wins.map fun x => if x.key = key then w' else x }
    | none =>
      if key ∈ v.served ∨ 16 ≤ v.wins.length then addAlone (s.bump (gatherObj q 0xA) 1) q g
      else
        let w : Win := { key := key, wcnt := gWcnt m, reqs := [g] }
        if gWcnt m ≤ 1 then closeWin s q w else s.setQuill q { v with wins := v.wins ++ [w] }

/-- The table accepts requests of this kind from the partition (R266). -/
def tableAdmits (s : State) (v : Table) (h : Hdr) : Bool :=
  (v.st == .serving || v.st == .switching) &&
    (tableOwner v.word == h.part.toNat ||
      (h.op != Op.scatterAdd && bit (tReaders v.word) h.part.toNat && !removing s (tableOwner v.word)))

/-- A BAG, SCATTER_ADD or FILTER arrives at its table's quill. -/
def gatherArrive (s : State) (m : Msg) : State :=
  let t := gTable m.hdr
  let v := s.table t
  let q := tSquill v.word
  let ing := if v.st = .free ∨ ¬ quillOk s q then ingMemory else ingQuill q
  let no (s : State) (st : BitVec 8) := gFail s ing t m st (if v.st = .free then 0 else quillFlag s q) 0
  if ¬ tableAdmits s v m.hdr then no s St.accessDenied
  else if ¬ quillOk s q then gFail s ingMemory t m St.replayExhausted 0 0
  else if 65536 ≤ queueMsgs (s.quill q) ∨ 2 ^ 23 < queueBytes (s.quill q) + m.body.length then
    no (raiseLimited (s.bump (gatherObj q 8) 1) ms q 0x0504 (quillOwner s q) [(1, q)]) St.busy
  else match gRefusal m (tRowlen v.word) with
    | some st => no s st
    | none => placeReq s q { msg := m, table := t }

/-- A gather request in its turn; one that joins the window an earlier one is in is served after it there (R173, R280). -/
def gatherTurn (s : State) (m : Msg) (perform : State → State) : State :=
  let sameWin (e : Msg) : Bool := isWindowed e && isWindowed m && winKey e == winKey m
  if mustWaitBut s m sameWin then s else perform s

def execBag (m : Msg) (s : State) : Host.Outcome State Fault Refusal :=
  .next (gatherTurn s m fun s => gatherArrive (takeDelivered s m) m)

def execFilter (m : Msg) (s : State) : Host.Outcome State Fault Refusal :=
  .next (gatherTurn s m fun s => gatherArrive (takeDelivered s m) m)

/-- A SCATTER_ADD, applied once (R289, R427). -/
def execScatterAdd (m : Msg) (s : State) : Host.Outcome State Fault Refusal :=
  .next (gatherTurn s m fun s => once (takeDelivered s m) ingMemory m (fun s => gatherArrive s m))

/-- WIN_TIMEOUT has passed since the window's first request: it closes (R280, R303). -/
def execWinTimeout (q : Quill) (k : WinKey) (s : State) : Host.Outcome State Fault Refusal :=
  .next (match (s.quill q.val).wins.find? fun w => w.key == k with
    | some w => closeWin (raiseLimited s ms q.val 0x0506 (quillOwner s q.val) [(1, q.val), (2, k.table.toNat)]) q.val w
    | none => s)

/-- WIN_TIMEOUT has passed since the window closed: its key counts as served no more (R281). -/
def execWindowKeyServedEnd (q : Quill) (k : WinKey) (s : State) : Host.Outcome State Fault Refusal :=
  let v := s.quill q.val
  .next (if k ∈ v.served then s.setQuill q.val { v with served := v.served.filter (· != k) } else s)

/-- Positions answered from the default row (R278). -/
def defaultUsed (r : Run) (m : Msg) : Nat :=
  ((gIndices m).filter fun x => match r.resOf x with | .invalid | .missing => true | _ => false).length

/-! ### Results of a BAG (R277 to R279) -/

/-- Completes one BAG of a finished pass (R277 to R279). -/
def finishBag (s : State) (q : Nat) (r : Run) (m : Msg) : State :=
  let ing := ingQuill q
  match (gIndices m).find? fun x => r.posStatus x != St.ok with
  | some x => gFail s ing r.table m (r.posStatus x) (quillFlag s q) 0
  | none =>
    match gRop m, gOfmt m with
    | some rop, some f =>
      let y := poolBag r m rop
      let rs := if rop = .dot ∧ f.isMx then y.rs ++ List.replicate (roundUp y.rs.length 32 - y.rs.length) (.val false 0 1) else y.rs
      let v := writeVec f false rs
      let d := defaultUsed r m
      let s := countVec (countTrunc s q y.trunc) v
      let s := s.setTable r.table { s.table r.table with requests := (s.table r.table).requests + 1 }
      completeSealed s ing m (cflgOf (decide (0 < d)) v.nanSeen (quillDegraded s q) false) (BitVec.ofNat 16 d) v.bytes 32
        (bytes32 r.wdigest) (m.body.drop 32)
    | _, _ => gFail s ing r.table m St.formatUnsupported (quillFlag s q) 0

/-! ### Results of a FILTER (R298 to R300) -/

/-- The order of R239 on scores that are not NaN. -/
def scoreKey : Res → Int
  | .inf g => if g then -(2 ^ 400) else 2 ^ 400
  | .val g n _ => if n = 0 then (if g then -1 else 0) else 2 * (if g then -(n : Int) else n)
  | .nan _ => 0

/-- A score satisfies VOP against VREF (R298). -/
def vopHolds (vop : Nat) (x : Res) (vref : Nat) : Bool :=
  if vop = 0 then true
  else if x.isNan then false
  else
    let k := scoreKey x
    match (({} : Sum).take .sum (decodeElem .fp32 vref).toTerm.1).result .sum 1 with
    | .nan _ => Config.filterNanRef vop k
    | y =>
      let j := scoreKey y
      match vop with
      | 1 => decide (k < j)
      | 2 => decide (k ≤ j)
      | 3 => decide (j < k)
      | 4 => decide (j ≤ k)
      | 5 => k == j
      | _ => k != j

/-- A candidate with its score. -/
structure Cand where
  pos   : Nat
  index : Nat
  score : Res
  deriving DecidableEq, Repr

/-- Rank order of TOPK (R299). -/
def ranksBefore (desc : Bool) (a b : Cand) : Bool :=
  let x := scoreKey a.score
  let y := scoreKey b.score
  if x ≠ y then (if desc then decide (y < x) else decide (x < y))
  else if a.index ≠ b.index then decide (a.index < b.index) else decide (a.pos < b.pos)

/-- Ranks candidates. -/
def rankCands (desc : Bool) (cs : List Cand) : List Cand :=
  cs.foldl (fun l c => l.takeWhile (fun x => ranksBefore desc x c) ++ [c] ++ l.dropWhile (fun x => ranksBefore desc x c)) []

/-- Completes a FILTER. -/
def finishFilter (s : State) (q : Nat) (r : Run) (m : Msg) : State :=
  let ing := ingQuill q
  if candStatus r m ≠ St.ok then gFail s ing r.table m (candStatus r m) (quillFlag s q) 0
  else
    let present := (fCands m).filter fun c => match r.resOf c.2 with | .row _ _ => true | _ => false
    let skipped := (fCands m).length - present.length
    let idxs := candScores r m
    let scored := (seenCands r m).map fun c =>
      ({ pos := c.1, index := c.2, score := ((idxs.find? fun i => i.1 == c.2).map (·.2.1)).getD (.nan false) } : Cand)
    let ok := scored.filter fun c => vopHolds (fVop m) c.score (fVref m) && !(fTopk m && c.score.isNan)
    let top := (rankCands (fDesc m) ok).take (fK m)
    let ws := if fTopk m then top.map fun c => writeFloat .fp32 c.score else []
    let data := if fTopk m then
        (top.zip ws).flatMap fun c => leBytes 8 c.1.index ++ leBytes 4 c.2.pat ++ leBytes 4 c.1.pos
      else padTo 16 (packBytes 1 ((List.range (fNcand m)).map fun i => b2n (ok.any fun c => c.pos == i)))
    let s := countTrunc s q ((idxs.map fun i => i.2.2.1).foldl (· + ·) 0)
    let s := countVec s (writtenOut [] ws 0)
    let s := s.setTable r.table { s.table r.table with requests := (s.table r.table).requests + 1 }
    let nan := scored.any fun c => c.score.isNan
    completeSealed s ing m (cflgOf false nan (quillDegraded s q) false) (BitVec.ofNat 16 (min 65535 skipped))
      (leBytes 4 ok.length ++ leBytes 4 skipped ++ List.replicate 8 0#8 ++ data) 48 (bytes32 r.wdigest) (m.body.drop 48)

/-- Ends a pass: its slots, coalescer entries and spill area are free. -/
def passOver (r : Run) : Run :=
  { r with stage := .idle, cur := 0, ops := [], more := [], elems := 0, esc := none, entries := 0, spill := none }

/-- After a pass: chunks open, the table settles, the queue goes on. -/
def afterPass (s : State) (q t : Nat) : State :=
  let s := settleTable (s.bump (gatherObj q 5) 1) t
  let s := openChunks s q
  kickQuill s q

/-- Removes a run all of whose requests have completed. -/
def dropRun (s : State) (q id : Nat) : State :=
  let v := s.quill q
  s.setQuill q { v with runs := v.runs.filter fun x => x.id != id }

/-- Completes one message of a finished scatter-add window (R288). -/
def finishScatter (s : State) (q : Nat) (r : Run) (m : Msg) : State :=
  let xs := gIndices m
  let skip := (xs.filter fun x => match r.resOf x with | .invalid | .missing => true | _ => false).length
  let nan := xs.any fun x => x ∈ r.nans
  match xs.findSome? fun x => (r.fails.find? fun f => f.1 == x).map (·.2) with
  | some st => gFail s (ingQuill q) r.table m st (quillFlag s q) skip
  | none => gFail s (ingQuill q) r.table m St.ok (cflgOf false nan (quillDegraded s q) false) skip

/-- The write-backs of a pass are done: the next pass, or the completions (R288). -/
def endScatterPass (s : State) (q : Nat) (r : Run) : State :=
  let fails := r.ops.filterMap fun o => match o.index, failedSub o.subs with
    | some x, some f => some (x, f.st)
    | _, _ => none
  let r' := passOver { r with fails := r.fails ++ fails, rows := r.rows.drop r.cur }
  if r'.rows.isEmpty then
    afterPass (dropRun (r'.reqs.foldl (fun s g => finishScatter s q r' g.msg) s) q r.id) q r.table
  else afterPass (modRun s q r') q r.table

/-- The digest of a table's generation once its content has changed, for the requests it is serving too (R376). -/
def markChanged (s : State) (t : Nat) (tgen : BitVec 16) : State :=
  let v := s.table t
  if v.tgen = tgen ∧ v.st ≠ .free then
    let mark (r : Run) : Run := if r.table = t ∧ r.tgen = tgen then { r with wdigest := BitVec.allOnes 256 } else r
    { s.setTable t { v with wdigest := BitVec.allOnes 256 } with
      quills := s.quills.map fun e => (e.1, { e.2 with runs := e.2.runs.map mark }) }
  else s

/-- Writes one row of a pass back (R287). -/
def writeBack (q : Nat) (a : Run × List RowOp × State) (o : RowOp) : Run × List RowOp × State :=
  let r := a.1
  let s := a.2.2
  match o.index, failedSub o.subs with
  | some x, some f => ({ r with fails := r.fails ++ [(x, f.st)] }, a.2.1, s)
  | some x, none =>
    let y := scatterRow r x
    let v := encodeRow o.wcls y.rs
    let s := countVec (countTrunc s q y.trunc) v
    let z := accessRow (markChanged s r.table r.tgen) q r.word o (some v.bytes)
    ({ r with nans := if v.nanSeen then r.nans ++ [x] else r.nans }, a.2.1 ++ [z.1], z.2)
  | none, _ => a

/-- The reads of a scatter-add pass are done: its rows are written back. -/
def scatterReads (s : State) (q : Nat) (r : Run) : State :=
  let x := r.ops.foldl (writeBack q) (r, [], s)
  let r' := { x.1 with stage := .writing, ops := x.2.1, esc := some 0 }
  let s := modRun x.2.2 q r'
  if r'.ready then endScatterPass s q r' else s

/-- Completes the requests of a BAG or FILTER pass. -/
def endReadPass (s : State) (q : Nat) (r : Run) : State :=
  let s := (r.reqs.take r.cur).foldl (fun s g =>
    if g.msg.hdr.op = Op.filter then finishFilter s q r g.msg else finishBag s q r g.msg) s
  let r' := passOver { r with reqs := r.reqs.drop r.cur }
  afterPass (if r'.reqs.isEmpty then dropRun s q r.id else modRun s q r') q r.table

/-- Reads that waited on a piece in TRANSIT go on; the wait is added to STALL_WAIT (R313, R324). -/
def retryRun (q : Nat) (s : State) (r : Run) : State :=
  if r.stage ≠ .reading ∨ r.ops.all fun o => o.wait.isNone then s
  else
    let x := r.ops.foldl (fun (a : List RowOp × State) o =>
      match o.wait with
      | none => (a.1 ++ [o], a.2)
      | some n =>
        let y := accessRow a.2 q r.word o none
        if y.1.wait.isSome then (a.1 ++ [y.1], y.2)
        else
          let t := homeTier y.2 (y.2.object n)
          (a.1 ++ [y.1], y.2.bump (stallObj (tableOwner r.word) t 0x10) (10 * (y.2.time - r.start)))) ([], s)
    modRun x.2 q { r with ops := x.1 }

/-- GATHER_REQUEST_DONE: the quill's earliest started pass whose accesses are done finishes (R277 to R279, R287, R288). -/
def execGatherRequestDone (q : Quill) (s : State) : Host.Outcome State Fault Refusal :=
  let s := (s.quill q.val).runs.foldl (retryRun q.val) s
  let s := (s.quill q.val).runs.foldl (nextSubPass q.val) s
  let s := (s.quill q.val).runs.foldl (takeEsc q.val) s
  .next (match (s.quill q.val).runs.find? Run.ready with
    | some r =>
      if !r.scatters then endReadPass s q.val r
      else if r.stage = .writing then endScatterPass s q.val r else scatterReads s q.val r
    | none => s)

/-! ### Replacement (R292 to R296, R272) -/

/-- Who may command a table. -/
def tableCaller (s : State) (by_ : Caller) (v : Table) : Bool :=
  if v.st = .free then isOpr s by_ || by_.role == .prt else ownerWrites s by_ (tableOwner v.word)

/-- TABLE_SWITCH: the pause, the swap and the start of what is queued, in one step (R293). -/
def setTableSwitch (s : State) (by_ : Caller) (t : Nat) : Ans :=
  let v := s.table t
  guardRole s (tableCaller s by_ v) <|
  guardRange s (decide (t < 4096)) <|
  match v.staged with
  | none => Ans.no s Ds.valueRejected
  | some w =>
    guardValue s (v.st == .serving) <|
    let v' := { v.takeDigest with word := w, tgen := v.tgen + 1, staged := none, oldGens := v.oldGens ++ [v.tgen] }
    let s := raise (s.setTable t v') 0x0502 (tableOwner w) [(2, t), (2, v'.tgen.toNat)]
    Ans.ok (kickQuill (settleTable s t) (tSquill w))

def execTableSwitch (by_ : Caller) (t : BitVec 16) (s : State) : Host.Outcome State Fault Refusal :=
  (setTableSwitch s by_ t.toNat).out by_

/-- Completes the requests of a table that have not started (R296, R412). -/
def refuseQueued (s : State) (t : Nat) (st : BitVec 8) : State :=
  s.quills.foldl (fun s e =>
    let q := e.1
    let v := s.quill q
    let mine (gs : List GReq) : Bool := gs.any fun g => g.table == t
    let gs := (v.jobs.filter fun j => mine j.reqs).flatMap (·.reqs) ++ (v.wins.filter fun w => mine w.reqs).flatMap (·.reqs)
    if gs.isEmpty then s
    else
      let s := s.setQuill q { v with jobs := v.jobs.filter fun j => !mine j.reqs, wins := v.wins.filter fun w => !mine w.reqs }
      let s := recheckWait s q
      gs.foldl (fun s g => gFail s (ingQuill q) t g.msg st (quillFlag s q) 0) s) s

/-- TABLE_DELETE (R296). -/
def setTableDelete (s : State) (by_ : Caller) (t : Nat) : Ans :=
  let v := s.table t
  guardRole s (tableCaller s by_ v) <|
  guardRange s (decide (t < 4096)) <|
  guardValue s (v.st == .serving) <|
  let q := tSquill v.word
  let s := refuseQueued (s.setTable t { v with st := .retiring, staged := none }) t St.accessDenied
  Ans.ok (kickQuill (openChunks (settleTable s t) q) q)

def execTableDelete (by_ : Caller) (t : BitVec 16) (s : State) : Host.Outcome State Fault Refusal :=
  (setTableDelete s by_ t.toNat).out by_

/-- TABLE_SYNC: marks the started requests of the table, and only those (R272, R376). -/
def setTableSync (s : State) (by_ : Caller) (t : Nat) : Ans :=
  let v := s.table t
  guardRole s (tableCaller s by_ v) <|
  guardRange s (decide (t < 4096)) <|
  let s := { s with quills := s.quills.map fun e => (e.1, { e.2 with runs := e.2.runs.map fun r => { r with sync := r.table == t } }) }
  Ans.ok (markChanged s t v.tgen)

def execTableSync (by_ : Caller) (t : BitVec 16) (s : State) : Host.Outcome State Fault Refusal :=
  (setTableSync s by_ t.toNat).out by_

end Sys2Proof.Machine
end

