-- ==== Sys2Proof/Machine/Compression.lean ====
section
/-! DEFINITION. Low-rank checkpoint compression (R337 to R361): basis slots, BUILD, LOAD, RETIRE, ENCODE and EXPAND. -/

namespace Sys2Proof.Machine

/-! ### Exact values (R350, R351, R357) -/

def Val.neg : Val → Val
  | .fin g m e => .fin (!g) m e
  | .inf g => .inf (!g)
  | .nan => .nan

def Val.isFin : Val → Bool
  | .fin _ _ _ => true
  | _ => false

def Val.isZero : Val → Bool
  | .fin _ m _ => m == 0
  | _ => false

/-- A value as a result to be rounded. -/
def Val.toRes : Val → Res
  | .nan => .nan true
  | .inf g => .inf g
  | .fin g m e => let k := e + 160; if 0 ≤ k then .val g (m * 2 ^ k.toNat) 1 else .val g m (2 ^ (-k).toNat)

/-- The pattern of a value rounded once to a floating-point format (R233, R235). -/
def roundPat (f : Fmt) (v : Val) : Nat := (writeFloat f v.toRes).pat
def roundVal (f : Fmt) (v : Val) : Val := decodeElem f (roundPat f v)

/-- The exact sum of values. -/
def sumVals (vs : List Val) : Val := vs.foldl Val.plus (.fin true 0 0)
/-- The exact sum of products. -/
def dotVals (a b : List Val) : Val := sumVals (List.zipWith Val.mul a b)

/-- a ≤ b, for finite values. -/
def valLe (a b : Val) : Bool :=
  match a.plus b.neg with
  | .fin g m _ => g || m == 0
  | _ => false

/-- Largest r with r² ≤ n, by bits below 2^b. -/
def isqrt : Nat → Nat → Nat → Nat
  | 0, _, r => r
  | b + 1, n, r => let r' := r + 2 ^ b; isqrt b n (if r' * r' ≤ n then r' else r)

/-- The square root of a value, rounded once to FP32. -/
def sqrt32 (v : Val) : Val :=
  match v with
  | .fin _ m e =>
    if m = 0 then .fin false 0 0
    else
      let sh : Int := if (e - 128) % 2 = 0 then 128 else 129
      let n := m * 2 ^ sh.toNat
      let r := isqrt (Nat.log2 n / 2 + 1) n 0
      roundVal .fp32 (.fin false (2 * r + (if r * r = n then 0 else 1)) ((e - sh) / 2 - 1))
  | v => v

/-- v / n rounded once to FP32, for finite n that is not zero. -/
def div32 (v n : Val) : Val :=
  match v, n with
  | .fin g m e, .fin h d f =>
    let k := e - f + 160
    decodeElem .fp32 (writeFloat .fp32 (if 0 ≤ k then .val (g != h) (m * 2 ^ k.toNat) d else .val (g != h) m (d * 2 ^ (-k).toNat))).pat
  | _, _ => .nan

/-! ### The ENCODE request (R345, R346) -/

def ehdr (m : Msg) (hi lo : Nat) : Nat := bits (leAt m.body 0 64) hi lo
def eCmd (m : Msg) : Nat := ehdr m 3 0
def eNtens (m : Msg) : Nat := ehdr m 12 8
def eRank (m : Msg) : Nat := ehdr m 23 16
def eGen (m : Msg) : BitVec 8 := BitVec.ofNat 8 (ehdr m 31 24)
def eSlot (m : Msg) : Nat := ehdr m 40 32
def eKey (m : Msg) : BitVec 64 := BitVec.ofNat 64 (ehdr m 127 64)
def eJob (m : Msg) : BitVec 32 := BitVec.ofNat 32 (ehdr m 159 128)
def eStep (m : Msg) : BitVec 32 := BitVec.ofNat 32 (ehdr m 191 160)
def eBound (m : Msg) : Nat := ehdr m 223 192
def eIaddr (m : Msg) : Nat := ehdr m 311 256
def eDaddr (m : Msg) : Nat := ehdr m 375 320
def eDlen (m : Msg) : Nat := ehdr m 447 384

/-- A tensor descriptor (R346). -/
structure Tensor where
  saddr : Nat
  sfmt  : Nat
  rows  : Nat
  cols  : Nat
  tid   : BitVec 32
  deriving DecidableEq, Repr, Inhabited

def tensors (m : Msg) : List Tensor :=
  (List.range (eNtens m)).map fun i =>
    let v := leAt m.body (64 + 32 * i) 32
    { saddr := bits v 55 0, sfmt := bits v 59 56, rows := bits v 95 64, cols := bits v 127 96, tid := BitVec.ofNat 32 (bits v 159 128) }

/-- Source formats: FP32, BF16, FP16. -/
def srcFmt (c : Nat) : Option Fmt := if c < 3 then Fmt.ofCode c else none
def Tensor.fmt (t : Tensor) : Fmt := (srcFmt t.sfmt).getD .fp32
def Tensor.bytes (t : Tensor) : Nat := t.rows * t.cols * t.fmt.width / 8
def Tensor.blocks (t : Tensor) : Nat := ((t.rows + 255) / 256) * ((t.cols + 255) / 256)

/-- A block: its tensor and its place in it (R337). -/
structure BlockRef where
  t  : Tensor
  br : Nat
  bc : Nat
  deriving DecidableEq, Repr, Inhabited

def BlockRef.rows (b : BlockRef) : Nat := min 256 (b.t.rows - 256 * b.br)
def BlockRef.cols (b : BlockRef) : Nat := min 256 (b.t.cols - 256 * b.bc)

/-- Block `b` of a tensor list, by ordinal (R337). -/
def blockAt : List Tensor → Nat → BlockRef
  | [], _ => default
  | t :: ts, b =>
    if b < t.blocks then let c := (t.cols + 255) / 256; { t := t, br := b / c, bc := b % c } else blockAt ts (b - t.blocks)

def blockCount (m : Msg) : Nat := ((tensors m).map Tensor.blocks).foldl (· + ·) 0

/-- The quills a partition owns, in ascending order: the positions of R348. -/
def partQuills (s : State) (p : Nat) : List Nat := (enabledQuills s).filter fun q => quillOwner s q == p
/-- The quill at position 0, or the first of the device where the partition owns none. -/
def leadQuill (s : State) (p : Nat) : Nat := (partQuills s p).headD ((enabledQuills s).headD 0)

/-! ### Basis slots (R340 to R343) -/

def entryOf (s : State) (slot i : Nat) : GenEntry := ((s.slot slot).entries).getD i {}
def setEntry (s : State) (slot i : Nat) (e : GenEntry) : State :=
  let v := s.slot slot
  s.setSlot slot { v with entries := v.entries.set i e }

/-- The entry of a slot that holds a generation and satisfies `ok`. -/
def findGen (s : State) (slot : Nat) (g : BitVec 8) (ok : GenSt → Bool) : Option Nat :=
  (List.range 4).find? fun i => let e := entryOf s slot i; ok e.st && e.gen == g

def isReady (st : GenSt) : Bool := st == .ready
def notEmpty (st : GenSt) : Bool := st != .empty

/-- Physical address of an entry's columns (R340). -/
def entryAddr (s : State) (slot i : Nat) : Nat := physSlice (basisSliceNo s) + (slot * 4 + i) * 32768

/-- The generation a BUILD is assigned (R343). -/
def nextGen (s : State) (slot : Nat) : BitVec 8 :=
  let last := (s.slot slot).last
  ((((List.range 5).map fun i => last + 1 + BitVec.ofNat 8 i).find? fun g => (findGen s slot g notEmpty).isNone)).getD (last + 1)

/-- A BUILD or LOAD by its key. -/
def sameJob (a b : Msg) : Bool := hdrKey a.hdr == hdrKey b.hdr
def setJob (s : State) (j : BasisJob) : State :=
  { s with basisJobs := s.basisJobs.map fun x => if sameJob x.msg j.msg then j else x }
def dropJob (s : State) (m : Msg) : State := { s with basisJobs := s.basisJobs.filter fun x => !sameJob x.msg m }

/-- Completes an ENCODE of any command (R347). -/
def encEnd (s : State) (m : Msg) (st : BitVec 8) (cdat : Nat) : State :=
  let p := m.hdr.part.toNat
  let q := leadQuill s p
  finishOnce s (if (partQuills s p).isEmpty then ingMemory else ingQuill q) m.hdr st (quillFlag s q) (BitVec.ofNat 16 cdat) none

/-- Ranges a command reads and writes, for its stalls. -/
def buildReads (m : Msg) : List (Nat × Nat) := (tensors m).map fun t => (t.saddr, t.bytes)

/-- Takes an entry for a BUILD or LOAD (R342, R343, R347), or fails it. -/
def assignEntry (s : State) (j : BasisJob) (i : Nat) : State :=
  let build := eCmd j.msg == 1
  let g := if build then nextGen s j.slot else j.gen
  if ¬ build ∧ (findGen s j.slot g notEmpty).isSome then encEnd (dropJob s j.msg) j.msg St.accessDenied 0
  else
    let v := s.slot j.slot
    let s := s.setSlot j.slot { v with last := g, entries := v.entries.set i { st := .loading, gen := g, rank := j.rank } }
    let rs : List Fetch := if build then (buildReads j.msg).map fun r => { addr := r.1, len := r.2 }
      else [{ addr := eIaddr j.msg + 32, len := 512 * j.rank }]
    let x := startFetches s (leadQuill s j.msg.hdr.part.toNat) j.msg.hdr.part.toNat rs
    setJob x.2 { j with stage := .reading, entry := i, gen := g, reads := x.1 }

/-- The first EMPTY entry of a slot. -/
def emptyEntry (s : State) (slot : Nat) : Option Nat := (List.range 4).find? fun i => (entryOf s slot i).st == .empty

/-- Gives EMPTY entries of a slot to the requests that wait, in arrival order; `n` bounds their number (R344). -/
def serveWaiters : Nat → State → Nat → State
  | 0, s, _ => s
  | n + 1, s, slot =>
    match emptyEntry s slot, s.basisJobs.find? fun j => j.slot == slot && j.stage == .waiting with
    | some i, some j => serveWaiters n (assignEntry s j i) slot
    | _, _ => s

/-- An entry becomes EMPTY: from RETIRING it raises BASIS_FREED (R342, R361). -/
def freeGen (s : State) (slot i : Nat) : State :=
  let e := entryOf s slot i
  let s := setEntry s slot i {}
  let s := if e.st = .retiring then raise s 0x0705 (s.slot slot).owner.val [(2, slot), (1, e.gen.toNat)] else s
  serveWaiters s.basisJobs.length s slot

/-- A reference on an entry is released (R342). -/
def releaseRef (s : State) (slot i : Nat) : State :=
  let e := entryOf s slot i
  let e := { e with refs := e.refs - 1 }
  let s := setEntry s slot i e
  if e.st = .retiring ∧ e.refs = 0 then freeGen s slot i else s

/-- A BUILD or LOAD takes an EMPTY entry, or waits for one behind earlier requests of its slot (R344). -/
def wantEntry (s : State) (j : BasisJob) : State :=
  let earlier := s.basisJobs.any fun x => x.slot == j.slot && x.stage == .waiting && !sameJob x.msg j.msg
  match emptyEntry s j.slot, earlier with
  | some i, false => assignEntry s j i
  | _, _ => raise (setJob s { j with stage := .waiting }) 0x0703 (s.slot j.slot).owner.val [(2, j.slot)]

/-- Reads bytes of an entry's columns; an uncorrectable error is reported (R216). -/
def readBasis (s : State) (p slot i n : Nat) : Option (List Byte) × State :=
  let a := entryAddr s slot i
  match firstDead s a n with
  | some w => (none, raiseUncorr s p (wordAddr a a w))
  | none => (some (Memory.readN s.mem a n), s)

/-- Fails a BUILD or LOAD: its entry returns to EMPTY (R347). -/
def failBasis (s : State) (j : BasisJob) (st : BitVec 8) (cdat : Nat := 0) : State :=
  let held := j.stage == .reading || j.stage == .writing
  let s := encEnd (dropJob s j.msg) j.msg st cdat
  if held then freeGen s j.slot j.entry else s

/-- Fails the BUILDs and LOADs that satisfy `mine`, all of them gone before the entries of any are free. -/
def failJobs (s : State) (mine : Msg → Bool) (st : BitVec 8) (cdat : Nat := 0) : State :=
  (s.basisJobs.filter fun j => mine j.msg).foldl (fun s j => failBasis s j st cdat)
    { s with basisJobs := s.basisJobs.filter fun j => !mine j.msg }

/-- A LOAD's image header has been read (R341, R347). -/
def loadHeader (s : State) (j : BasisJob) : State :=
  match fetchFailed j.reads with
  | some x => failBasis s j x.st
  | none =>
    let h := j.reads.flatMap Fetch.data
    let g := BitVec.ofNat 8 (leAt h 0 1)
    let k := leAt h 1 1
    if (findGen s j.slot g notEmpty).isSome then failBasis s j St.accessDenied
    else if k = 0 ∨ 64 < k ∨ leAt h 4 4 ≠ 32 + 512 * k then failBasis s j St.formatUnsupported
    else if ¬ rangeOk s j.msg.hdr.part.toNat (eIaddr j.msg) (32 + 512 * k) false then failBasis s j St.accessDenied
    else wantEntry s { j with gen := g, rank := k, image := h, reads := [] }

/-- Goes on with a LOAD whose header read is done. -/
def advanceLoad (s : State) (j : BasisJob) : State := if j.reads.all Fetch.done then loadHeader s j else setJob s j

/-! ### BUILD (R349, R350) -/

/-- Bit of 1 stands for -1: sign `n` of the quill at position `qpos` of `nq` (R349, R371). -/
def sketchSign (m : Msg) (nq qpos : Nat) (tid : BitVec 32) (n : Nat) : Bool :=
  (ctrgen (eKey m) (eJob m) (eStep m) tid (BitVec.ofNat 32 (nq * (n / 128) + qpos))).bitAt (n % 128)

/-- Element (row, column) of a block, from its tensor's bytes; zero outside the block. -/
def blockElem (b : BlockRef) (data : List Byte) (i j : Nat) : Val :=
  if b.rows ≤ i ∨ b.cols ≤ j then .fin false 0 0
  else
    let w := b.t.fmt.width / 8
    decodeElem b.t.fmt (leAt data (((256 * b.br + i) * b.t.cols + 256 * b.bc + j) * w) w)

/-- Ordinal, place and tensor bytes of every block of a BUILD. -/
def buildBlocks (ts : List Tensor) (data : List (List Byte)) : List (Nat × BlockRef × List Byte) :=
  let bs := (ts.zip data).flatMap fun t => (List.range t.1.blocks).map fun b => (blockAt [t.1] b, t.2)
  (List.range bs.length).zip bs

/-- Element (i, l) of Y, rounded to FP32 (R349). -/
def sketchElem (m : Msg) (nq k : Nat) (bs : List (Nat × BlockRef × List Byte)) (i l : Nat) : Val :=
  roundVal .fp32 (sumVals (bs.flatMap fun b =>
    (List.range 256).map fun j =>
      let v := blockElem b.2.1 b.2.2 i j
      if sketchSign m nq (b.1 % nq) b.2.1.t.tid (b.1 / nq * 256 * k + j * k + l) then v.neg else v))

/-- One column of the orthonormalisation, after the columns `us` (R350). -/
def basisColumn (ys : List (List Val)) (us : List (List Val)) (l : Nat) : List Val :=
  let y := ys.getD l []
  let v := us.foldl (fun v u =>
    let d := roundVal .fp32 (dotVals u v)
    List.zipWith (fun a b => roundVal .fp32 (a.plus (d.mul b).neg)) v u) y
  let n := sqrt32 (dotVals v v)
  let n0 := sqrt32 (dotVals y y)
  if n.isFin ∧ n0.isFin then
    if valLe n (n0.mul (.fin false 1 (-20))) then v.map fun _ => .fin false 0 0 else v.map fun a => div32 a n
  else (List.range 256).map fun i => decodeElem .fp32 (Config.basisOpen (ys.map fun c => c.map (roundPat .fp32)) l i).toNat

/-- The basis columns in BF16 patterns (R350). -/
def basisOf (ys : List (List Val)) : List (List Nat) :=
  let us := (List.range ys.length).foldl (fun us l => us ++ [basisColumn ys us l]) []
  us.map fun u => u.map (roundPat .bf16)

/-- A basis image (R341). -/
def imageHeader (g : BitVec 8) (k : Nat) : List Byte :=
  [g, BitVec.ofNat 8 k, 0, 0] ++ leBytes 4 (32 + 512 * k) ++ List.replicate 24 0#8

/-- The image a BUILD writes (R349, R350). -/
def buildImage (s : State) (j : BasisJob) : List Byte :=
  let m := j.msg
  let k := eRank m
  let nq := (partQuills s m.hdr.part.toNat).length
  let bs := buildBlocks (tensors m) (j.reads.map Fetch.data)
  let ys := (List.range k).map fun l => (List.range 256).map fun i => sketchElem m nq k bs i l
  imageHeader j.gen k ++ (basisOf ys).flatMap fun c => c.flatMap fun v => leBytes 2 v

/-- The entry becomes READY and the request completes (R342, R350). -/
def basisReady (s : State) (j : BasisJob) : State :=
  let e := entryOf s j.slot j.entry
  let s := setEntry s j.slot j.entry { e with st := .ready, digest := digest256 j.image }
  let s := raise (dropJob s j.msg) 0x0704 (s.slot j.slot).owner.val [(2, j.slot), (1, j.gen.toNat)]
  encEnd s j.msg St.ok j.gen.toNat

/-- The basis is at hand: it fills the entry, and a BUILD writes its image to IADDR (R350). -/
def basisFill (s : State) (j : BasisJob) (image : List Byte) : State :=
  let p := j.msg.hdr.part.toNat
  let j := { j with image := image }
  let cols := image.drop 32
  if eCmd j.msg = 1 ∧ writeWaits s p (eIaddr j.msg) image.length then setJob s j
  else
    let f := storePhys s (entryAddr s j.slot j.entry) cols
    match f.1 with
    | some w =>
      let a := entryAddr s j.slot j.entry
      failBasis (raiseUncorr f.2 p (wordAddr a a w)) j St.uncorrectable
    | none =>
      if eCmd j.msg = 1 then
        let w := writeRange f.2 (leadQuill s p) p (eIaddr j.msg) image
        let j := { j with stage := .writing, writes := w.1 }
        if !allDone w.1 then setJob w.2 j
        else match failedSub w.1 with
          | some x => failBasis w.2 j x.st
          | none => basisReady w.2 j
      else basisReady f.2 j

/-- Goes on with a BUILD or LOAD whose accesses are done. -/
def basisAdvance (s : State) (j : BasisJob) : State :=
  let p := j.msg.hdr.part.toNat
  match j.stage with
  | .header => let x := startFetches s (leadQuill s p) p j.reads; advanceLoad x.2 { j with reads := x.1 }
  | .waiting => s
  | .reading =>
    let x := startFetches s (leadQuill s p) p j.reads
    let j := { j with reads := x.1 }
    if !j.reads.all Fetch.done then setJob x.2 j
    else match fetchFailed j.reads with
      | some f => failBasis x.2 j f.st
      | none => basisFill x.2 j (if eCmd j.msg = 1 then buildImage s j else imageHeader j.gen j.rank ++ j.reads.flatMap Fetch.data)
  | .writing =>
    if !allDone j.writes then s
    else match failedSub j.writes with
      | some x => failBasis s j x.st
      | none => basisReady s j

/-- Goes on with the LOADs whose image header is being read: a header that has come takes its entry (R341, R347). -/
def loadAdvance (s : State) : State := (s.basisJobs.filter fun j => j.stage == .header).foldl basisAdvance s

/-- BASIS_WRITTEN: the entry's BUILD or LOAD finishes writing its basis (R349, R350). -/
def execBasisWritten (slot : Fin 512) (entry : Fin 4) (s : State) : Host.Outcome State Fault Refusal :=
  let s := loadAdvance s
  .next (match s.basisJobs.find? fun j => j.slot == slot.val && j.entry == entry.val && (j.stage == .reading || j.stage == .writing) with
    | some j => basisAdvance s j
    | none => s)

/-- GEN_WAIT_TIMEOUT: no entry has become EMPTY within GEN_WAIT (R344). -/
def execGenWaitTimeout (k : ReqKey) (s : State) : Host.Outcome State Fault Refusal :=
  .next (match s.basisJobs.find? fun j => hdrKey j.msg.hdr == k && j.stage == .waiting with
    | some j => encEnd (dropJob s j.msg) j.msg St.busy 0
    | none => s)

/-! ### ENCODE (R351, R352) -/

/-- A block as read: its elements' patterns, row-major. -/
structure Block where
  fmt  : Fmt
  rows : Nat
  cols : Nat
  pats : List Nat
  deriving DecidableEq, Repr, Inhabited

def Block.vals (b : Block) : List Val := b.pats.map (decodeElem b.fmt)
def Block.at (b : Block) (i j : Nat) : Val := decodeElem b.fmt (b.pats.getD (i * b.cols + j) 0)

/-- Basis columns as values: column l, row i at l × 256 + i. -/
def basisAt (u : List Byte) (i l : Nat) : Val := decodeElem .bf16 (leAt u (2 * (l * 256 + i)) 2)

/-- The exact element of U·C; coefficient l of column j at l × COLS + j (R339, R357). -/
def ucElem (u : List Byte) (c : List Nat) (k cols i j : Nat) : Val :=
  sumVals ((List.range k).map fun l => (basisAt u i l).mul (decodeElem .bf16 (c.getD (l * cols + j) 0)))

/-- A residual entry: POS and VAL. -/
abbrev ResEntry := Nat × Nat

/-- Element (i, j) of the expansion, exact: U·C and the residual (R357). -/
def expandElem (u : List Byte) (c : List Nat) (k cols : Nat) (rs : List ResEntry) (i j : Nat) : Val :=
  (ucElem u c k cols i j).plus (match rs.find? fun r => r.1 == i * 256 + j with
    | some r => decodeElem .bf16 r.2
    | none => .fin false 0 0)

/-- A larger magnitude first, an infinite one above every finite one; ties by lower POS (R351). -/
def errBefore (a b : Nat × Val) : Bool :=
  match a.2, b.2 with
  | .fin _ m e, .fin _ n f =>
    let x := Val.fin false m e
    let y := Val.fin false n f
    if valLe x y && valLe y x then decide (a.1 < b.1) else valLe y x
  | .fin _ _ _, _ => false
  | _, .fin _ _ _ => true
  | _, _ => decide (a.1 < b.1)

/-- Places an entry in a list ordered by a relation. -/
def insertBy {α : Type} (before : α → α → Bool) (l : List α) (a : α) : List α :=
  l.takeWhile (fun x => before x a) ++ [a] ++ l.dropWhile (fun x => before x a)

/-- Block bodies (R338, R339). -/
def rawBody (b : Block) : List Byte := padTo 16 (b.pats.flatMap fun p => leBytes (b.fmt.width / 8) p)
def lowBody (c : List Nat) (rs : List ResEntry) : List Byte :=
  padTo 16 (c.flatMap fun p => leBytes 2 p) ++ padTo 16 (rs.flatMap fun r => leBytes 2 r.1 ++ leBytes 2 r.2)

/-- The 32-byte block header (R338). -/
def blockHeader (raw : Bool) (sfmt k gen slot rows cols size nres br bc : Nat) : List Byte :=
  leBytes 32 (b2n raw + sfmt * 2 ^ 4 + k * 2 ^ 8 + gen * 2 ^ 16 + slot * 2 ^ 32 + (rows - 1) * 2 ^ 48 + (cols - 1) * 2 ^ 56 +
    size * 2 ^ 64 + rows * cols * 2 ^ 96 + nres * 2 ^ 128 + br % 2 ^ 16 * 2 ^ 144 + bc % 2 ^ 16 * 2 ^ 160)

/-- The coefficients and residual of a block, and whether it stays within EBOUND (R351, steps 3 to 5). -/
def lowRank (u : List Byte) (k : Nat) (b : Block) (ebound : Nat) : List Nat × List ResEntry × Bool :=
  let c := (List.range k).flatMap fun l => (List.range b.cols).map fun j =>
    roundPat .bf16 (sumVals ((List.range b.rows).map fun i => (basisAt u i l).mul (b.at i j)))
  let ij := (List.range b.rows).flatMap fun i => (List.range b.cols).map fun j => (i, j)
  let uc := ij.map fun x => (x, ucElem u c k b.cols x.1 x.2)
  if uc.any fun x => !x.2.isFin then (c, [], false)
  else
    let errs := (uc.map fun x => (x.1.1 * 256 + x.1.2, (b.at x.1.1 x.1.2).plus (roundVal b.fmt x.2).neg)).filter fun e => !e.2.isZero
    let top := (errs.foldl (insertBy errBefore) []).take 512
    let chosen := (top.map (·.1)).foldl (insertBy fun x y => decide (x < y)) []
    let rs := chosen.map fun p => (p, roundPat .bf16 ((b.at (p / 256) (p % 256)).plus (ucElem u c k b.cols (p / 256) (p % 256)).neg))
    let d := ij.map fun x => (b.at x.1 x.2).plus (roundVal b.fmt (expandElem u c k b.cols rs x.1 x.2)).neg
    let eb := decodeElem .fp32 ebound
    let err := sumVals (d.map fun v => v.mul v)
    let lim := (eb.mul eb).mul (sumVals (b.vals.map fun v => v.mul v))
    (c, rs, err.isFin && (!lim.isFin || valLe err lim))

/-- A block as ENCODE writes it, and whether it is RAW (R351). -/
def encodeBlock (u : List Byte) (k gen slot ebound : Nat) (r : BlockRef) (b : Block) : List Byte × Bool :=
  let sf := r.t.sfmt
  let raw :=
    let body := rawBody b
    (blockHeader true sf 0 gen slot b.rows b.cols (32 + body.length) 0 r.br r.bc ++ body, true)
  if b.vals.all Val.isZero then (blockHeader false sf 0 gen slot b.rows b.cols 32 0 r.br r.bc, false)
  else if b.vals.any fun v => !v.isFin then raw
  else
    let x := lowRank u k b ebound
    let body := lowBody x.1 x.2.1
    if !x.2.2 || decide ((rawBody b).length ≤ body.length) then raw
    else (blockHeader false sf k gen slot b.rows b.cols (32 + body.length) x.2.1.length r.br r.bc ++ body, false)

def setEnc (s : State) (j : EncJob) : State := { s with encJobs := s.encJobs.map fun x => if sameJob x.msg j.msg then j else x }

/-- Ends an ENCODE: its reference is released (R352). -/
def endEncode (s : State) (j : EncJob) (st : BitVec 8) (cdat : Nat) : State :=
  let s := encEnd { s with encJobs := s.encJobs.filter fun x => !sameJob x.msg j.msg } j.msg st cdat
  releaseRef s j.slot j.entry

/-- The rows of a block, as ranges. -/
def blockRows (r : BlockRef) : List Fetch :=
  let w := r.t.fmt.width / 8
  (List.range r.rows).map fun i => { addr := r.t.saddr + ((256 * r.br + i) * r.t.cols + 256 * r.bc) * w, len := r.cols * w }

/-- Ends the ENCODEs that satisfy `mine`. -/
def endEncodes (s : State) (mine : Msg → Bool) (st : BitVec 8) (cdat : Nat := 0) : State :=
  (s.encJobs.filter fun j => mine j.msg).foldl (fun s j => endEncode s j st cdat)
    { s with encJobs := s.encJobs.filter fun j => !mine j.msg }

/-- Encodes and writes the block at hand, unless a piece in TRANSIT holds the write up (R313, R351, R352). -/
def encWrite (s : State) (q : Nat) (j : EncJob) (r : BlockRef) : State × EncJob × Option (BitVec 8) :=
  let p := j.msg.hdr.part.toNat
  let e := entryOf s j.slot j.entry
  let y := readBasis s p j.slot j.entry (512 * e.rank)
  match y.1 with
  | none => (y.2, j, some St.uncorrectable)
  | some u =>
    let b : Block := { fmt := r.t.fmt, rows := r.rows, cols := r.cols, pats := (j.reads.flatMap fun x =>
      (List.range r.cols).map fun c => leAt x.data (c * (r.t.fmt.width / 8)) (r.t.fmt.width / 8)) }
    let x := encodeBlock u e.rank e.gen.toNat j.slot (eBound j.msg) r b
    if eDlen j.msg < j.off + x.1.length then (s, j, some St.boundExceeded)
    else if writeWaits s p (eDaddr j.msg + j.off) x.1.length then (s, j, none)
    else
      let a := writeRange s q p (eDaddr j.msg + j.off) x.1
      (a.2, { j with wrote := true, writes := a.1, size := x.1.length, raw := x.2 }, none)

/-- Writes the index entry of a block that has been written (R352). -/
def indexWrite (s : State) (q : Nat) (j : EncJob) : State × EncJob :=
  let p := j.msg.hdr.part.toNat
  let at_ := eIaddr j.msg + 16 * j.block
  if writeWaits s p at_ 16 then (s, j)
  else
    let a := writeRange s q p at_ (leBytes 8 j.off ++ leBytes 4 j.size ++ [BitVec.ofNat 8 (b2n j.raw), 0, 0, 0])
    (a.2, { j with indexed := true, writes := a.1 })

/-- A block and its index entry have been written: the next block. -/
def EncJob.next (j : EncJob) : EncJob :=
  { j with block := j.block + 1, off := j.off + j.size, nraw := j.nraw + b2n j.raw, wrote := false, indexed := false, reads := [],
           writes := [] }

/-- The quill that serves the block in work (R348). -/
def EncJob.quill (s : State) (j : EncJob) : Nat :=
  let p := j.msg.hdr.part.toNat
  let qs := partQuills s p
  if qs.isEmpty then leadQuill s p else qs.getD (j.block % qs.length) 0

/-- Goes on with an ENCODE until an access is out or it ends; `n` bounds its stages. -/
def encRun : Nat → State → EncJob → State
  | 0, s, j => setEnc s j
  | n + 1, s, j =>
    let p := j.msg.hdr.part.toNat
    let q := j.quill s
    if blockCount j.msg ≤ j.block then endEncode s j St.ok (j.nraw % 65536)
    else
      let r := blockAt (tensors j.msg) j.block
      if j.wrote then
        if !allDone j.writes then setEnc s j
        else match failedSub j.writes with
          | some x => endEncode s j x.st 0
          | none =>
            if j.indexed then encRun n ((s.bump (okey 0x9002 5) 1).bump (okey 0x9002 6) (b2n j.raw)) j.next
            else
              let y := indexWrite s q j
              if y.2.indexed then encRun n y.1 y.2 else setEnc y.1 y.2
      else
        let x := startFetches s q p (if j.reads.isEmpty then blockRows r else j.reads)
        let j := { j with reads := x.1 }
        if !j.reads.all Fetch.done then setEnc x.2 j
        else match fetchFailed j.reads with
          | some f => endEncode x.2 j f.st 0
          | none =>
            let y := encWrite x.2 q j r
            match y.2.2 with
            | some st => endEncode y.1 y.2.1 st 0
            | none => if y.2.1.wrote then encRun n y.1 y.2.1 else setEnc y.1 y.2.1

/-- ENCODE_DONE: the ENCODE writes its blocks and index and completes (R352). -/
def execEncodeDone (k : ReqKey) (s : State) : Host.Outcome State Fault Refusal :=
  .next (match s.encJobs.find? fun j => hdrKey j.msg.hdr == k with
    | some j => encRun (3 * blockCount j.msg + 3) s j
    | none => s)

/-! ### The request (R345 to R347) -/

/-- The rows of R347 before any generation is looked at. -/
def encRefusal (s : State) (m : Msg) : Option (BitVec 8) :=
  let c := eCmd m
  let p := m.hdr.part.toNat
  let ts := tensors m
  let v := s.slot (eSlot m)
  if m.body.length < 64 ∨ c = 0 ∨ 4 < c ∨ (if c ≤ 2 then eNtens m = 0 ∨ 16 < eNtens m else eNtens m ≠ 0) ∨
      m.body.length ≠ 64 + 32 * eNtens m ∨ (ts.any fun t => (srcFmt t.sfmt).isNone || t.rows == 0 || t.cols == 0 ||
        decide (2 ^ 24 < t.rows) || decide (2 ^ 24 < t.cols)) ∨ (c = 1 ∧ (eRank m = 0 ∨ 64 < eRank m)) ∨
      (c = 2 ∧ (isNan32 (eBound m) ∨ 2 ^ 31 < eBound m)) then some St.formatUnsupported
  else if 2 ^ 20 < blockCount m then some St.boundExceeded
  else if ¬ v.valid ∨ v.owner.val ≠ p ∨ (c ≤ 2 ∧ (partQuills s p).isEmpty) ∨
      (c ≤ 2 ∧ ts.any fun t => !rangeOk s p t.saddr t.bytes false) ∨
      (c = 1 ∧ ¬ rangeOk s p (eIaddr m) (32 + 512 * eRank m) true) ∨
      (c = 2 ∧ ¬ (rangeOk s p (eIaddr m) (16 * blockCount m) true ∧ rangeOk s p (eDaddr m) (eDlen m) true)) ∨
      (c = 3 ∧ ¬ rangeOk s p (eIaddr m) 32 false) then some St.accessDenied
  else none

/-- A block or ENCODE names an absent generation (R356, R361). -/
def genAbsent (s : State) (slot : Nat) (g : BitVec 8) (p : Nat) : State :=
  raiseLimited (s.bump (okey 0x9002 4) 1) ms slot 0x0702 p [(2, slot), (1, g.toNat)]

/-- READY → RETIRING, and EMPTY where nothing refers to it (R342). -/
def retireEntry (s : State) (slot i : Nat) : State :=
  let e := entryOf s slot i
  let s := setEntry s slot i { e with st := .retiring }
  if e.refs = 0 then freeGen s slot i else s

/-- Performs an ENCODE of any command (R347). -/
def encNow (s : State) (m : Msg) : State :=
  let p := m.hdr.part.toNat
  let slot := eSlot m
  match encRefusal s m with
  | some st => encEnd s m st 0
  | none =>
    match eCmd m with
    | 1 =>
      let s := stallRanges s p ((eIaddr m, 32 + 512 * eRank m) :: buildReads m)
      let j : BasisJob := { msg := m, stage := .waiting, slot := slot, rank := eRank m }
      wantEntry { s with basisJobs := s.basisJobs ++ [j] } j
    | 2 =>
      match findGen s slot (eGen m) isReady with
      | none => encEnd (genAbsent s slot (eGen m) p) m St.clrGenAbsent 0
      | some i =>
        let s := stallRanges s p ((eIaddr m, 16 * blockCount m) :: (eDaddr m, eDlen m) :: buildReads m)
        let e := entryOf s slot i
        let s := setEntry s slot i { e with refs := e.refs + 1 }
        { s with encJobs := s.encJobs ++ [{ msg := m, slot := slot, entry := i }] }
    | 3 =>
      let s := stallRanges s p [(eIaddr m, 32)]
      let j : BasisJob := { msg := m, stage := .header, slot := slot, reads := [{ addr := eIaddr m, len := 32 }] }
      basisAdvance { s with basisJobs := s.basisJobs ++ [j] } j
    | _ =>
      match findGen s slot (eGen m) isReady with
      | none => encEnd s m St.accessDenied 0
      | some i => encEnd (retireEntry s slot i) m St.ok 0

/-- An ENCODE message in its turn, applied once (R173, R347). -/
def encRequest (s : State) (m : Msg) : State := inTurn s m fun s => once (takeDelivered s m) ingMemory m (fun s => encNow s m)

def execBuild (m : Msg) (s : State) : Host.Outcome State Fault Refusal := .next (encRequest s m)
def execEncode (m : Msg) (s : State) : Host.Outcome State Fault Refusal := .next (encRequest s m)
def execBasisLoad (m : Msg) (s : State) : Host.Outcome State Fault Refusal := .next (encRequest s m)
def execBasisRetire (m : Msg) (s : State) : Host.Outcome State Fault Refusal := .next (encRequest s m)

/-! ### EXPAND (R353 to R358) -/

def xOfmt (m : Msg) : Nat := bits (leAt m.body 0 16) 3 0
def xNblk (m : Msg) : Nat := bits (leAt m.body 0 16) 15 8
def xBaddr (m : Msg) (n : Nat) : Nat := bits (leAt m.body (16 + 16 * n) 16) 55 0

/-- Block header fields (R338). -/
def bKind (h : List Byte) : Nat := bits (leNat h) 3 0
def bSfmt (h : List Byte) : Nat := bits (leNat h) 7 4
def bRank (h : List Byte) : Nat := bits (leNat h) 15 8
def bGen (h : List Byte) : BitVec 8 := BitVec.ofNat 8 (bits (leNat h) 23 16)
def bSlot (h : List Byte) : Nat := bits (leNat h) 40 32
def bRows (h : List Byte) : Nat := bits (leNat h) 55 48 + 1
def bCols (h : List Byte) : Nat := bits (leNat h) 63 56 + 1
def bDsize (h : List Byte) : Nat := bits (leNat h) 95 64
def bDelem (h : List Byte) : Nat := bits (leNat h) 127 96
def bNres (h : List Byte) : Nat := bits (leNat h) 137 128

/-- The size a header implies (R339). -/
def impliedSize (h : List Byte) : Nat :=
  if bKind h = 0 then 32 + roundUp (bRank h * bCols h * 2) 16 + roundUp (bNres h * 4) 16
  else 32 + roundUp (bRows h * bCols h * ((srcFmt (bSfmt h)).getD .fp32).width / 8) 16

/-- Why an EXPAND as a whole fails (R353). -/
def expRefusal (m : Msg) : Option (BitVec 8) :=
  if m.body.length < 16 then some St.formatUnsupported
  else match srcFmt (xOfmt m) with
    | none => some St.formatUnsupported
    | some f =>
      if 8388608 < 16 + 16 * ((xNblk m + 15) / 16) + xNblk m * 65536 * (f.width / 8) then some St.boundExceeded
      else if xNblk m = 0 ∨ m.body.length ≠ 16 + 16 * xNblk m then some St.formatUnsupported
      else none

/-- The status of a listed block at acceptance; none: queued (R355). -/
def blockStatus (s : State) (p : Nat) (x : Fetch) : Option (BitVec 8) :=
  let h := x.data
  match fetchFailed [x] with
  | some f => some (if f.st = St.uncorrectable ∨ f.st = St.tgtDead then f.st else St.accessDenied)
  | none =>
    if 1 < bKind h ∨ (srcFmt (bSfmt h)).isNone ∨ 64 < bRank h ∨ 512 < bNres h then some St.formatUnsupported
    else if bKind h = 0 ∧ (¬ (s.slot (bSlot h)).valid ∨ (s.slot (bSlot h)).owner.val ≠ p) then some St.accessDenied
    else
      match bKind h, findGen s (bSlot h) (bGen h) isReady with
      | 0, none => some St.clrGenAbsent
      | k, g =>
        if k = 0 ∧ (g.map fun i => (entryOf s (bSlot h) i).rank).getD 0 < bRank h then some St.clrSizeMismatch
        else if impliedSize h ≠ bDsize h ∨ bRows h * bCols h ≠ bDelem h then some St.clrSizeMismatch
        else none

/-- The expander of block `n` (R354). -/
def expanderOf (s : State) (p n baddr : Nat) : Nat :=
  match resolveRange s p baddr 32 false with
  | .segs ({ loc := .phys a, .. } :: _) => if 2 ^ 33 ≤ a ∧ a < 2 ^ 40 then (a - 2 ^ 33) / 2 ^ 28 / 384 % 6 else n % 6
  | _ => n % 6

def expQueue (s : State) (e : Nat) : List ExpBlock := Sparse.get [] s.expanders e
def setExpQueue (s : State) (e : Nat) (l : List ExpBlock) : State := { s with expanders := Sparse.set [] s.expanders e l }

/-- Counts and reports a block that fails (R356). -/
def blockFailed (s : State) (p : Nat) (st : BitVec 8) (baddr slot : Nat) (g : BitVec 8) : State :=
  if st = St.clrSizeMismatch then raise (s.bump (okey 0x9002 3) 1) 0x0701 p [(8, baddr)]
  else if st = St.clrGenAbsent then genAbsent s slot g p
  else s

/-- Sends the response once every block is decided (R358). -/
def expRespond (s : State) (r : ExpResp) : State :=
  if r.blocks.all fun b => b.st.isSome then
    let sts := r.blocks.map fun b => b.st.getD 0
    let nfail := (sts.filter (· != St.ok)).length
    let data := leBytes 2 (xNblk r.msg) ++ leBytes 2 nfail ++ List.replicate 12 0#8 ++ padTo 16 sts ++
      r.blocks.flatMap fun b => if b.st = some St.ok then padTo 16 b.data else []
    let s := { s with expResps := s.expResps.filter fun x => x.id != r.id }
    completeSealed s ingMemory r.msg 0 (BitVec.ofNat 16 nfail) data 16 (r.blocks.flatMap fun b => b.dw.getD [])
      (r.blocks.flatMap fun b => b.st.getD 0 :: b.di)
  else { s with expResps := s.expResps.map fun x => if x.id = r.id then r else x }

/-- Accepts an EXPAND whose headers are read: each block that passes is queued and takes a reference (R354, R355). -/
def expAccept (s : State) (r : ExpResp) : State :=
  let p := r.msg.hdr.part.toNat
  let items := (List.range (xNblk r.msg)).zip r.heads |>.map fun x => (x.1, x.2.data, blockStatus s p x.2, expanderOf s p x.1 x.2.addr, x.2.addr)
  let over_ := (List.range 6).find? fun e =>
    decide (1024 < (expQueue s e).length + (items.filter fun i => i.2.2.1.isNone && i.2.2.2.1 == e).length)
  match over_ with
  | some e =>
    complete ({ s with expResps := s.expResps.filter fun x => x.id != r.id }.bump (okey (0x9010 + e) 2) 1) ingMemory r.msg.hdr
      St.busy 0 0
  | none =>
    let x := items.foldl (fun (a : List ExpPart × State) i =>
      let h := i.2.1
      match i.2.2.1 with
      | some st => (a.1 ++ [{ st := some st }], blockFailed a.2 p st i.2.2.2.2 (bSlot h) (bGen h))
      | none =>
        let g := if bKind h = 0 then findGen a.2 (bSlot h) (bGen h) isReady else none
        let s := match g with
          | some j => let e := entryOf a.2 (bSlot h) j; setEntry a.2 (bSlot h) j { e with refs := e.refs + 1 }
          | none => a.2
        let dw := match g with | some j => bytes32 (entryOf s (bSlot h) j).digest | none => List.replicate 32 0#8
        let b : ExpBlock := { id := r.id, part := ⟨p % 32, by omega⟩, n := i.1, baddr := BitVec.ofNat 56 i.2.2.2.2, hdr := h, slot := bSlot h, entry := g }
        (a.1 ++ [{ dw := some dw }], setExpQueue s i.2.2.2.1 (expQueue s i.2.2.2.1 ++ [b]))) ([], s)
    expRespond x.2 { r with accepted := true, heads := [], blocks := x.1 }

/-- Goes on with EXPANDs whose headers are still being read. -/
def expAdvance (s : State) : State :=
  (s.expResps.filter fun r => !r.accepted).foldl (fun s r =>
    let p := r.msg.hdr.part.toNat
    let x := startFetches s (leadQuill s p) p r.heads
    let r := { r with heads := x.1 }
    let s := { x.2 with expResps := x.2.expResps.map fun y => if y.id = r.id then r else y }
    if r.heads.all Fetch.done then expAccept s r else s) s

def expArrive (s : State) (m : Msg) : State :=
  match expRefusal m with
  | some st => complete s ingMemory m.hdr st 0 0
  | none =>
    let heads : List Fetch := (List.range (xNblk m)).map fun n => { addr := xBaddr m n, len := 32 }
    let s := stallRanges s m.hdr.part.toNat (heads.map fun x => (x.addr, x.len))
    let n := s.nextSerial
    expAdvance { n.2 with expResps := n.2.expResps ++ [{ id := n.1, msg := m, heads := heads }] }

def execExpand (m : Msg) (s : State) : Host.Outcome State Fault Refusal := .next (inTurn s m fun s => expArrive (takeDelivered s m) m)

/-- Residual entries of a LOWRANK block (R339). -/
def residuals (h body : List Byte) : List ResEntry :=
  let off := roundUp (bRank h * bCols h * 2) 16
  (List.range (bNres h)).map fun i => (leAt body (off + 4 * i) 2, leAt body (off + 4 * i + 2) 2)

/-- POS strictly ascends and names rows and columns of the block (R356). -/
def residualsOk (h : List Byte) (rs : List ResEntry) : Bool :=
  (List.zip rs (rs.drop 1)).all (fun p => decide (p.1.1 < p.2.1)) &&
    rs.all fun r => decide (r.1 / 256 < bRows h) && decide (r.1 % 256 < bCols h)

/-- The output of a block, or none where R356 fails it. -/
def expandBlock (f : Fmt) (h body u : List Byte) : Option (List Byte) :=
  let out (v : Val) : List Byte := leBytes (f.width / 8) (roundPat f v)
  if bKind h = 0 then
    let rs := residuals h body
    if !residualsOk h rs then none
    else
      let k := bRank h
      let c := (List.range (k * bCols h)).map fun i => leAt body (2 * i) 2
      some ((List.range (bRows h)).flatMap fun i => (List.range (bCols h)).flatMap fun j => out (expandElem u c k (bCols h) rs i j))
  else if bRank h ≠ 0 ∨ bNres h ≠ 0 then none
  else
    let sf := (srcFmt (bSfmt h)).getD .fp32
    some ((List.range (bRows h * bCols h)).flatMap fun i => out (decodeElem sf (leAt body (i * (sf.width / 8)) (sf.width / 8))))

/-- Hands a block's outcome to its response (R356 to R358), with the bytes read: a Seal covers them, since the block passed R355
(R375). -/
def blockDone (s : State) (b : ExpBlock) (st : BitVec 8) (data raw : List Byte) : State :=
  let p := b.part.val
  let s := if st = St.ok then (s.bump (okey 0x9002 1) 1).bump (okey 0x9002 2) (bDelem b.hdr)
    else blockFailed s p st b.baddr.toNat b.slot (bGen b.hdr)
  let s := match s.expResps.find? fun r => r.id == b.id with
    | some r =>
      let o := r.blocks.getD b.n {}
      expRespond s { r with blocks := r.blocks.set b.n { o with st := some st, data := data, di := raw } }
    | none => s
  match b.entry with
  | some i => releaseRef s b.slot i
  | none => s

/-- Finishes a block whose bytes are read. -/
def finishBlock (s : State) (b : ExpBlock) (x : Fetch) : State :=
  match fetchFailed [x] with
  | some f => blockDone s b f.st [] []
  | none =>
    let raw := x.data
    let f := match s.expResps.find? fun r => r.id == b.id with
      | some r => (srcFmt (xOfmt r.msg)).getD .fp32
      | none => .fp32
    let u := match b.entry with
      | some i => readBasis s b.part.val b.slot i (512 * bRank b.hdr)
      | none => (some [], s)
    match u.1 with
    | none => blockDone u.2 b St.uncorrectable [] raw
    | some v =>
      match expandBlock f b.hdr (raw.drop 32) v with
      | some d => blockDone u.2 b St.ok d raw
      | none => blockDone u.2 b St.clrSizeMismatch [] raw

/-- Goes on with what waits for header reads: LOADs and EXPANDs. -/
def headAdvance (s : State) : State := expAdvance (loadAdvance s)

/-- EXPAND_BLOCK_DONE: an expander finishes the block at the head of its queue, once its bytes are read (R356 to R358). -/
def execExpandBlockDone (stack : Fin 6) (s : State) : Host.Outcome State Fault Refusal :=
  let s := headAdvance s
  .next (match expQueue s stack.val with
    | [] => s
    | b :: rest =>
      let x := startFetches s (leadQuill s b.part.val) b.part.val [b.read.getD { addr := b.baddr.toNat, len := bDsize b.hdr }]
      let y := x.1.headD default
      if y.done then finishBlock (setExpQueue x.2 stack.val rest) b y
      else setExpQueue x.2 stack.val ({ b with read := some y } :: rest))

/-! ### Dictionary writes (R340, R360) -/

/-- One SLOT_WRITE record (R340). -/
def writeSlot (by_ : Caller) (s : State) (r : BitVec 64) : Bool × State :=
  let n := bits r.toNat 15 0
  let p := bits r.toNat 22 16
  let v := s.slot n
  if 512 ≤ n ∨ 32 ≤ p ∨ ¬ ownerWrites s by_ p ∨ (v.valid ∧ ¬ ownerWrites s by_ v.owner.val) then (false, s)
  else (true, s.setSlot n { v with valid := bit r.toNat 23, owner := ⟨p % 32, by omega⟩ })

def setSlots (s : State) (by_ : Caller) (recs : List (BitVec 64)) : Ans :=
  guardRole s (isOpr s by_ || by_.role == .prt) (writeRecords (writeSlot by_) s recs)

def execSlotWrite (by_ : Caller) (recs : List (BitVec 64)) (s : State) : Host.Outcome State Fault Refusal := (setSlots s by_ recs).out by_

/-- BASIS_SLICE (R340, R360). -/
def setBasisSlice (s : State) (by_ : Caller) (v : Nat) : Ans :=
  guardRole s (isOpr s by_) <|
  guardRange s (sliceExists s v) <|
  if s.slots.any fun e => e.2.entries.any fun g => g.st != .empty then Ans.no s Ds.unitNotStopped
  else guardValue s (!sliceGranted s v && !(v ∈ dirSliceList s) && !(v ∈ (List.range 16).map (queueSliceOf s)) && !(v ∈ spillSliceList s))
    (Ans.ok (s.setO (okey 0x9000 1) v))

def execBasisSlice (by_ : Caller) (v : BitVec 8) (s : State) : Host.Outcome State Fault Refusal := (setBasisSlice s by_ v.toNat).out by_

/-- GEN_RETIRE: RETIRE on behalf of OPR (R360). -/
def setGenRetire (s : State) (by_ : Caller) (v : Nat) : Ans :=
  let slot := bits v 8 0
  guardRole s (oprOver s by_ (s.slot slot).owner.val) <|
  match findGen s slot (BitVec.ofNat 8 (bits v 23 16)) isReady with
  | none => Ans.no s Ds.valueRejected
  | some i => Ans.ok (retireEntry s slot i)

def execGenRetire (by_ : Caller) (v : BitVec 32) (s : State) : Host.Outcome State Fault Refusal := (setGenRetire s by_ v.toNat).out by_

end Sys2Proof.Machine
end

