-- ==== Sys2Proof/Machine/Units.lean ====
section
/-! DEFINITION. Units and their spares: the reproducibility key (R365, R366), the disabled-unit map (R441), quarantine, self-test
and retirement (R434 to R442). -/

namespace Sys2Proof.Machine

/-! ### The map and the key (R365, R366, R441) -/

/-- The disabled-unit map as its 4,096-bit number (R441). -/
def DuMap.num (m : DuMap) : Nat :=
  let at_ (base w i v : Nat) : Nat := v * 2 ^ (base + w * i)
  let sum (base w : Nat) (vs : List Nat) : Nat := ((vs.zip (List.range vs.length)).map fun x => at_ base w x.2 x.1).foldl (· + ·) 0
  m.tfuse.toNat + m.pret.toNat * 2 ^ 32 + m.qret.toNat * 2 ^ 160 + sum 256 16 (m.nibs.map (·.toNat)) +
    sum 1280 64 (m.tileu.map (·.toNat)) + sum 2304 32 (m.stkch.map (·.toNat)) + m.inkch.toNat * 2 ^ 2496

def DuMap.bytes (m : DuMap) : List Byte := leBytes 512 m.num

/-- DUMAP of the key: the first 16 bytes of the digest of the map (R365). -/
def DuMap.tag (m : DuMap) : List Byte := shake 16 m.bytes

/-- The reproducibility key (R365). Every tile enabled is grade -H. -/
def reproKey (s : State) : List Byte :=
  let grade := if s.dumap.tfuse = 0 then 0x48 else 0x4D
  leBytes 4 (1 + grade * 2 ^ 8 + Config.stepping.toNat * 2 ^ 16 + (enabledQuills s).length * 2 ^ 24) ++
    leBytes 4 s.scribe.fwVer.toNat ++ List.replicate 8 0#8 ++ s.dumap.tag

/-- The key has changed from one FWVER and map to those of the state (R366, R598). -/
def keyChanged (s : State) (oldVer : BitVec 32) (old : DuMap) : State :=
  raise (s.bump (okey 0x1008 2) 1) 0x0408 deviceWide
    [(4, oldVer.toNat), (4, s.scribe.fwVer.toNat), (4, leNat (old.tag.take 4)), (4, leNat (s.dumap.tag.take 4))]

/-- Writes the map; a map that differs changes the key. -/
def setMap (s : State) (m : DuMap) : State :=
  if m = s.dumap then s else keyChanged { s with dumap := m } s.scribe.fwVer s.dumap

/-! ### Unit codes (R434, R442) -/

def unitType (u : Nat) : Nat := bits u 31 24
def unitIndex (u : Nat) : Nat := bits u 23 0
def unitCode (typ ix : Nat) : Nat := typ * 2 ^ 24 + ix

/-- The unit exists on this part (R434, R442). -/
def unitExists (s : State) (u : Nat) : Bool :=
  let i := unitIndex u
  match unitType u with
  | 1 => decide (i / 16 < 64) && tileOk s (i / 64) && decide (i % 16 < 9)
  | 2 => tileOk s (i / 128) && decide (i % 128 < 92)
  | 3 => decide (i < 512) && tileOk s (i / 32)
  | 4 => tileOk s (i / 64) && decide (i % 64 < 34)
  | 5 => decide (i < 192)
  | 6 => decide (i < 64) && tileOk s (i / 4)
  | 7 => decide (i < 80) && tileOk s (if i < 64 then i / 4 else i - 64)
  | _ => false

/-- Units to a tile of the types that have places: banks and die-to-die lanes. -/
def perTile (u : Nat) : Nat := if unitType u = 2 then 128 else 64

/-- Banks and die-to-die lanes have places in their tile that a spare can take. -/
def hasPlace (u : Nat) : Bool := unitType u == 2 || unitType u == 4

/-- A spare by number: banks 88 to 91, lanes 32 and 33, nib 8 (R434, R442). -/
def isSpare (u : Nat) : Bool :=
  match unitType u with
  | 1 => unitIndex u % 16 == 8
  | 2 => decide (88 ≤ unitIndex u % 128)
  | 4 => decide (32 ≤ unitIndex u % 64)
  | _ => false

/-- Nibs of a quill retired (R441). -/
def nibsRetired (s : State) (q : Nat) : BitVec 16 := s.dumap.nibs.getD q 0

/-- The spare nib of a quill works: it has taken the place of a retired one (R18). -/
def spareNibUsed (s : State) (q : Nat) : Bool := (List.range 8).any (nibsRetired s q).getLsbD && !(nibsRetired s q).getLsbD 8

/-- UNIT_STATE (0xA100.08): 0 in service, 1 quarantined, 2 retired, 3 idle spare. -/
def unitState (s : State) (u : Nat) : Nat :=
  match (s.unit u).st with
  | 0 => if isSpare u && !(unitType u == 1 && spareNibUsed s (unitIndex u / 16)) then 3 else 0
  | 4 => 0
  | n => n

/-- The units of the same type and tile. -/
def tileMates (u : Nat) : List Nat :=
  let n := perTile u
  (List.range (if unitType u = 2 then 92 else 34)).map fun i => unitCode (unitType u) (unitIndex u / n * n + i)

/-- A free spare of the same type in the unit's tile, the lowest. -/
def freeSpare (s : State) (u : Nat) : Option Nat := (tileMates u).find? fun v => unitState s v == 3

/-- What serves a place. -/
def serves (s : State) (place : Nat) : Nat := Sparse.get 0 s.standIn place

/-- The place a bank or lane serves. -/
def placeOf (s : State) (u : Nat) : Option Nat :=
  (tileMates u).find? fun v => !isSpare v &&
    (if serves s v = 0 then v == u else serves s v == unitIndex u % perTile u + 1)

def setServes (s : State) (place v : Nat) : State := { s with standIn := Sparse.set 0 s.standIn place v }
def modUnit (s : State) (u : Nat) (f : UnitSt → UnitSt) : State := s.setUnit u (f (s.unit u))

/-- Partition of a unit for its events (R501). -/
def unitPart (s : State) (u : Nat) : Nat :=
  match unitType u with
  | 1 => quillOwner s (unitIndex u / 16)
  | 3 => portOwner s (unitIndex u / 4)
  | _ => deviceWide

/-- The mismatch of a quill's generator instance is its nib's error (R434). -/
def erringUnit (u : Nat) : Nat :=
  if unitType u = 7 ∧ unitIndex u < 64 then unitCode 1 (16 * unitIndex u + (Config.cgNib (unitIndex u)).val) else u

/-! ### Work abandoned in a unit (R420 (c), R435, R438) -/

/-- Trigger (c) on a request performed here: true when it has no attempt left, else one attempt more (R420, R467). -/
def unitAttempt (s : State) (k : ReqKey) : Bool × State :=
  match findJournal s k with
  | none => (false, s)
  | some j =>
    if 3 ≤ j.att then (true, s)
    else (false, (setJournal s { j with att := j.att + 1, tlast := tb32 s }).bump (okey 0xA000 4) 1)

/-- Trigger (c) on each of a list of requests: those exhausted, and the state. -/
def unitAttempts (s : State) (ks : List ReqKey) : List ReqKey × State :=
  ks.foldl (fun a k => let x := unitAttempt a.2 k; (if x.1 then a.1 ++ [k] else a.1, x.2)) ([], s)

def GReq.key (g : GReq) : ReqKey := hdrKey g.msg.hdr

/-- A pass begins again from the requests it holds; those in `ended` have completed (R438). -/
def restartRun (s : State) (q : Nat) (r : Run) (ended : List ReqKey) : State :=
  let keep (g : GReq) : Bool := !(ended.contains g.key)
  let cur := if r.scatters then r.cur else ((r.reqs.take r.cur).filter keep).length
  let reqs := r.reqs.filter keep
  if reqs.isEmpty then afterPass (dropRun s q r.id) q r.table
  else
    let xs := reqs.flatMap fun g => gResolved g.msg
    let ops := (r.ops.filter fun o => match o.index with | some x => xs.contains x | none => true).map fun o =>
      { o with subs := [], wait := none }
    let rows := r.rows.filter xs.contains
    let cur := if r.scatters then cur - ((r.rows.take cur).filter fun x => !(xs.contains x)).length else cur
    let y := readRows s q r.word ops
    modRun y.2 q { r with reqs := reqs, rows := rows, cur := cur, ops := y.1 }

/-- The passes that read on a quill are abandoned and made again (R435, R438). -/
def abandonPasses (s : State) (q : Nat) : State :=
  ((s.quill q).runs.filter (·.stage == .reading)).foldl (fun s r =>
    let held := if r.scatters then r.reqs else r.reqs.take r.cur
    let x := unitAttempts s (held.map GReq.key)
    let s := (held.filter fun g => x.1.contains g.key).foldl
      (fun s g => gFail s (ingQuill q) r.table g.msg St.replayExhausted (quillFlag s q) 3) x.2
    restartRun s q r x.1) s

/-- A BUILD or LOAD that quill `q` works on (R348). -/
def jobOnQuill (s : State) (q : Nat) (j : BasisJob) : Bool :=
  let p := j.msg.hdr.part.toNat
  j.stage != .waiting && (leadQuill s p == q || (eCmd j.msg == 1 && decide (q ∈ partQuills s p)))

/-- Reads that are to be made again. -/
def Fetch.again (x : Fetch) : Fetch := { x with subs := [] }

/-- BUILD, LOAD and ENCODE work that a quill has under way is made again (R420 (c), R435). -/
def abandonJobs (s : State) (q : Nat) : State :=
  let bs := s.basisJobs.filter (jobOnQuill s q)
  let es := s.encJobs.filter fun j => j.quill s == q
  let x := unitAttempts s (bs.map (fun j => hdrKey j.msg.hdr) ++ es.map fun j => hdrKey j.msg.hdr)
  let gone (m : Msg) : Bool := x.1.contains (hdrKey m.hdr)
  let s := endEncodes (failJobs x.2 gone St.replayExhausted 3) gone St.replayExhausted 3
  let s := (bs.filter fun j => !gone j.msg && j.stage != .writing).foldl
    (fun s j => basisAdvance s { j with reads := j.reads.map Fetch.again }) s
  (es.filter fun j => !gone j.msg && !j.wrote).foldl
    (fun s j => setEnc s { j with reads := j.reads.map Fetch.again }) s

/-- A retired quill completes what it holds with REPLAY_EXHAUSTED, CDAT 0 (R439). -/
def endQuill (s : State) (q : Nat) : State :=
  let v := s.quill q
  let gs := v.runs.flatMap (·.reqs) ++ v.jobs.flatMap (·.reqs) ++ v.wins.flatMap (·.reqs)
  let s := s.setQuill q { v with runs := [], jobs := [], wins := [], waiting := false }
  let s := gs.foldl (fun s g => gFail s ingMemory g.table g.msg St.replayExhausted 0 0) s
  ((gs.map (·.table)).eraseDups).foldl settleTable s

/-- Adds a 32-byte word to those with an uncorrectable error, in rising order. -/
def addPoison (s : State) (w : Nat) : State :=
  if w ∈ s.poison then s
  else { s with poison := s.poison.takeWhile (· < w) ++ [w] ++ s.poison.dropWhile (· < w) }

/-- A packet the device holds. -/
def findHeld (s : State) (age : Nat) : Option Held :=
  ((s.inq.flatMap (·.2)) ++ s.spine.map (·.held) ++ s.outs.flatMap fun e => e.2.q).find? fun h => h.age == age

/-- Takes a packet out of every queue. -/
def dropHeld (s : State) (age : Nat) : State :=
  let other (h : Held) : Bool := h.age != age
  let s := (s.inq.map (·.1)).foldl (fun s i => s.setInputQ i ((s.inputQ i).filter other)) s
  let s := (s.outs.map (·.1)).foldl (fun s o => s.setOut o { s.outSt o with q := (s.outSt o).q.filter other }) s
  { s with spine := s.spine.filter fun x => other x.held }

/-- The bank's place holds this kind of content, in this tile (R434). -/
def lostFits (place : Nat) (tileOf : Nat) (lo hi : Nat) : Bool :=
  unitIndex place / 128 == tileOf && decide (lo ≤ unitIndex place % 128) && decide (unitIndex place % 128 < hi)

/-- The bank's place holds the journal or ligature record of a request. -/
def blotterHere (s : State) (place : Nat) (k : ReqKey) : Bool :=
  (s.journal.any fun j => j.key == k && lostFits place j.tile.val 80 84) ||
    s.ligRecs.any fun r => r.key == k && lostFits place r.tile.val 80 84

/-- The ACTIVE domain whose window holds a line. -/
def domainOfLine (s : State) (line : Nat) : Option Nat :=
  (List.range 32).find? fun d => (s.domain d).st == .active &&
    ((windowsOf s d).filterMap (windowExtent s (domainPart s d))).any fun x => decide (x.1 ≤ 128 * line) && decide (128 * line < x.1 + x.2)

/-- A directory entry has lost its check code, by the difference given: its domain is HELD with cause 4 (R190, R202). -/
def failEntry (s : State) (line : Nat) (chk : BitVec 8) : State :=
  match domainOfLine s line with
  | some d => holdDomain { s with dir := Sparse.set {} s.dir line { dirEntry s line with chk := chk } } d 4 0
  | none => s

/-- What losing one thing does to its structure (R438). -/
def loseOne (place : Nat) (s : State) (x : Lost) : State :=
  match x with
  | .word q n => if lostFits place (q.val / 4) 0 64 then addPoison s ((physT0 q.val 0) / 32 + n.toNat) else s
  | .chunk c =>
    if lostFits place (ctxQuill c.toNat / 4) 0 64 ∧ (s.ctx c.toNat).st = .running then failCtx s c.toNat St.uncorrectable else s
  | .pass q => if lostFits place (q.val / 4) 0 64 then abandonPasses s q.val else s
  | .packet age =>
    match findHeld s age with
    | some h => if lostFits place h.tile.val 64 80 then afterDiscard (dropHeld s age) h.pkt.hdr else s
    | none => s
  | .blotter k =>
    if blotterHere s place k then ({ dropJournal s k with ligRecs := s.ligRecs.filter fun r => r.key != k }).bump (okey 0xFFFF 3) 1 else s
  | .opRecord src part opid =>
    let same (r : OpRec) : Bool := r.src == src && r.part == part && r.opid == opid && lostFits place r.tile.val 80 84
    if s.opRecs.any same then ({ s with opRecs := s.opRecs.filter fun r => !same r }).bump (okey 0xFFFF 3) 1 else s
  | .directory line chk =>
    if lostFits place (unitIndex place / 128) 84 88 ∧ chk ≠ 0 then failEntry s line chk else s

/-! ### Retirement (R435, R436, R439) -/

/-- A port is removed from every live set (R436, R439). -/
def retirePort (s : State) (p : Nat) : State :=
  let s := if (s.port p).st = .disabled then s else portTo s p .disabled 0
  setMap s { s.dumap with pret := s.dumap.pret ||| (1#128 <<< p) }

/-- Adds to a field of TILEU (R441). -/
def addTileu (m : DuMap) (t lo n : Nat) : DuMap :=
  { m with tileu := m.tileu.set t (BitVec.ofNat 64 ((m.tileu.getD t 0).toNat + n * 2 ^ lo)) }

/-- A retired unit leaves less capacity behind (R439). -/
def degraded (s : State) (u : Nat) : State := raise s 0x0905 (unitPart s u) [(4, u), (1, 1)]

/-- A spare has taken a retired unit's place (R435). -/
def substituted (s : State) (u spare : Nat) : State := raise s 0x0904 (unitPart s u) [(4, u), (4, spare)]

/-- Retires a nib: its spare takes its place, else the quill loses a nib, and with its last one the quill is retired (R439). -/
def retireNib (s : State) (u : Nat) : State :=
  let q := unitIndex u / 16
  let n := unitIndex u % 16
  let old := nibsRetired s q
  let m := { s.dumap with nibs := s.dumap.nibs.set q (old ||| (1#16 <<< n)) }
  let spareFree := !old.getLsbD 8 && !(List.range 8).any old.getLsbD
  if n = 8 ∧ spareFree then setMap s m
  else if n ≠ 8 ∧ spareFree then setMap (substituted s u (unitCode 1 (16 * q + 8))) m
  else
    let s := degraded s u
    if (List.range 9).all (old ||| (1#16 <<< n)).getLsbD then endQuill (setMap s { m with qret := m.qret ||| (1#64 <<< q) }) q
    else setMap s m

/-- Retires a bank or a die-to-die lane: its stand-in or a free spare keeps its place, else the place is lost (R436, R439). -/
def retirePlaced (s : State) (u : Nat) : State :=
  let n := perTile u
  let t := unitIndex u / n
  let used := if unitType u = 2 then 7 else 10
  let stand := (s.unit u).stand
  if stand ≠ 0 then
    setMap (substituted s u (unitCode (unitType u) (t * n + (stand - 1)))) (addTileu s.dumap t used 1)
  else match placeOf s u with
    | none => s
    | some place =>
      match freeSpare s u with
      | some v =>
        let s := setServes (modUnit s v fun x => { x with st := 4 }) place (unitIndex v % n + 1)
        setMap (substituted s u v) (addTileu s.dumap t used 1)
      | none =>
        let s := degraded (setServes s place 255) u
        if unitType u = 2 then setMap s (addTileu s.dumap t 0 1)
        else retirePort s (8 * t + unitIndex place % 64 / 4)

/-- Retires a unit for a cause (R435 step 5, R437, R439). -/
def retireUnit (s : State) (u cause : Nat) : State :=
  let i := unitIndex u
  let s := raise (s.bump (okey 0xA100 5) 1) 0x0903 (unitPart s u) [(4, u), (1, cause)]
  let s := match unitType u with
    | 1 => retireNib s u
    | 2 | 4 => retirePlaced s u
    | 3 => retirePort (degraded s u) (i / 4)
    | 5 => setMap (degraded s u) { s.dumap with stkch := s.dumap.stkch.set (i / 32) (s.dumap.stkch.getD (i / 32) 0 ||| (1#32 <<< (i % 32))) }
    | 6 => setMap (degraded s u) { s.dumap with inkch := s.dumap.inkch ||| (1#64 <<< i) }
    | _ => setMap (degraded s u) (addTileu s.dumap (i - 64) 12 1)
  modUnit s u fun x => { x with st := 2, erred := false, stand := 0, fails := 0 }

/-! ### Quarantine and self-test (R435 to R437) -/

/-- A nib holds work of its quill unless it is a spare that has not been substituted (R18). -/
def nibWorks (s : State) (u : Nat) : Bool := unitType u == 1 && unitState s u != 3

/-- The work of a quill is abandoned and made again (R420 (c), R435, R438). -/
def abandonQuill (s : State) (q : Nat) : State := abandonJobs (abandonPasses s q) q

/-- Quarantines a unit and starts its self-test; its stand-in takes over (R434, R435). -/
def quarantine (s : State) (u : Nat) : State :=
  let works := nibWorks s u
  let s := match hasPlace u, placeOf s u, freeSpare s u with
    | true, some place, some v =>
      let s := setServes (modUnit s v fun x => { x with st := 4 }) place (unitIndex v % perTile u + 1)
      modUnit s u fun x => { x with stand := unitIndex v % perTile u + 1 }
    | _, _, _ => s
  let s := modUnit s u fun x => { x with st := 1, fails := 0 }
  let s := raise (s.bump (okey 0xA100 3) 1) 0x0901 (unitPart s u) [(4, u)]
  match unitType u with
  | 1 => if works then abandonQuill s (unitIndex u / 16) else s
  | 3 => if (s.port (unitIndex u / 4)).st = .disabled then s else portTo s (unitIndex u / 4) .detect 1
  | _ => s

/-- Transients of a unit in the last hour (R437). -/
def recentTransients (s : State) (u : Nat) : List Nat := (s.unit u).trans.filter fun t => s.time < t + 3600 * sec

/-- A bank that serves while its tile has no free spare cannot be quarantined (R437). -/
def noStandIn (s : State) (u : Nat) : Bool := unitType u == 2 && (placeOf s u).isSome && (freeSpare s u).isNone

/-- Handles an error of a unit (R435, R437). -/
def unitErred (s : State) (u : Nat) : State :=
  let u := erringUnit u
  if !unitExists s u || unitState s u == 1 || unitState s u == 2 then s
  else if s.o (okey 0xA100 2) ≤ (recentTransients s u).length ∨ (s.unit u).erred then
    let t := retireUnit s u 2
    if nibWorks s u ∧ quillOk t (unitIndex u / 16) then abandonQuill t (unitIndex u / 16) else t
  else if noStandIn s u then modUnit s u fun x => { x with erred := true }
  else quarantine s u

/-- UNIT_ERROR: the unit is quarantined or retired, and what a bank lost acts on its structure (R435 to R438). -/
def execUnitError (u : BitVec 32) (lost : List Lost) (s : State) : Host.Outcome State Fault Refusal :=
  .next (
    let place := if unitType u.toNat = 2 ∧ unitExists s u.toNat ∧ unitState s u.toNat = 0 then placeOf s u.toNat else none
    let s := unitErred s u.toNat
    match place with
    | some p => lost.foldl (loseOne p) s
    | none => s)

/-- A unit that passes is restored and counted transient (R435 step 3, R436). -/
def restoreUnit (s : State) (u : Nat) : State :=
  let x := s.unit u
  let trans := recentTransients s u ++ [s.time]
  let n := perTile u
  let t := unitIndex u / n
  let s := if unitType u = 2 then modUnit s u fun x => { x with st := 3 }
    else if unitType u = 4 ∧ x.stand ≠ 0 then
      if isSpare u then modUnit s u fun x => { x with st := 3 }
      else
        let s := modUnit (setServes s u 0) u fun x => { x with st := 0 }
        modUnit s (unitCode 4 (t * n + (x.stand - 1))) fun x => { x with st := 3 }
    else modUnit s u fun x => { x with st := if unitType u = 4 ∧ isSpare u ∧ (placeOf s u).isSome then 4 else 0 }
  let s := modUnit s u fun x => { x with stand := 0, fails := 0, trans := trans }
  let s := raise (s.bump (okey 0xA100 4) 1) 0x0902 (unitPart s u) [(4, u)]
  if unitType u = 3 ∧ (s.port (unitIndex u / 4)).st ≠ .disabled then portTo s (unitIndex u / 4) .detect 1 else s

/-- SELFTEST_DONE: a pass restores; one failure repeats the test; a second retires the unit, but a channel whose test locates
at most 8 failing rows per bank is repaired from its spare rows (R435). -/
def selftestDone (s : State) (u : Nat) (pass repairable : Bool) : State :=
  if unitState s u ≠ 1 then s
  else if pass then restoreUnit s u
  else if (s.unit u).fails = 0 then (modUnit s u fun x => { x with fails := 1 }).bump (okey 0xA100 3) 1
  else if repairable && (unitType u == 5 || unitType u == 6) then modUnit s u fun x => { x with st := 0, fails := 0 }
  else retireUnit s u 1

def execSelftestDone (u : BitVec 32) (pass repairable : Bool) (s : State) : Host.Outcome State Fault Refusal :=
  .next (selftestDone s u.toNat pass repairable)

/-- SELFTEST_RUN (0xA100.06): quarantines and tests a unit now. A unit already quarantined or retired, and a bank that has no
stand-in, stay as they are. -/
def setSelftestRun (s : State) (by_ : Caller) (u : Nat) : Ans :=
  guardRole s (isOpr s by_) <|
  guardRange s (unitExists s u) <|
  let v := erringUnit u
  Ans.ok (if unitState s v = 1 ∨ unitState s v = 2 ∨ noStandIn s v then s else quarantine s v)

def execSelftestRun (by_ : Caller) (u : BitVec 32) (s : State) : Host.Outcome State Fault Refusal := (setSelftestRun s by_ u.toNat).out by_

end Sys2Proof.Machine
end

