-- ==== Sys2Proof/Machine/Determinism.lean ====
section
/-! DEFINITION. The generator check (R373) and signed batches of Seals (R378, R379). -/

namespace Sys2Proof.Machine

/-- The output of the generator as a 128-bit number, W0 lowest (R369). -/
def CgWords.num (w : CgWords) : Nat := w.x0.toNat + w.x1.toNat * 2 ^ 32 + w.x2.toNat * 2 ^ 64 + w.x3.toNat * 2 ^ 96

/-- The generator instances of the part: 0-63 quill, 64-79 tile (R373, R442). -/
def cgInstances (s : State) : List Nat := (List.range 80).filter fun i => unitExists s (unitCode 7 i)

/-- What an instance answers: R368, or the output given for a faulty one. -/
def cgAnswer (good : Nat) (bad : List (Fin 80 × BitVec 128)) (i : Nat) : Nat :=
  match bad.find? fun b => b.1.val == i with | some b => b.2.toNat | none => good

/-- The output that more than half of the answers give. -/
def majorityOf (vs : List Nat) : Option Nat := vs.find? fun v => decide (vs.length < 2 * (vs.filter (· == v)).length)

/-- The majority output; where no output has a majority, the spec states none and it is free. -/
def cgMajority (s : State) (vs : List Nat) : Nat × State :=
  match majorityOf vs with
  | some v => (v, s)
  | none =>
    let a := s.takeFree 1
    let b := a.2.takeFree 2
    (a.1.toNat + b.1.toNat * 2 ^ 64, b.2)

/-- CG_INPUT (R373). CG_AGREE is held as its complement. -/
def setCgInput (s : State) (by_ : Caller) (key : BitVec 64) (cw : Vector (BitVec 32) 4) (bad : List (Fin 80 × BitVec 128)) : Ans :=
  guardRole s (isOpr s by_) <|
  let good := (ctrgen key cw[0] cw[1] cw[2] cw[3]).num
  let is := cgInstances s
  let vs := is.map (cgAnswer good bad)
  let m := cgMajority s vs
  let s := m.2.setB (okey 0x7300 1) (leBytes 8 key.toNat ++ cw.toList.flatMap fun w => leBytes 4 w.toNat)
  let s := s.setC (okey 0x7300 2) m.1
  if vs.all fun v => v == vs.headD good then Ans.ok (s.setC (okey 0x7300 3) 0)
  else
    let s := s.setC (okey 0x7300 3) 1
    match is.find? fun i => cgAnswer good bad i != m.1 with
    | some i =>
      let part := if i < 64 then quillOwner s i else deviceWide
      Ans.ok (unitErred (raise s 0x0409 part [(1, i)]) (unitCode 7 i))
    | none => Ans.ok s

def execCgInput (by_ : Caller) (key : BitVec 64) (cw : Vector (BitVec 32) 4) (bad : List (Fin 80 × BitVec 128)) (s : State) :
    Host.Outcome State Fault Refusal := (setCgInput s by_ key cw bad).out by_

/-- BATCH_SIGN: closes the open batch; BUSY while a signature is pending (R379). -/
def setBatchSign (s : State) (by_ : Caller) (p v : Nat) : Ans :=
  guardRole s (ownerWrites s by_ p) <|
  guardRange s (v == 1) <|
  let b := s.batch p
  if b.closed.isSome then Ans.no s Ds.busy
  else Ans.ok (s.setBatch p { b with closed := some b.open_, open_ := [] })

def execBatchSign (by_ : Caller) (p : Part) (v : BitVec 8) (s : State) : Host.Outcome State Fault Refusal :=
  (setBatchSign s by_ p.val v.toNat).out by_

/-- The header of a signed batch (R379). -/
def batchHeader (s : State) (p number : Nat) (recs : List (List Byte)) : List Byte :=
  leBytes 4 p ++ leBytes 4 number ++ leBytes 4 recs.length ++ leBytes 4 0 ++ reproKey s ++ shake 32 recs.flatten ++
    List.replicate 48 0#8

/-- An ML-DSA-65 signature under the key pair of a draw. -/
def dsaSignature (key : Nat) (msg : List Byte) : List Byte := (List.range 3309).map (Config.dsaSign key msg)

/-- The signature of the closed batch is ready (R379). -/
def batchSigned (s : State) (p : Nat) : State :=
  let b := s.batch p
  match b.closed with
  | none => s
  | some recs =>
    let n := b.number + 1
    let h := batchHeader s p n.toNat recs
    let s := s.setBatch p { b with closed := none, number := n,
                                   signed := h ++ recs.flatten ++ dsaSignature ((s.part p).attKey.getD 0) h }
    raise s 0x040B p [(1, p), (4, n.toNat)]

def execBatchSigned (p : Part) (s : State) : Host.Outcome State Fault Refusal := .next (batchSigned s p.val)

end Sys2Proof.Machine
end

