-- ==== Sys2Proof/Machine/Routes.lean ====
section
/-! DEFINITION. Route versions, epoch notices, ligature entries, ligature timeouts and the spine (03_switching_routing.md). -/

namespace Sys2Proof.Machine

/-- Number of a version slot. -/
def slotNo (e : Bool) : Nat := b2n e

/-- INFLIGHT: the packets carrying this EP that the device holds (R121). DESIGN CHOICE (notes/assumptions/74.md): every copy of a
ligature packet that it holds counts. -/
def inflight (s : State) (ep : Bool) : Nat :=
  let hs := (s.inq.flatMap (·.2)) ++ s.spine.map (·.held) ++ s.outs.flatMap fun e => e.2.q
  (hs.filter fun h => h.pkt.hdr.ep == ep).length

/-! ### Loading a slot (R120) -/

/-- Writes are accepted in EMPTY and LOADING; the first makes the slot LOADING (R120). -/
def slotWritable (v : RouteSlot) : Bool := v.st == .empty || v.st == .loading

/-- A route entry with its reserved bits [123], [120] and [7:0] zero (R9, R110). -/
def canonEntry (e : BitVec 128) : BitVec 128 := e &&& 0xF6FFFFFFFFFFFFFFFFFFFFFFFFFFFF00#128

/-- An intermediate list entry with its reserved bits [28:24] zero (R9, R117). -/
def canonIlist (w : BitVec 32) : BitVec 32 := w &&& 0xE0FFFFFF#32

/-- One ENTRY_WRITE record (R110). -/
def writeEntry (ep : Bool) (s : State) (r : BitVec 32 × BitVec 128) : Bool × State :=
  let v := s.routeSlot ep
  if slotWritable v ∧ r.1.toNat < 65536 then
    (true, s.setRouteSlot ep { v with st := .loading, entries := Sparse.set reDefault v.entries r.1.toNat (canonEntry r.2) })
  else (false, s)

/-- One ILIST_WRITE record (R117). -/
def writeIlist (ep : Bool) (s : State) (r : BitVec 32 × BitVec 32) : Bool × State :=
  let v := s.routeSlot ep
  if slotWritable v ∧ r.1.toNat < 4096 then
    (true, s.setRouteSlot ep { v with st := .loading, ilist := Sparse.set 0 v.ilist r.1.toNat (canonIlist r.2) })
  else (false, s)

def setEntries (s : State) (by_ : Caller) (ep : Bool) (recs : List (BitVec 32 × BitVec 128)) : Ans :=
  guardRole s (isOpr s by_) (writeRecords (writeEntry ep) s recs)

def setIlist (s : State) (by_ : Caller) (ep : Bool) (recs : List (BitVec 32 × BitVec 32)) : Ans :=
  guardRole s (isOpr s by_) (writeRecords (writeIlist ep) s recs)

def execEntryWrite (by_ : Caller) (slot : Bool) (recs : List (BitVec 32 × BitVec 128)) (s : State) :
    Host.Outcome State Fault Refusal := (setEntries s by_ slot recs).out by_

def execIlistWrite (by_ : Caller) (slot : Bool) (recs : List (BitVec 32 × BitVec 32)) (s : State) :
    Host.Outcome State Fault Refusal := (setIlist s by_ slot recs).out by_

/-! ### COMMIT (R122) -/

/-- A valid route entry that COMMIT rejects, given the valid entries with their indices. -/
def badEntry (s : State) (all : List (Nat × BitVec 128)) (i : Nat) (e : BitVec 128) : Bool :=
  rePls e == 0 || prefixOverhang (rePls e) (rePrefix e) ||
    all.any (fun x => x.1 != i && rePls x.2 == rePls e && rePrefix x.2 == rePrefix e) ||
    (rePlaces e).any (fun p => !(if p < 128 then tileOk s (p / 8) else decide (p < 130))) ||
    decide (4096 < reIlBase e + reIlCnt e) || (reTph e && reIlCnt e == 0)

/-- A valid intermediate list entry that COMMIT rejects. -/
def badIlist (w : BitVec 32) : Bool := !(recPls w == 1 || recPls w == 2) || prefixOverhang (recPls w) (recPrefix w)

/-- The first failure, in the checking order of R122: kind and index. -/
def commitFailure (s : State) (v : RouteSlot) : Option (Nat × Nat) :=
  let es := v.entries.filter fun e => reValid e.2
  match es.find? fun e => badEntry s es e.1 e.2 with
  | some e => some (1, e.1)
  | none => (v.ilist.find? fun e => recValid e.2 && badIlist e.2).map fun e => (2, e.1)

/-- A write of COMMIT (R122). A slot that is not LOADING is refused. -/
def setCommit (s : State) (by_ : Caller) (ep : Bool) (v : Nat) : Ans :=
  guardRole s (isOpr s by_) <|
  guardRange s (decide (v = 1)) <|
  let r := s.routeSlot ep
  guardValue s (r.st == .loading) <|
  match commitFailure s r with
  | some (kind, i) => Ans.no (raise s 0x0203 deviceWide [(1, slotNo ep), (1, kind), (2, i)]) Ds.valueRejected
  | none =>
    Ans.ok (checkAgentRoutes
      (raise (s.setRouteSlot ep { r with st := .serving }) 0x0201 deviceWide [(1, slotNo ep), (4, r.rgen.toNat)]))

def execCommit (by_ : Caller) (slot : Bool) (v : BitVec 8) (s : State) : Host.Outcome State Fault Refusal :=
  (setCommit s by_ slot v.toNat).out by_

/-- A write of RETIRE: SERVING → DRAINING, refused for the slot ORIG_EP selects (R121, R122). -/
def setRetire (s : State) (by_ : Caller) (ep : Bool) (v : Nat) : Ans :=
  guardRole s (isOpr s by_) <|
  guardRange s (decide (v = 1)) <|
  let r := s.routeSlot ep
  guardValue s (r.st == .serving && s.o (okey 0x3800 2) != slotNo ep) <|
  Ans.ok (s.setRouteSlot ep { r with st := .draining, expired := false })

def execRetire (by_ : Caller) (slot : Bool) (v : BitVec 8) (s : State) : Host.Outcome State Fault Refusal :=
  (setRetire s by_ slot v.toNat).out by_

/-- A write of CLEAR: LOADING → EMPTY (R120). -/
def setClear (s : State) (by_ : Caller) (ep : Bool) (v : Nat) : Ans :=
  guardRole s (isOpr s by_) <|
  guardRange s (decide (v = 1)) <|
  let r := s.routeSlot ep
  guardValue s (r.st == .loading) <|
  Ans.ok (s.setRouteSlot ep { r with st := .empty, entries := [], ilist := [] })

def execClear (by_ : Caller) (slot : Bool) (v : BitVec 8) (s : State) : Host.Outcome State Fault Refusal :=
  (setClear s by_ slot v.toNat).out by_

/-- A drained slot enters EMPTY and its entries and lists become invalid (R121). -/
def slotEmpty (s : State) (ep : Bool) : State :=
  let r := s.routeSlot ep
  raise (s.setRouteSlot ep { r with st := .empty, entries := [], ilist := [], expired := false }) 0x0202 deviceWide
    [(1, slotNo ep), (4, r.rgen.toNat)]

/-- The drain timer expires: EMPTY at once when INFLIGHT is 0, else DRAIN_EXTENDED once (R121). -/
def execDrainTimerExpire (slot : Bool) (s : State) : Host.Outcome State Fault Refusal :=
  .next (let r := s.routeSlot slot
    if r.st = .draining ∧ ¬ r.expired then
      if inflight s slot = 0 then slotEmpty s slot
      else raise (s.setRouteSlot slot { r with expired := true }) 0x0204 deviceWide
        [(1, slotNo slot), (4, inflight s slot)]
    else s)

/-- INFLIGHT has reached 0 after the timer expired (R121). -/
def execSlotDrained (slot : Bool) (s : State) : Host.Outcome State Fault Refusal :=
  .next (let r := s.routeSlot slot
    if r.st = .draining ∧ r.expired ∧ inflight s slot = 0 then slotEmpty s slot else s)

/-- A write of ORIG_EP: refused for a slot not in SERVING; applied to packets originated 1 µs later (R122, R123). -/
def setOrigEp (s : State) (by_ : Caller) (v : Nat) : Ans :=
  guardRole s (isOpr s by_) <|
  guardRange s (decide (v < 2)) <|
  guardValue s ((s.routeSlot (v == 1)).st == .serving) <|
  Ans.ok (holdAgents (({ s with epPrev := origEp s, epTime := s.time }).setO (okey 0x3800 2) v) 2 (routeDead (v == 1)))

def execOrigEp (by_ : Caller) (v : BitVec 8) (s : State) : Host.Outcome State Fault Refusal := (setOrigEp s by_ v.toNat).out by_

/-! ### Notices (R124, R463) -/

/-- ACTIVE fabric ports whose peer role is 0 or 2 (R124). -/
def noticePorts (s : State) : List Nat :=
  (List.range 128).filter fun p => (s.port p).st == .active && (s.port p).peerRole != 1

/-- The header of a C0 request the Scribe originates (R70, R123); its OPID is a running count. DESIGN CHOICE
(notes/assumptions/8.md). -/
def scribeHdr (s : State) (op : BitVec 8) (dst : Fid) (part : Nat) (n : Nat) : Hdr :=
  { (default : Hdr) with ver := 1, cls := 0, ep := origEp s, op := op, dst := dst, src := devFid s,
                         part := BitVec.ofNat 5 part, tag := freeTag s n, opid := BitVec.ofNat 40 n, flg := flagLast }

/-- Sends one notice to a port's peer (R124, R463). -/
def sendNotice (kind : Nat) (payload : List Byte) (s : State) (p : Nat) : State :=
  let n := s.nextSerial
  let f := (s.port p).peerFid
  let h := scribeHdr s Op.epoch f 0 n.1
  let s := { n.2 with notices := n.2.notices ++ [{ port := ⟨p % 128, by omega⟩, fid := f, tag := h.tag, opid := h.opid, kind := kind }] }
  originate s ingScribe .unit (mkRequest h payload)

/-- A write of EPOCH_NOTIFY (R124): NOTIFY_PENDING and NOTIFY_FAILED count its notices; those of an earlier write stay out. -/
def setEpochNotify (s : State) (by_ : Caller) (rgen : BitVec 32) : Ans :=
  guardRole s (isOpr s by_) <|
  let payload := leBytes 16 (s.o (okey 0x3800 2) * 2 ^ 8 + rgen.toNat * 2 ^ 32)
  let s := ({ s with notices := s.notices.map fun (x : Notice) => if x.kind = 0 then { x with latest := false } else x }).setC
    (okey 0x3800 0xA) 0
  Ans.ok ((noticePorts s).foldl (sendNotice 0 payload) s)

def execEpochNotify (by_ : Caller) (rgen : BitVec 32) (s : State) : Host.Outcome State Fault Refusal :=
  (setEpochNotify s by_ rgen).out by_

/-- A notice is counted as failed (R124). -/
def noticeFailed (s : State) (x : Notice) (completed : Bool) (status : Nat) : State :=
  let s := { s with notices := s.notices.filter fun y => y != x }
  if x.kind = 0 then
    raise (if x.latest then s.bump (okey 0x3800 0xA) 1 else s) 0x020B deviceWide
      [(1, x.port.val), (4, x.fid.toNat), (1, b2n completed), (1, status)]
  else s

/-- A notice completes at its sender (R124). -/
def noticeCompleted (s : State) (x : Notice) (status : BitVec 8) : State :=
  if status = St.ok then { s with notices := s.notices.filter fun y => y != x } else noticeFailed s x true status.toNat

/-- A notice has not completed 100 µs after being sent; its late completion is discarded (R124). -/
def execEpochNoticeTimeout (p : Port) (s : State) : Host.Outcome State Fault Refusal :=
  .next (match s.notices.find? fun x => x.port == p && x.kind == 0 with
    | some x =>
      noticeFailed (dropJournal s { src := devFid s, part := 0, tag := x.tag, opid := x.opid }) x false 0
    | none => s)

/-! ### Ligatures (R126, R131, R133) -/

/-- A ligature entry with its reserved bits [248:128] zero (R9, R126). -/
def canonLig (e : BitVec 256) : BitVec 256 := BitVec.ofNat 256 (e.toNat / 2 ^ 249 * 2 ^ 249 + e.toNat % 2 ^ 128)

/-- One LIG_WRITE record. -/
def writeLig (s : State) (r : BitVec 32 × BitVec 256) : Bool × State :=
  if r.1.toNat < 4096 then (true, { s with ligs := Sparse.set 0 s.ligs r.1.toNat (canonLig r.2) }) else (false, s)

def setLigs (s : State) (by_ : Caller) (recs : List (BitVec 32 × BitVec 256)) : Ans :=
  guardRole s (isOpr s by_) (writeRecords writeLig s recs)

def execLigWrite (by_ : Caller) (recs : List (BitVec 32 × BitVec 256)) (s : State) : Host.Outcome State Fault Refusal :=
  (setLigs s by_ recs).out by_

/-- LIG_TIMEOUT has passed for a record: it closes without the branches that have not reported (R131). -/
def execLigRecordTimeout (k : ReqKey) (s : State) : Host.Outcome State Fault Refusal :=
  .next (match findLig s k with
    | some r =>
      closeLig (raise s 0x020A (ligOwner (ligEntry s r.lig.toNat)) [(2, r.lig.toNat), (2, r.open_.length)]) r
    | none => s)

/-! ### The spine (R102, R105, R128, R139) -/

/-- The oldest packet of a class that waits at a source tile for an egress tile. -/
def spineHead (s : State) (src dst c : Nat) : Option SpineItem :=
  s.spine.find? fun x => x.src.val == src && x.dst.val == dst && x.held.pkt.hdr.cls.toNat == c

/-- The egress tile can hold the packet whole (R102, R105). -/
def spineFits (s : State) (x : SpineItem) : Bool := decide (x.held.len ≤ freeSpace s x.dst.val 8 (vcOf x.held.pkt.hdr))

/-- Source tiles that have a packet of a class ready to cross to an egress tile. -/
def spineSources (s : State) (dst c : Nat) : List Nat :=
  (List.range 16).filter fun t => match spineHead s t dst c with | some x => spineFits s x | none => false

/-- The class the spine serves next: C0, C1, C2 strictly, then C3 to C7 in turn (R139). -/
def spineClass (last : Nat) (present : Nat → Bool) : Option Nat :=
  match [0, 1, 2].find? present with
  | some c => some c
  | none => ((List.range 5).map fun i => 3 + (last + 1 + i + 2) % 5).find? present

/-- The next tile in turn after `last`. -/
def nextInTurn (last : Nat) (ts : List Nat) : Option Nat := ((List.range 16).map fun i => (last + 1 + i) % 16).find? fun t => t ∈ ts

/-- Where the source tile last served for an egress tile and class is held, as its number plus 8 modulo 16: TILE_0 comes first. -/
def spineKey (dst c : Nat) : Nat := 16 + 8 * dst + c

/-- The packet the spine serves next toward an egress tile, with its class: by class, then by source tile in turn (R139). -/
def spineNext (s : State) (dst : Nat) : Option (Nat × SpineItem) :=
  match spineClass (Sparse.get 7 s.spinePtr dst) fun c => !(spineSources s dst c).isEmpty with
  | none => none
  | some c =>
    match nextInTurn (Sparse.get 7 s.spinePtr (spineKey dst c) + 8) (spineSources s dst c) with
    | none => none
    | some t => (spineHead s t dst c).map fun x => (c, x)

/-- A whole packet reaches its egress tile and is queued there. -/
def spineArrive (s : State) (x : SpineItem) : State :=
  let h := { x.held with tile := x.dst, input := 8, vc := vcOf x.held.pkt.hdr }
  if x.out = ligOut then copyToPorts s h x.ports else enqueueOut s x.out h

/-- The turns after a packet of a class has crossed (R139). -/
def spineTurn (m : Sparse Nat) (src dst c : Nat) : Sparse Nat :=
  Sparse.set 7 (if c < 3 then m else Sparse.set 7 m dst c) (spineKey dst c) ((src + 8) % 16)

/-- SPINE_TRANSFER: the packet that the spine serves next toward the egress tile moves, if it is the source tile's (R102, R105,
R139). -/
def execSpineTransfer (src dst : Tile) (s : State) : Host.Outcome State Fault Refusal :=
  .next (match spineNext s dst.val with
    | none => s
    | some (c, x) =>
      if x.src = src then
        updateAllXoff (spineArrive { s with spine := s.spine.erase x, spinePtr := spineTurn s.spinePtr src.val dst.val c } x)
      else s)

end Sys2Proof.Machine
end

