-- ==== Sys2Proof/Machine/Keys.lean ====
section
/-! DEFINITION. Link keys: the KEYX exchange (R400 to R406), the admitted peers, the PRT credential, and the rotation of a host
port's MACsec key (R408). -/

namespace Sys2Proof.Machine

/-! ### Messages on the port (R400, R401) -/

/-- Sends packets on one port as they stand: HOP 0, KS 0, without route lookup (R401). -/
def sendRaw (s : State) (port : Nat) (ps : List Packet) : State :=
  ps.foldl (fun s p => let n := s.nextSerial; enqueueOut n.2 port (mkHeld n.2 ingScribe n.1 p.hdr.wireLen .raw none p)) s

/-- A KEYX request of this device on a port: its key, its header and the state (R401). -/
def keyxHdr (s : State) (port part opx : Nat) : Hdr × State :=
  let n := s.nextSerial
  ({ scribeHdr n.2 Op.keyx (s.port port).peerFid part n.1 with aux := BitVec.ofNat 32 opx, flg := 0 }, n.2)

/-- A KX_ACTIVE (OPX 3) or KX_RETIRE (OPX 4) for a slot (R400). -/
def sendSlotNote (s : State) (port part slot opx : Nat) : State :=
  let x := keyxHdr s port part opx
  sendRaw { x.2 with rawOut := x.2.rawOut ++ [hdrKey x.1] } port (mkRequest x.1 (leBytes 16 slot))

/-- Completes a KEYX request on its port, to PEER_FID (R401); during removal nothing but KX_RETIRE leaves (R411). -/
def answerKeyx (s : State) (port : Nat) (h : Hdr) (st : BitVec 8) : State :=
  if removing s h.part.toNat then s
  else
  let p := mkCmpl s h st 0 0
  sendRaw s port [{ p with hdr := { p.hdr with dst := (s.port port).peerFid } }]

/-- SLOT of a KEYX payload. -/
def kxSlot (b : List Byte) : Nat := (b.getD 0 0).toNat
def kxPstate (b : List Byte) : Nat := (b.getD 1 0).toNat
/-- The identity public key of a KX_INIT or KX_RESP payload. -/
def kxIdentity (b : List Byte) : List Byte := slice b 48 1952

def slotOk (n : Nat) : Bool := decide (1 ≤ n) && decide (n ≤ 3)

/-- PART, SRC and DST as a signature covers them (R400). -/
def kxBinding (h : Hdr) : List Byte := [h.part.setWidth 8] ++ beBytes 3 h.src.toNat ++ beBytes 3 h.dst.toNat

/-- The identity public key of this device (R394). -/
def idPub : List Byte := (List.range 1952).map (Config.dsaPub 0)
/-- A signature by the identity key. -/
def idSign (msg : List Byte) : List Byte := (List.range 3309).map (Config.dsaSign 0 msg)

/-- STATE code of a partition (R386). -/
def partCode (s : State) (p : Nat) : Nat :=
  match (s.part p).st with | .free => 0 | .open_ => 1 | .sealing => 2 | .sealed => 3 | .removing => 4

/-- The digest is among the partition's admitted peers. -/
def admitted (s : State) (p : Nat) (identity : List Byte) : Bool := (s.part p).peerAllow.contains (digest256 identity)

/-- The exchange this device has outstanding for a slot. -/
def findKx (s : State) (port part slot : Nat) : Option Kx :=
  s.kx.find? fun k => k.port.val == port && k.part.val == part && k.slot.toNat == slot

def dropKx (s : State) (port part slot : Nat) : State :=
  { s with kx := s.kx.filter fun k => !(k.port.val == port && k.part.val == part && k.slot.toNat == slot) }

/-- The slot of the highest load order on a port for a partition, and the next load order. -/
def nextOrder (s : State) (port part : Nat) : Nat := 1 + max (s.key port part 1).order (max (s.key port part 2).order (s.key port part 3).order)

/-! ### KX_INIT at the responder (R402, R403) -/

/-- Why a responder refuses a KX_INIT (R402). -/
def kxRefusal (s : State) (port : Nat) (m : Msg) : Option (BitVec 8) :=
  let p := m.hdr.part.toNat
  let b := m.body
  let slot := kxSlot b
  let st := (s.part p).st
  let listed := admitted s p (kxIdentity b)
  if b.length ≠ 6496 ∨ slotOk slot = false then some St.formatUnsupported
  else if st = .free ∨ (portOwner s port ≠ p ∧ portOwner s port ≠ 0) then some St.accessDenied
  else if !Config.dsaVerify (kxIdentity b) (slice b 0 3184 ++ kxBinding m.hdr) (slice b 3184 3309) then some St.accessDenied
  else if st = .sealed ∧ (listed = false ∨ ((s.port port).peerRole = 1 ∧ kxPstate b ≠ 3)) then some St.accessDenied
  else if st = .open_ ∧ (s.part p).peerAllow ≠ [] ∧ listed = false then some St.accessDenied
  else if st = .sealing then some St.busy
  else match findKx s port p slot with
    | some _ => if (devFid s).toNat < (s.port port).peerFid.toNat then some St.busy else none
    | none => if (s.key port p slot).st ≠ 0 then some St.busy else none

/-- Counts and reports a refusal (R402). -/
def kxRefused (s : State) (port : Nat) (m : Msg) (st : BitVec 8) : State :=
  let p := m.hdr.part.toNat
  raiseLimited (s.bump (okey 0x2004 3) 1) ms port 0x0808 p [(1, port), (1, p), (1, kxSlot m.body % 256), (1, st.toNat)]

/-- The 72 bytes both ends form (R403). -/
def kxSecret (ss : BitVec 256) (t : List Byte) (part slot : Nat) : List Byte :=
  shake 72 (ascii "SKOMIRL1" ++ bytes32 ss ++ t ++ [BitVec.ofNat 8 part, BitVec.ofNat 8 slot])

/-- Loads a slot: an initiator sends under the initiator-to-responder key (R403, R404). -/
def loadSlot (s : State) (port part slot : Nat) (initiator : Bool) (k : List Byte) : State :=
  let ik := BitVec.ofNat 256 (leAt k 0 32)
  let rk := BitVec.ofNat 256 (leAt k 32 32)
  let iss := BitVec.ofNat 32 (leNat (slice k 64 4).reverse)
  let rs := BitVec.ofNat 32 (leNat (slice k 68 4).reverse)
  s.setKey port part slot
    { st := 1, order := nextOrder s port part, txKey := if initiator then ik else rk, txSalt := if initiator then iss else rs,
      rxKey := if initiator then rk else ik, rxSalt := if initiator then rs else iss, txOn := initiator, kcnt := 0, rcnt := 0 }

/-- The responder's answer: it loads the slot, then sends KX_RESP (R400, R403). -/
def kxAccept (s : State) (port : Nat) (m : Msg) : State :=
  let p := m.hdr.part.toNat
  let slot := kxSlot m.body
  let ek := slice m.body 2000 1184
  let n := s.draw
  let c := n.2.draw
  let head := [BitVec.ofNat 8 slot, BitVec.ofNat 8 (partCode s p)] ++ List.replicate 14 0#8 ++ drbg n.1 32 ++ idPub ++
    (List.range 1088).map (Config.kemCipher ek c.1)
  let rh := { respHdr c.2 m.hdr Op.cmplData with dst := (s.port port).peerFid }
  let body := padTo 16 (head ++ idSign (head ++ kxBinding rh ++ shake 32 m.body))
  let t := shake 32 (m.body ++ body)
  let s := loadSlot (dropKx c.2 port p slot) port p slot false (kxSecret (Config.kemSecret ek c.1) t p slot)
  sendRaw s port ((mkCmplData s m.hdr 0 0 body).map fun q => { q with hdr := { q.hdr with dst := rh.dst } })

def kxInit (s : State) (port : Nat) (m : Msg) : State :=
  if removing s m.hdr.part.toNat then s
  else match kxRefusal s port m with
  | some st => answerKeyx (kxRefused s port m st) port m.hdr st
  | none => kxAccept s port m

def execKxInit (port : Port) (m : Msg) (s : State) : Host.Outcome State Fault Refusal :=
  .next (kxInit (takeDelivered s m) port.val m)

/-! ### KX_RESP at the initiator (R403, R404) -/

/-- A slot becomes active. -/
def keyEstablished (s : State) (port part slot : Nat) : State :=
  raise s 0x0809 part [(1, port), (1, part), (1, slot)]

/-- An exchange of this device ends without a key: the slot is EMPTY (R403). -/
def kxFailed (s : State) (k : Kx) : State := (dropKx s k.port.val k.part.val k.slot.toNat).setKey k.port.val k.part.val k.slot.toNat {}

/-- The responder's payload holds together: its length, its slot and its signature over the exchange (R400). -/
def kxRespOk (k : Kx) (m : Msg) : Bool :=
  let b := m.body
  b.length == 6400 && kxSlot b == k.slot.toNat &&
    Config.dsaVerify (kxIdentity b) (slice b 0 3088 ++ kxBinding m.hdr ++ shake 32 k.payload) (slice b 3088 3309)

/-- A KX_RESP: the initiator loads the slot, sends under it at once, and tells the responder by KX_ACTIVE. -/
def kxResp (s : State) (port : Nat) (m : Msg) : State :=
  match s.kx.find? fun k => k.port.val == port && k.tag == m.hdr.tag && k.opid == m.hdr.opid && k.part.val == m.hdr.part.toNat with
  | none => s
  | some k =>
    if removing s k.part.val then s
    else if kxRespOk k m then
      let p := k.part.val
      let slot := k.slot.toNat
      let ss := Config.kemDecap k.kem (slice m.body 2000 1088)
      let s := loadSlot (dropKx s port p slot) port p slot true (kxSecret ss (shake 32 (k.payload ++ m.body)) p slot)
      keyEstablished (sendSlotNote s port p slot 3) port p slot
    else kxFailed s k

def execKxResp (port : Port) (m : Msg) (s : State) : Host.Outcome State Fault Refusal :=
  .next (kxResp (takeDelivered s m) port.val m)

/-! ### KX_ACTIVE and KX_RETIRE (R404, R405) -/

/-- A KX_ACTIVE: the responder sends under the slot. -/
def kxActive (s : State) (port : Nat) (m : Msg) : State :=
  let p := m.hdr.part.toNat
  let slot := kxSlot m.body
  let k := s.key port p slot
  if removing s p then s
  else if m.body.length ≠ 16 ∨ slotOk slot = false then answerKeyx s port m.hdr St.formatUnsupported
  else if k.st ≠ 1 ∧ k.st ≠ 2 then answerKeyx s port m.hdr St.accessDenied
  else if k.txOn then answerKeyx s port m.hdr St.ok
  else answerKeyx (keyEstablished (s.setKey port p slot { k with txOn := true }) port p slot) port m.hdr St.ok

def execKxActive (port : Port) (m : Msg) (s : State) : Host.Outcome State Fault Refusal :=
  .next (kxActive (takeDelivered s m) port.val m)

/-- Transmission under a slot stops; the receive key stays for 100 µs (R405). -/
def stopSlot (s : State) (port part slot : Nat) : State :=
  let k := s.key port part slot
  if k.st = 1 ∨ k.st = 2 then s.setKey port part slot { k with st := 3, txOn := false } else s

def kxRetire (s : State) (port : Nat) (m : Msg) : State :=
  let slot := kxSlot m.body
  if m.body.length ≠ 16 ∨ slotOk slot = false then answerKeyx s port m.hdr St.formatUnsupported
  else answerKeyx (stopSlot s port m.hdr.part.toNat slot) port m.hdr St.ok

def execKxRetire (port : Port) (m : Msg) (s : State) : Host.Outcome State Fault Refusal :=
  .next (kxRetire (takeDelivered s m) port.val m)

/-! ### KEY_ESTABLISH, KEY_RETIRE and their timers (R403, R405, R406) -/

/-- The partition's keys are written by its PRT, and by OPR while it is OPEN (R406). -/
def keyWriter (s : State) (by_ : Caller) (p : Nat) : Bool :=
  isPrt by_ p || (isOpr s by_ && (s.part p).st != .sealed)

/-- The partition is OPEN or SEALED. -/
def partServes (s : State) (p : Nat) : Bool := (s.part p).st == .open_ || (s.part p).st == .sealed

/-- Starts an exchange: KX_INIT goes out on the port (R400, R406). -/
def startKx (s : State) (port part slot : Nat) : State :=
  let n := s.draw
  let k := n.2.draw
  let x := keyxHdr k.2 port part 1
  let head := [BitVec.ofNat 8 slot, BitVec.ofNat 8 (partCode s part)] ++ List.replicate 14 0#8 ++ drbg n.1 32 ++ idPub ++
    (List.range 1184).map (Config.kemPub k.1)
  let body := padTo 16 (head ++ idSign (head ++ kxBinding x.1))
  let e : Kx := { port := ⟨port % 128, by omega⟩, part := ⟨part % 32, by omega⟩, slot := BitVec.ofNat 2 slot, payload := body, kem := k.1,
                  tag := x.1.tag, opid := x.1.opid }
  let s := ({ x.2 with kx := x.2.kx ++ [e] }).setKey port part slot { st := 4 }
  sendRaw s port (mkRequest x.1 body)

/-- KEY_ESTABLISH (0x2002.03). -/
def setKeyEstablish (s : State) (by_ : Caller) (p v : Nat) : Ans :=
  let port := bits v 7 0
  let slot := bits v 9 8
  guardRole s (keyWriter s by_ p) <|
  guardRange s (portOk s port && slotOk slot) <|
  guardValue s (partServes s p && (portOwner s port == p || portOwner s port == 0) && (s.key port p slot).st == 0)
    (Ans.ok (startKx s port p slot))

def execKeyEstablish (by_ : Caller) (p : Part) (v : BitVec 16) (s : State) : Host.Outcome State Fault Refusal :=
  (setKeyEstablish s by_ p.val v.toNat).out by_

/-- KEY_RETIRE (0x2002.04). -/
def setKeyRetire (s : State) (by_ : Caller) (p v : Nat) : Ans :=
  let port := bits v 7 0
  let slot := bits v 9 8
  guardRole s (keyWriter s by_ p) <|
  guardRange s (portOk s port && slotOk slot) <|
  let k := s.key port p slot
  guardValue s (k.st == 1 || k.st == 2) (Ans.ok (sendSlotNote (stopSlot s port p slot) port p slot 4))

def execKeyRetire (by_ : Caller) (p : Part) (v : BitVec 16) (s : State) : Host.Outcome State Fault Refusal :=
  (setKeyRetire s by_ p.val v.toNat).out by_

/-- 100 µs after retirement the receive key is erased and the slot is EMPTY (R405). -/
def execReceiveKeyErase (port : Port) (p : Part) (slot : KeySlot) (s : State) : Host.Outcome State Fault Refusal :=
  .next (if (s.key port.val p.val slot.toNat).st = 3 then
    raise (s.setKey port.val p.val slot.toNat {}) 0x080A p.val [(1, port.val), (1, p.val), (1, slot.toNat)]
  else s)

/-- An exchange not finished within 10 ms leaves the slot EMPTY (R403). -/
def execKeyxTimeout (port : Port) (p : Part) (slot : KeySlot) (s : State) : Host.Outcome State Fault Refusal :=
  let k := s.key port.val p.val slot.toNat
  .next (if k.st = 4 ∨ ((k.st = 1 ∨ k.st = 2) ∧ k.txOn = false) then
    (dropKx s port.val p.val slot.toNat).setKey port.val p.val slot.toNat {}
  else s)

/-! ### PEER_ALLOW, PRT_CRED, HOST_REKEY (R402, R406, R408, R492) -/

/-- PEER_ALLOW (0x2002.05). -/
def setPeerAllow (s : State) (by_ : Caller) (p : Nat) (ds : List (BitVec 256)) : Ans :=
  guardRole s (keyWriter s by_ p) <|
  if 64 < ds.length then Ans.no s Ds.wrongLength else
  guardValue s (partServes s p) (Ans.ok (s.modPart p fun v => { v with peerAllow := ds }))

def execPeerAllow (by_ : Caller) (p : Part) (digests : List (BitVec 256)) (s : State) : Host.Outcome State Fault Refusal :=
  (setPeerAllow s by_ p.val digests).out by_

/-- The PRT credential of an OPEN partition, written by OPR (R391, R492). -/
def setPrtCred (s : State) (by_ : Caller) (p : Nat) (cred : BitVec 256) : Ans :=
  guardRole s (oprOver s by_ p) <|
  guardValue s ((s.part p).st == .open_) (Ans.ok (s.modPart p fun v => { v with cred := some cred }))

def execPrtCred (by_ : Caller) (p : Part) (cred : BitVec 256) (s : State) : Host.Outcome State Fault Refusal :=
  (setPrtCred s by_ p.val cred).out by_

/-- The next SAK and salt (R408). -/
def nextSak (key : BitVec 256) (n : Nat) : List Byte := shake 44 (ascii "SKOMIRH1" ++ bytes32 key ++ leBytes 4 n)

/-- HOST_REKEY: the new association is installed for receive at once (R408). While two are installed it is refused. -/
def setHostRekey (s : State) (by_ : Caller) (p v : Nat) : Ans :=
  guardRole s (keyWriter s by_ p) <|
  guardRange s (v == 128 || v == 129) <|
  let h := v - 128
  let x := s.mac h
  guardValue s (hostOwner s h == p && x.on && x.oldKey.isNone) <|
  let k := nextSak x.key (x.sakNo + 1).toNat
  Ans.ok (s.setMac h { x with sakNo := x.sakNo + 1, key := BitVec.ofNat 256 (leAt k 0 32), salt := BitVec.ofNat 96 (leAt k 32 12),
                              rxAn := x.rxAn + 1, oldKey := some (x.key, x.salt), oldHi := x.rxHi, rxHi := 0 })

def execHostRekey (by_ : Caller) (p : Part) (v : BitVec 8) (s : State) : Host.Outcome State Fault Refusal :=
  (setHostRekey s by_ p.val v.toNat).out by_

end Sys2Proof.Machine
end

