-- ==== Sys2Proof/Machine/Queues.lean ====
section
/-! DEFINITION. Service of the outputs, refill boundaries, meters and drop profiles (04_queues_scheduling.md). -/

namespace Sys2Proof.Machine

/-! ### Service order (R140 to R142) -/

/-- eligible(out, c) (R141). -/
def outEligible (s : State) (o c : Nat) : Bool :=
  match queueHead s o c with | some _ => tokensOk s o c | none => false

/-- LEN of the head of a class (R142). -/
def headLen (s : State) (o c : Nat) : Nat := match queueHead s o c with | some h => egressLen s o h | none => 0

/-- RING: the non-strict classes, ascending (R141). -/
def dwrrRing (s : State) (o : Nat) : List Nat := (List.range 8).filter fun c => !isStrict s o c

/-- QUANTUM[c] (R142). -/
def quantum (s : State) (o c : Nat) : Nat := qosVal s (outObj o 0 (0x10 + c)) * 512

/-- The loop of dwrr (R141): deficits, fresh marks and pointer in `st`; `n` bounds the turns. -/
def dwrrLoop (s : State) (o : Nat) (ring : List Nat) : Nat → OutSt → Option Nat × OutSt
  | 0, st => (none, st)
  | n + 1, st =>
    let c := ring.getD (st.ptr % ring.length) 0
    let el := outEligible s o c
    let st := if el && st.fresh.getD c true then
        { st with deficit := st.deficit.set c (st.deficit.getD c 0 + quantum s o c), fresh := st.fresh.set c false }
      else st
    if el && decide (headLen s o c ≤ st.deficit.getD c 0) then
      (some c, { st with deficit := st.deficit.set c (st.deficit.getD c 0 - headLen s o c) })
    else
      let st := { st with fresh := st.fresh.set c true, ptr := (st.ptr + 1) % ring.length }
      let st := if st.q.any (fun h => h.pkt.hdr.cls.toNat == c) then st else { st with deficit := st.deficit.set c 0 }
      dwrrLoop s o ring n st

/-- dwrr(out) (R141): a quantum is at least 512 bytes and a packet at most 2,100, so 64 turns of at most 8 suffice. -/
def dwrr (s : State) (o : Nat) : Option Nat × OutSt :=
  let ring := dwrrRing s o
  if ring.any (outEligible s o) then dwrrLoop s o ring 64 (s.outSt o) else (none, s.outSt o)

/-- select(out) (R141): the class, and the scheduler's state after. -/
def selectClass (s : State) (o : Nat) : Option Nat × OutSt :=
  match (List.range 8).find? fun c => isStrict s o c && outEligible s o c with
  | some c => (some c, s.outSt o)
  | none => dwrr s o

/-- Starts the head of the chosen class. -/
def startClassHead (s : State) (o c : Nat) (st : OutSt) (h : Held) : State :=
  let s' := s.setOut o { st with q := dequeue st.q h.age }
  startPacket (chargeTokens s' o c (egressLen s o h)) o h

/-- An output may start a new packet (R57, R65, R141). -/
def outputSelect (s : State) (o : Nat) : State :=
  match selectClass s o with
  | (none, _) => s
  | (some c, st) =>
    match queueHead s o c with
    | none => s
    | some h =>
      if o < 128 ∧ ¬ replayAdmits (s.port o) (egressLen s o h) then s
      else updateAllXoff (startClassHead s o c st h)

/-- Retransmissions go before any packet the scheduler selects (R143); one held by XOFF holds those behind it (R55, R65). -/
def resendHead (s : State) (p : Nat) (r : TxRec) (rs : List TxRec) : State :=
  if vcClear s p (vcOf r.pkt.hdr) then
    ((s.modPort p fun st => { st with resend := rs }).bump (portObj p 2 4) 1).emit (.packet ⟨p % 128, by omega⟩ r.lseq r.pkt)
  else s

def execOutputSelect (o : Output) (s : State) : Host.Outcome State Fault Refusal :=
  .next (if o.val < 128 then
    if (s.port o.val).st = .active then
      match (s.port o.val).resend with
      | r :: rs => resendHead s o.val r rs
      | [] => outputSelect s o.val
    else s
  else if (s.hostP (o.val - 128)).up then outputSelect s o.val else s)

/-- A non-strict class has stayed eligible for DWRR_STARVE_TIME without sending (R144). -/
def execDwrrStarveTimeout (o : Output) (c : BitVec 3) (s : State) : Host.Outcome State Fault Refusal :=
  .next (if !isStrict s o.val c.toNat && outEligible s o.val c.toNat then
    raiseLimited s (10 * ms) o.val 0x020D (outOwner s o.val) [(1, o.val), (1, c.toNat)]
  else s)

/-! ### Refill boundaries (R146, R148, R152, R154, R157) -/

/-- One bucket at a boundary: RATE 0 holds it at its ceiling; otherwise RATE is added and the ceiling limits (R146, R148). -/
def refillBucket (rate burst : Nat) (t : Int) : Int :=
  let ceil : Int := max burst (rate + 2100)
  if rate = 0 then ceil else min (t + rate) ceil

/-- avg ← avg + (q − avg) / 2^W in 1/1,024 cells, exact and floored (R157). -/
def redAverage (avg q w : Nat) : Nat := (((avg : Int) * 2 ^ w + ((q : Int) * 1024 - avg)).fdiv (2 ^ w)).toNat

/-- An output at a boundary. -/
def refillOutput (s : State) (o : Nat) : State :=
  let st := s.outSt o
  let t := (List.range 9).map fun b => refillBucket (bucketRate s o b) (bucketBurst s o b) (st.tokens.getD b 0)
  s.setOut o { st with tokens := t, avg := redAverage st.avg (queueCells s o 7) (qosVal s (outObj o 1 1)) }

/-- Fields of a meter record (R150). -/
def meterValid (w : BitVec 192) : Bool := bit w.toNat 191
def meterOwner (w : BitVec 192) : Nat := bits w.toNat 190 186
def meterCir (w : BitVec 192) : Nat := bits w.toNat 159 128
def meterPir (w : BitVec 192) : Nat := bits w.toNat 127 96
def meterCbs (w : BitVec 192) : Nat := bits w.toNat 95 64
def meterPbs (w : BitVec 192) : Nat := bits w.toNat 63 32

/-- Ceilings of the peak and committed buckets (R152). -/
def peakCeiling (w : BitVec 192) : Nat := max (meterPbs w) (meterPir w + 2100)
def commitCeiling (w : BitVec 192) : Nat := max (meterCbs w) (meterCir w + 2100)

/-- A meter at a boundary: a staged record applies, then both buckets refill, whether or not the meter is in use (R146, R152, R155). -/
def refillMeter (v : MeterSt) : MeterSt :=
  let v := match v.staged with
    | none => v
    | some w =>
      if meterValid w ∧ ¬ meterValid v.word then
        { v with word := w, staged := none, tp := peakCeiling w, tc := commitCeiling w }
      else { v with word := w, staged := none, tp := min v.tp (peakCeiling w), tc := min v.tc (commitCeiling w) }
  { v with tp := min (v.tp + meterPir v.word) (peakCeiling v.word), tc := min (v.tc + meterCir v.word) (commitCeiling v.word) }

/-- The objects of outputs: 0x4000 to 0x4207. -/
def isOutputKey (k : Nat) : Bool := decide (0x4000 * 256 ≤ k) && decide (k < 0x4208 * 256)

/-- Notes a write of a shaper object: what it held before the timebase cycle of the write (R148). -/
def noteShaper (s : State) (o k : Nat) : State :=
  let st := s.outSt o
  let now := st.wrote.filter fun x => x.2.2 == s.timebase
  if now.any fun x => x.1 == k then s else s.setOut o { st with wrote := now ++ [(k, s.o k, s.timebase)] }

/-- The values that apply at a boundary: those written, but for shaper objects written in the boundary's own cycle (R148, R159, R161). -/
def boundaryValues (s : State) : Sparse Nat :=
  (s.outs.flatMap fun e => e.2.wrote).foldl (fun q x => if x.2.2 = s.timebase then Sparse.set (objDefault x.1) q x.1 x.2.1 else q)
    (s.obj.filter fun e => isOutputKey e.1)

/-- REFILL_BOUNDARY, every 1 µs: staged writes apply, buckets refill, averages move, holds end (R146 to R161). -/
def refill (s : State) : State :=
  let s := { s with qos := boundaryValues s }
  let s := (List.range 130).foldl refillOutput s
  let s := (s.meters.map (·.1)).foldl (fun s m => s.setMeter m (refillMeter (s.meter m))) s
  let s := { s with holds := s.holds.filter fun h => decide ((s.meter h.meter).tp < 2100) }
  updateAllXoff s

def execRefillBoundary (s : State) : Host.Outcome State Fault Refusal := .next (refill s)

/-! ### Configuration (R155, R159, R161, R162) -/

/-- The dictionary object as a U32 item: INDEX in [23:8], SUB in [7:0] (R598). -/
def qosRejected (s : State) (owner key : Nat) : State := raise s 0x020C owner [(1, 2), (4, key)]

/-- Who writes an output's objects: OPR, or the PRT of its owner, unless the output is disabled (R162, R163). -/
def mayWriteOutput (s : State) (by_ : Caller) (o : Nat) : Bool := outputOk s o && ownerWrites s by_ (outOwner s o)

/-- A write of STRICT_MASK (R161). -/
def setStrictMask (s : State) (by_ : Caller) (o v : Nat) : Ans :=
  guardRole s (mayWriteOutput s by_ o) <|
  if v % 2 = 1 ∧ ((List.range 8).filter (bit v)).length ≤ 3 then Ans.ok (s.setO (outObj o 0 1) v)
  else Ans.no (qosRejected s (outOwner s o) (outObj o 0 1)) Ds.outOfRange

def execStrictMask (by_ : Caller) (o : Output) (v : BitVec 8) (s : State) : Host.Outcome State Fault Refusal :=
  (setStrictMask s by_ o.val v.toNat).out by_

/-- Subindex of a field of a colour's profile (R163). -/
def profileSub (c : Colour) (f : ProfField) : Nat :=
  (match c with | .green => 3 | .yellow => 6 | .red => 9) + (match f with | .min => 0 | .max => 1 | .maxp => 2)

/-- A write of one field of a drop profile: MIN ≥ MAX is rejected (R159). -/
def setDropProfile (s : State) (by_ : Caller) (o : Nat) (c : Colour) (f : ProfField) (v : Nat) : Ans :=
  guardRole s (mayWriteOutput s by_ o) <|
  guardRange s (decide (v < 2 ^ 32) && (f != .maxp || decide (v < 65536))) <|
  let mn := if f = .min then v else s.o (outObj o 1 (profileSub c .min))
  let mx := if f = .max then v else s.o (outObj o 1 (profileSub c .max))
  let k := outObj o 1 (profileSub c f)
  if mx ≤ mn then Ans.no (qosRejected s (outOwner s o) k) Ds.valueRejected else Ans.ok (s.setO k v)

def execDropProfileWrite (by_ : Caller) (o : Output) (c : Colour) (f : ProfField) (v : BitVec 32) (s : State) :
    Host.Outcome State Fault Refusal := (setDropProfile s by_ o.val c f v.toNat).out by_

/-- A meter exists: it belongs to an enabled tile (R150, R164). -/
def meterExists (s : State) (m : Nat) : Bool := decide (m < 4096) && tileOk s (m / 256)

/-- A meter record with its reserved bits [185:160] and [31:0] zero (R9, R150). -/
def canonMeter (w : BitVec 192) : BitVec 192 :=
  BitVec.ofNat 192 (w.toNat / 2 ^ 186 * 2 ^ 186 + w.toNat % 2 ^ 160 / 2 ^ 32 * 2 ^ 32)

/-- One METER_WRITE record: staged for the next boundary, or rejected (R155, R162). A meter passes between partitions only while the
resources of both may be granted (R383, R386). -/
def writeMeter (by_ : Caller) (s : State) (r : BitVec 32 × BitVec 192) : Bool × State :=
  let m := r.1.toNat
  let w := canonMeter r.2
  let v := s.meter m
  let cur := meterOwner (v.staged.getD v.word)
  if meterExists s m ∧ meterCir w ≤ meterPir w ∧ meterPir w ≤ 100000 ∧ partConfigured s (meterOwner w) then
    let o := meterOwner w
    if (oprOver s by_ cur ∨ (isPrt by_ cur ∧ o = cur)) ∧ (o = cur ∨ (resourcesOpen s cur && resourcesOpen s o)) then (true, s.setMeter m { v with staged := some w })
    else (false, s)
  else (false, raise s 0x020C (if m < 4096 then cur else deviceWide) [(1, 1), (2, m)])

def setMeters (s : State) (by_ : Caller) (recs : List (BitVec 32 × BitVec 192)) : Ans :=
  guardRole s (isOpr s by_ || by_.role == .prt) (writeRecords (writeMeter by_) s recs)

def execMeterWrite (by_ : Caller) (recs : List (BitVec 32 × BitVec 192)) (s : State) : Host.Outcome State Fault Refusal :=
  (setMeters s by_ recs).out by_

end Sys2Proof.Machine
end

