-- ==== Sys2Proof/Machine/Tenancy.lean ====
section
/-! DEFINITION. Partitions: what they own (R382 to R385), CREATE, SEAL and its timeout (R386, R387, R398), and removal (R410 to
R412). -/

namespace Sys2Proof.Machine

/-! ### Configuration (R385) -/

/-- The object of a partition's configuration as a U32 item (R598). -/
def configItem (p sub : Nat) : Nat := okey (0x2001 + 0x80 * p) sub

/-- A configuration write that R385 rejects. -/
def rejectConfig (s : State) (p sub : Nat) : Ans :=
  Ans.no (raise s 0x0802 p [(1, p), (4, configItem p sub)]) Ds.valueRejected

/-- OPR writes a configuration while the partition is FREE or OPEN; a value that R385 rejects raises PART_CONFIG_REJECTED. -/
def configWrite (s : State) (by_ : Caller) (p sub : Nat) (ok : Bool) (rest : State) : Ans :=
  guardRole s (oprOver s by_ p) <|
  guardValue s (resourcesOpen s p) <|
  if ok then Ans.ok rest else rejectConfig s p sub

/-- Units, below `n`, whose bit differs between two sets. -/
def movingUnits (n old new : Nat) : List Nat := (List.range n).filter fun i => bit old i != bit new i

/-- A set of units may be granted: each exists, none is another partition's, and each that changes hands is idle (R385). -/
def grantOk (p n new old : Nat) (present : Nat → Bool) (owner : Nat → Nat) (idle : Nat → Bool) : Bool :=
  p != 0 && decide (new < 2 ^ n) && ((List.range n).all fun i => !bit new i || (present i && (owner i == p || owner i == 0))) &&
    (movingUnits n old new).all idle

/-- PORTS (0x2001.01). -/
def setPorts (s : State) (by_ : Caller) (p v : Nat) : Ans :=
  configWrite s by_ p 1
    (grantOk p 128 v (s.part p).ports.toNat (portOk s) (portOwner s) fun i => (s.port i).st == .disabled)
    (s.modPart p fun x => { x with ports := BitVec.ofNat 128 v })

/-- HOSTS (0x2001.02). -/
def setHosts (s : State) (by_ : Caller) (p v : Nat) : Ans :=
  guardRole s (oprOver s by_ p) <|
  guardRange s (decide (v < 4)) <|
  configWrite s by_ p 2
    (grantOk p 2 v (s.part p).hosts.toNat (fun _ => true) (hostOwner s) fun i => s.o (hostObj i 0 1) == 0)
    (s.modPart p fun x => { x with hosts := BitVec.ofNat 2 v })

/-- A quill serves no table, holds no context that is not FREE and no T0 unit (R385). -/
def quillIdle (s : State) (q : Nat) : Bool :=
  !(s.tables.any fun e => e.2.st != .free && tSquill e.2.word == q) &&
    !(s.ctxs.any fun e => ctxQuill e.1 == q && e.2.st != .free) && (unitsUsed s q).isEmpty

/-- Zeroes the store of a quill. -/
def zeroStore (s : State) (q : Nat) : State := zeroPhys s (physT0 q 0) (2 ^ 23)
/-- Zeroes a slice. -/
def zeroSlice (s : State) (d : Nat) : State := zeroPhys s (physSlice d) (2 ^ 26)

/-- QUILLS (0x2001.03): a quill store that changes hands is zeroed (R385). -/
def setQuills (s : State) (by_ : Caller) (p v : Nat) : Ans :=
  let old := (s.part p).quills.toNat
  configWrite s by_ p 3 (grantOk p 64 v old (quillOk s) (quillOwner s) (quillIdle s))
    ((movingUnits 64 old v).foldl zeroStore (s.modPart p fun x => { x with quills := BitVec.ofNat 64 v }))

/-- The partition other than 0 that holds a slice, else 0. -/
def sliceOwner (s : State) (d : Nat) : Nat :=
  ((List.range 32).find? fun p => p != 0 && (s.part p).slices.any fun b => b.toNat == d).getD 0

/-- Device slices that a map names. -/
def mapSlices (m : List Byte) : List Nat := (m.map (·.toNat)).filter (· != 0xFF)

/-- Flat ranges in a partition's own SPACE 0x00 that its tables, objects and coherence windows name (R385). -/
def namedRanges (s : State) (p : Nat) : List (Nat × Nat) :=
  (s.tables.flatMap fun e =>
    if e.2.st != .free && tableOwner e.2.word == p then
      (e.2.word :: e.2.staged.toList).flatMap fun w => [(tDirbase w, dirExtent w), (tDefaddr w, 4 * tRowlen w)]
    else []) ++ objectRanges s p ++
  (List.range 32).flatMap fun d =>
    if domainPart s d == p then (windowsOf s d).filterMap fun w => if w.1 = 0 then some (w.2 * 2 ^ 26, 2 ^ 26) else none else []

/-- Partition slice `n` of a partition is named by a table, an object home or a coherence window. -/
def sliceNamed (s : State) (p n : Nat) : Bool :=
  (namedRanges s p).any fun r => spaceOf r.1 == 0 && overlap r.1 (max r.2 1) (n * 2 ^ 26) (2 ^ 26)

/-- A device slice may be named by a map: it exists and serves no directory, queue, spill or basis (R385). -/
def sliceGrantable (s : State) (d : Nat) : Bool := sliceExists s d && !(d ∈ dirSliceList s) && !isWorkSlice s d

/-- A slice of a tile with a retired Inkwell channel (R439). -/
def sliceHurt (s : State) (d : Nat) : Bool := s.dumap.inkch.toNat / 2 ^ (4 * (d / 8)) % 16 != 0

/-- SLICE_MAP passes R385 and R439. A slice that stays where it was in the map keeps serving what names it: DEDUCED. -/
def sliceMapOk (s : State) (p : Nat) (m : List Byte) : Bool :=
  let new := mapSlices m
  let old := (s.part p).slices
  m.length == 128 && decide new.Nodup && new.all (sliceGrantable s) &&
    (new.all fun d => d ∈ mapSlices old || !sliceHurt s d) && (new.all fun d => sliceOwner s d == p || sliceOwner s d == 0) &&
    (p == 0 || new.all fun d => !(d ∈ mapSlices (s.part 0).slices)) &&
    (List.range 128).all fun n => old.getD n 0xFF == m.getD n 0xFF || old.getD n 0xFF == 0xFF#8 || !sliceNamed s p n

/-- SLICE_MAP (0x2001.04): a slice that changes hands is zeroed. Partition 0's own map moves none between partitions. -/
def setSliceMap (s : State) (by_ : Caller) (p : Nat) (m : List Byte) : Ans :=
  let old := mapSlices (s.part p).slices
  let new := mapSlices m
  let moved := if p = 0 then [] else old.filter (fun d => !(d ∈ new)) ++ new.filter fun d => !(d ∈ old)
  configWrite s by_ p 4 (sliceMapOk s p m) (moved.foldl zeroSlice (s.modPart p fun x => { x with slices := m }))

/-- HFID_0 and HFID_1 (0x2001.05, .06). -/
def setHfid (s : State) (by_ : Caller) (p h v : Nat) : Ans :=
  guardRole s (oprOver s by_ p) <|
  guardRange s (decide (v < 2 ^ 24)) <|
  configWrite s by_ p (5 + h) (v != 0 && v != (devFid s).toNat) (s.setO (partObj p 1 (5 + h)) v)

def execPorts (by_ : Caller) (p : Part) (v : BitVec 128) (s : State) : Host.Outcome State Fault Refusal :=
  (setPorts s by_ p.val v.toNat).out by_

def execHosts (by_ : Caller) (p : Part) (v : BitVec 8) (s : State) : Host.Outcome State Fault Refusal :=
  (setHosts s by_ p.val v.toNat).out by_

def execQuills (by_ : Caller) (p : Part) (v : BitVec 64) (s : State) : Host.Outcome State Fault Refusal :=
  (setQuills s by_ p.val v.toNat).out by_

def execSliceMap (by_ : Caller) (p : Part) (v : Vector Byte 128) (s : State) : Host.Outcome State Fault Refusal :=
  (setSliceMap s by_ p.val v.toList).out by_

def execHfid (by_ : Caller) (p : Part) (h : HostPort) (v : BitVec 32) (s : State) : Host.Outcome State Fault Refusal :=
  (setHfid s by_ p.val h.val v.toNat).out by_

/-! ### CREATE and SEAL (R386, R387, R398) -/

/-- CREATE (CONTROL 1): refused while the zeroing of R413 is under way. -/
def setCreate (s : State) (by_ : Caller) (p : Nat) : Ans :=
  guardRole s (isOpr s by_) <|
  guardValue s (p != 0 && (s.part p).st == .free && !s.power.zeroing) <|
  let n := s.draw
  Ans.ok (raise (n.2.modPart p fun v => { v with st := .open_, attKey := some n.1, reports := 0 }) 0x0801 p [(1, p)])

def execCreate (by_ : Caller) (p : Part) (s : State) : Host.Outcome State Fault Refusal := (setCreate s by_ p.val).out by_

/-- SEAL (CONTROL 2): the partition freezes and gets a fresh key pair; VND sessions end (R387, R391, R398 step 1). -/
def setSeal (s : State) (by_ : Caller) (p : Nat) : Ans :=
  guardRole s (isOpr s by_) <|
  guardValue s (p != 0 && (s.part p).st == .open_) <|
  let n := s.draw
  let s := n.2.modPart p fun v => { v with st := .sealing, freshKey := some n.1, sealAt := some n.2.time }
  Ans.ok { s with sessions := s.sessions.filter fun v => v.role != .vnd }

def execSeal (by_ : Caller) (p : Part) (s : State) : Host.Outcome State Fault Refusal := (setSeal s by_ p.val).out by_

/-- SEAL_TIMEOUT: no AT_FINISH has been accepted in time; the partition is OPEN again under its previous key pair (R398). -/
def execSealTimeout (p : Part) (s : State) : Host.Outcome State Fault Refusal :=
  .next (let v := s.part p.val
    if v.st = .sealing ∧ v.finishing.isNone then
      raise (s.setPart p.val { v with st := .open_, freshKey := none, sealAt := none }) 0x0804 p.val [(1, p.val)]
    else s)

/-! ### Ending work (R398 step 1, R410 steps 1 to 5) -/

/-- Completes a request whose work ends without effect. -/
def endMsg (st : BitVec 8) (s : State) (m : Msg) : State :=
  if m.hdr.op ∈ onceOps then finishOnce s ingMemory m.hdr st 0 0 none
  else if hasCmpl m.hdr.op then complete s ingMemory m.hdr st 0 0 else s

/-- Memory and coherence requests under way, and messages not yet served, that satisfy `mine`. -/
def memMsgs (s : State) (mine : Msg → Bool) : List Msg :=
  (s.delivered.map (·.msg) ++ s.transitWait.map (·.job.msg) ++ s.reissues.map (·.orig) ++ s.cohWait.map (·.msg) ++
    ((s.txns.filter (·.place.isNone)).map (·.req)).eraseDups ++ s.waitPubs.map (·.req)).filter mine

/-- Ends them with a status. -/
def endMemory (s : State) (mine : Msg → Bool) (st : BitVec 8) : State :=
  let ms := memMsgs s mine
  let s := { s with
    delivered := s.delivered.filter fun x => !mine x.msg
    transitWait := s.transitWait.filter fun x => !mine x.job.msg
    reissues := s.reissues.filter fun x => !mine x.orig
    cohWait := s.cohWait.filter fun x => !mine x.msg
    txns := s.txns.filter fun x => !mine x.req
    waitPubs := s.waitPubs.filter fun x => !mine x.req }
  wake (ms.foldl (endMsg st) s)

/-- A run goes on without the requests in `keys`. -/
def cutRun (keys : List ReqKey) (q : Nat) (s : State) (r : Run) : State :=
  if r.stage = .writing then
    let reqs := r.reqs.filter fun g => !(keys.contains g.key)
    if reqs.isEmpty then afterPass (dropRun s q r.id) q r.table else modRun s q { r with reqs := reqs }
  else restartRun s q r keys

/-- Ends the requests of a quill that satisfy `mine`. -/
def endQuillWork (mine : GReq → Bool) (st : BitVec 8) (s : State) (q : Nat) : State :=
  let v := s.quill q
  let queued := (v.jobs.flatMap (·.reqs) ++ v.wins.flatMap (·.reqs)).filter mine
  let running := (v.runs.flatMap (·.reqs)).filter mine
  let others (gs : List GReq) : List GReq := gs.filter fun g => !mine g
  if queued.isEmpty && running.isEmpty then s
  else
    let s := s.setQuill q { v with
      jobs := (v.jobs.map fun j => { j with reqs := others j.reqs }).filter fun j => !j.reqs.isEmpty
      wins := (v.wins.map fun w => { w with reqs := others w.reqs }).filter fun w => !w.reqs.isEmpty }
    let s := (queued ++ running).foldl (fun s g => gFail s (ingQuill q) g.table g.msg st (quillFlag s q) 0) s
    let s := (v.runs.filter fun r => r.reqs.any mine).foldl (cutRun (running.map GReq.key) q) s
    kickQuill (recheckWait s q) q

def endGather (s : State) (mine : GReq → Bool) (st : BitVec 8) : State :=
  (s.quills.map (·.1)).foldl (endQuillWork mine st) s

/-- Ends a partition's BUILD, LOAD, ENCODE and EXPAND work. -/
def endEngines (s : State) (p : Nat) (st : BitVec 8) : State :=
  let mine (m : Msg) : Bool := m.hdr.part.toNat == p
  let s := endEncodes (failJobs s mine st) mine st
  let rs := s.expResps.filter fun r => mine r.msg
  let bs := (s.expanders.flatMap (·.2)).filter fun b => b.part.val == p
  let s := { s with expResps := s.expResps.filter fun r => !mine r.msg
                    expanders := Sparse.mapVals [] (fun l => l.filter fun b => b.part.val != p) s.expanders }
  let s := bs.foldl (fun s b => match b.entry with | some i => releaseRef s b.slot i | none => s) s
  rs.foldl (fun s r => endMsg st s r.msg) s

/-- Ends those of a partition's moves that `which` names: the objects stay SPLIT (R398, R410 step 1). -/
def endMoves (s : State) (p : Nat) (which : Move → Bool) (st : BitVec 8) : State :=
  let mine (m : Move) : Bool := (s.object m.obj).owner.val == p && which m
  let ms := (s.moves ++ s.moveQ).filter mine
  let s := { s with moves := s.moves.filter fun m => !mine m, moveQ := s.moveQ.filter fun m => !mine m }
  ms.foldl (fun s m =>
    let o := s.object m.obj
    serveWaiting (completeMove (s.setObject m.obj { o with st := .split, sched := none }) m st 0) m.obj
      (tierOfPlace s p (piecePlace o m.piece))) s

/-- Ends a partition's OPENs that wait for their mirror: the context is freed. -/
def endOpeners (s : State) (p : Nat) (st : BitVec 8) : State :=
  (s.ctxs.filter fun e => e.2.part.val == p).foldl (fun s e =>
    match e.2.opener with
    | some m => freeCtx (abortMirror (endColl s m e.1 st 0) e.1) e.1
    | none => s) s

/-- Completes the partition's requests that other devices are serving. -/
def endForwarded (s : State) (p : Nat) (st : BitVec 8) : State :=
  (s.tags.filter fun t => t.key.part.toNat == p && t.key.src != devFid s && t.dst != devFid s).foldl (fun s t => finishRequest s (tagHdr s t) st 0) s

/-- Ends all work of a partition with a status, but for its ATTEST and KEYX messages. -/
def endWork (s : State) (p : Nat) (st : BitVec 8) : State :=
  let mine (m : Msg) : Bool := m.hdr.part.toNat == p && m.hdr.op != Op.attest && m.hdr.op != Op.keyx
  let s := endMoves (endGather (endMemory s mine st) (fun g => mine g.msg) st) p (fun _ => true) st
  endForwarded (endOpeners (endEngines s p st) p st) p st

/-- SEALING has lasted 200 µs: work still in flight completes BUSY (R398 step 1). -/
def flushSealing (s : State) (p : Nat) : State :=
  endWork (s.modPart p fun v => { v with sealAt := none }) p St.busy

/-! ### Removal (R410 to R412) -/

/-- Every packet that waits in the device. -/
def heldPackets (s : State) : List Held := s.inq.flatMap (·.2) ++ s.spine.map (·.held) ++ s.outs.flatMap fun e => e.2.q

/-- Takes packets out of every queue. -/
def dropPackets (s : State) (gone : Held → Bool) : State :=
  { s with inq := Sparse.mapVals [] (fun l => l.filter fun h => !gone h) s.inq
           spine := s.spine.filter fun x => !gone x.held
           outs := Sparse.mapVals {} (fun o => { o with q := o.q.filter fun h => !gone h }) s.outs }

/-- The request that a completion answers, as far as a completion tells it. -/
def askHdr (h : Hdr) : Hdr :=
  { (default : Hdr) with ver := 1, ep := h.ep, cls := if h.cls = 7 then 7 else 3, flg := h.flg &&& flagRetry, dst := h.src, src := h.dst,
                         part := h.part, tag := h.tag, opid := h.opid }

/-- Ends the versioned loads that other partitions make of the partition's regions: what has not been sent is not sent (R412). -/
def endReaders (s : State) (p : Nat) : State :=
  let keys := (s.vloads.filter fun v =>
    v.key.part.toNat != p && vloadActive s v && (match s.region v.region with | some r => r.owner.val == p | none => false)).map (·.key)
  let mine (h : Held) : Bool := isCmplOp h.pkt.hdr.op && keys.contains (cmplKey h.pkt.hdr)
  let asked := ((heldPackets s).filter mine).foldl (fun (l : List Hdr) h =>
    if l.any (fun x => hdrKey x == cmplKey h.pkt.hdr) then l else l ++ [askHdr h.pkt.hdr]) []
  let s := endMemory (dropPackets s mine) (fun m => keys.contains (hdrKey m.hdr)) St.extentRevoked
  asked.foldl (fun s h => complete s ingMemory h St.extentRevoked 0 0) s

/-- The partition's coherence domains are torn down and reset; their objects return to their defaults. -/
def endDomains (s : State) (p : Nat) : State :=
  ((List.range 32).filter fun d => domainPart s d == p).foldl (fun s d =>
    let busy := (s.domain d).st == .active || (s.domain d).st == .held
    let s := clearDir (fenceDomain s d) d
    let s := if busy then raise s 0x0304 p [(1, d)] else s
    let lo := domObj d 0 0
    let mine (k : Nat) : Bool := decide (lo ≤ k) && decide (k < lo + 16 * 256)
    { s.setDomain d {} with obj := Sparse.drop mine s.obj, ctr := Sparse.drop mine s.ctr }) s

/-- Zeroes the partition's slices, quill stores, stack folios and basis entries. -/
def scrubLocal (s : State) (p : Nat) : State :=
  let v := s.part p
  let s := (mapSlices v.slices).foldl zeroSlice s
  let s := ((List.range 64).filter v.quills.getLsbD).foldl zeroStore s
  (s.folios.filter fun e => e.2.st != .free && folOwner e.2.word == p && folHomek e.2.word == 0).foldl
    (fun s e => zeroPhys s (physStack (folLfolio e.2.word)) (2 ^ 28)) s

def scrubBasis (s : State) (p : Nat) : State :=
  (s.slots.filter fun e => e.2.valid && e.2.owner.val == p).foldl
    (fun s e => (List.range 4).foldl (fun s i => zeroPhys s (entryAddr s e.1 i) 32768) s) s

/-- The partition's folio records: stack folios are free, remote ones are filled (R209). -/
def scrubFolios (s : State) (p : Nat) : State :=
  (s.folios.filter fun e => e.2.st != .free && folOwner e.2.word == p).foldl (fun s e =>
    let f := s.folio e.1
    if folHomek f.word = 0 ∨ (f.st = .revoked ∧ ¬ f.scrubFailed) then s.setFolio e.1 {}
    else beginScrub (s.setFolio e.1 { f with clearing := true, scrubFailed := false }) e.1) s

/-- Objects of the dictionary that belong to one partition, beside its own range. -/
def partKey (p k : Nat) : Bool :=
  let ix := k / 256
  ix == 0x5020 + p || ix == 0x5320 + p || ix == 0x7400 + p || (decide (0x5500 + 8 * p ≤ ix) && decide (ix < 0x5500 + 8 * p + 8))

/-- Clears every record the partition owns (R410 step 6). -/
def clearRecords (s : State) (p : Nat) : State :=
  let mask (w : BitVec 128) : BitVec 128 := w &&& ~~~ (1#128 <<< (64 + p))
  let route (r : RouteSlot) : RouteSlot := { r with entries := Sparse.mapVals reDefault mask r.entries }
  let mine (e : Nat × MeterSt) : Bool := meterOwner e.2.word == p || (e.2.staged.map meterOwner) == some p
  let gone := (s.meters.filter mine).map (·.1)
  let pool (i : Nat) : Bool := s.scheds.any fun e => e.2.owner.val == p && inRange e.2 i
  { s with
    tables := s.tables.filter fun e => tableOwner e.2.word != p
    regions := s.regions.filter fun e => match e.2 with | some r => r.owner.val != p | none => true
    objects := s.objects.filter fun e => e.2.owner.val != p
    scheds := s.scheds.filter fun e => e.2.owner.val != p
    pfPool := Sparse.drop pool s.pfPool
    meters := s.meters.filter fun e => !mine e
    holds := s.holds.filter fun h => !gone.contains h.meter
    ligs := s.ligs.filter fun e => ligOwner e.2 != p
    slots := s.slots.filter fun e => e.2.owner.val != p
    batches := Sparse.set {} s.batches p {}
    slot0 := route s.slot0
    slot1 := route s.slot1
    obj := Sparse.drop (partKey p) s.obj
    ctr := Sparse.drop (partKey p) s.ctr
    vloads := s.vloads.filter fun v => v.key.part.toNat != p }

/-- Frees the partition's contexts and empties its quills. -/
def clearQuills (s : State) (p : Nat) : State :=
  let s := (s.ctxs.filter fun e => e.2.st != .free && e.2.part.val == p).foldl (fun s e => freeCtx s e.1) s
  ((List.range 64).filter (s.part p).quills.getLsbD).foldl (fun s q => s.setQuill q {}) s

/-- Discards the partition's packets; those not yet decided count as discarded at ingress (R410 step 2, R411). -/
def fencePackets (s : State) (p : Nat) : State :=
  let mine (h : Held) : Bool := h.pkt.hdr.part.toNat == p
  let n := ((s.inq.flatMap (·.2)).filter fun h => mine h && h.kind == .wire).length
  (dropPackets s mine).bump (okey 0x2004 1) n

/-- Discards every packet, message and record of requests of the partition (R410 step 5, R411). -/
def purge (s : State) (p : Nat) : State :=
  let s := fencePackets s p
  let other (k : ReqKey) : Bool := k.part.toNat != p
  { s with
    delivered := s.delivered.filter fun d => d.msg.hdr.part.toNat != p
    asm := s.asm.filter fun a => other a.key
    tags := s.tags.filter fun t => other t.key
    journal := s.journal.filter fun j => other j.key
    ligRecs := s.ligRecs.filter fun r => other r.key
    opRecs := s.opRecs.filter fun r => r.part.toNat != p
    late := s.late.filter other
    badMsgs := s.badMsgs.filter other
    grandfathered := s.grandfathered.filter other }

/-- The key slots of a partition that are not EMPTY: port and slot. -/
def slotsInUse (s : State) (p : Nat) : List (Nat × Nat) :=
  (s.keys.filter fun e => e.1 / 4 % 32 == p && e.2.st != 0).map fun e => (e.1 / 128, e.1 % 4)

/-- Erases the partition's link keys and exchanges (R398 step 4, R410 step 4). -/
def eraseKeys (s : State) (p : Nat) : State :=
  { s with keys := s.keys.filter fun e => e.1 / 4 % 32 != p, kx := s.kx.filter fun k => k.part.val != p }

/-- Ends the sessions of the partition's PRT. -/
def endPrt (s : State) (p : Nat) : State :=
  { s with sessions := s.sessions.filter fun v => !(v.role == .prt && v.part.val == p) }

/-- MACsec of the partition's host ports is off. -/
def macOff (s : State) (p : Nat) : State :=
  ((List.range 2).filter (s.part p).hosts.getLsbD).foldl (fun s h => s.setMac h {}) s

/-- Objects of a partition's own range. -/
def ownKey (p k : Nat) : Bool := decide ((0x2000 + 0x80 * p) * 256 ≤ k) && decide (k < (0x2080 + 0x80 * p) * 256)

/-- Release: the units return to partition 0 with ports DISABLED, and the partition is FREE (R410 step 7). -/
def release (s : State) (p : Nat) : State :=
  let s := ((List.range 128).filter (s.part p).ports.getLsbD).foldl (fun s n =>
    let s := s.setO (portObj n 0 1) 0
    if (s.port n).st = .disabled then s else portTo s n .disabled 0) s
  let s := s.setPart p {}
  raise { s with obj := Sparse.drop (ownKey p) s.obj, blob := Sparse.drop (ownKey p) s.blob } 0x0806 p [(1, p)]

/-- Fills of the partition's folios at other devices are still out (R209). -/
def fillsOut (s : State) (p : Nat) : Bool :=
  s.folios.any fun e => e.2.st == .scrubbing && folOwner e.2.word == p && !e.2.fills.isEmpty

/-- A KX_RETIRE request of the partition waits at a port that returns with it (R410 steps 4 and 7). -/
def retireOut (s : State) (p : Nat) : Bool :=
  (List.range 128).any fun n =>
    (s.part p).ports.getLsbD n && (s.outSt n).q.any fun h => h.kind == .raw && h.pkt.hdr.part.toNat == p

/-- Steps 1 and 2 (R410, R412): the partition's schedules and moves stop, its packets in the device go, and from here on its work
only runs on. Sealing is abandoned. -/
def beginRemoval (s : State) (p : Nat) : State :=
  let s := (raise s 0x0805 p [(1, p)]).modPart p fun v =>
    { v with st := .removing, removeStep := 3, removeAt := some s.time, finishing := none, sealAt := none }
  let s := { s with scheds := Sparse.mapVals {} (fun v => if v.owner.val = p then { v with active := false } else v) s.scheds }
  fencePackets (endMoves s p (fun m => !m.transit) St.busy) p

/-- Nothing of the partition is in flight in the device. -/
def drained (s : State) (p : Nat) : Bool :=
  let mine (m : Msg) : Bool := m.hdr.part.toNat == p
  (memMsgs s mine).isEmpty && (s.moves.all fun m => (s.object m.obj).owner.val != p) &&
    (s.quills.all fun e => (e.2.jobs.flatMap (·.reqs) ++ e.2.wins.flatMap (·.reqs) ++ e.2.runs.flatMap (·.reqs)).all fun g => !mine g.msg) &&
    (s.basisJobs.all fun j => !mine j.msg) && (s.encJobs.all fun j => !mine j.msg) && (s.expResps.all fun r => !mine r.msg) &&
    (s.ctxs.all fun e => e.2.part.val != p || e.2.opener.isNone)

/-- Steps 4 to 7, but for the fills at other devices and the KX_RETIRE requests that leave by ports of the partition (R410, R411). They are
bounded only from above and are taken at once: DESIGN CHOICE (notes/assumptions/30.md). -/
def endRemoval (s : State) (p : Nat) : State :=
  let s := s.modPart p fun v => { v with removeStep := 6, removeAt := none, cred := none, attKey := none, freshKey := none, kemKey := none,
                                         report := [], confirm := [], reportOp := none, finishOp := none, peerAllow := [] }
  let slots := slotsInUse s p
  let wait := slots.any fun x => (s.part p).ports.getLsbD x.1 && linkCarries s x.1
  let s := endPrt (macOff (eraseKeys s p) p) p
  let s := endWork s p St.busy
  let s := endGather s (fun g => tableOwner (s.table g.table).word == p) St.extentRevoked
  let s := clearQuills (endDomains (endReaders s p) p) p
  let s := purge (clearRecords (scrubBasis (scrubLocal s p) p) p) p
  let s := scrubFolios s p
  let s := slots.foldl (fun s x => sendSlotNote s x.1 p x.2 4) s
  if wait then s.modPart p fun v => { v with releaseAt := some s.time }
  else if fillsOut s p then s else release s p

/-- REMOVE (CONTROL 3), by OPR or the partition's own PRT. -/
def setRemove (s : State) (by_ : Caller) (p : Nat) : Ans :=
  guardRole s (isOpr s by_ || isPrt by_ p) <|
  guardValue s (p != 0 && (s.part p).st != .free) <|
  Ans.ok (if removing s p then s else beginRemoval s p)

def execRemove (by_ : Caller) (p : Part) (s : State) : Host.Outcome State Fault Refusal := (setRemove s by_ p.val).out by_

end Sys2Proof.Machine
end

