-- ==== Sys2Proof/Machine/Attest.lean ====
section
/-! DEFINITION. Attestation: measurements and reports (R394 to R397), AT_FINISH and the end of sealing (R398, R399), and what the end
of a folio's zero fill leads to (R209, R398, R412). -/

namespace Sys2Proof.Machine

/-! ### Measurements (R395) -/

/-- PORTS, HOSTS and QUILLS as they read: for partition 0 the units that no other partition holds (R385). -/
def portsOf (s : State) (p : Nat) : BitVec 128 :=
  if p = 0 then BitVec.ofNat 128 (((List.range 128).filter fun n => portOk s n && portOwner s n == 0).foldl (fun a n => a + 2 ^ n) 0)
  else (s.part p).ports
def hostsOf (s : State) (p : Nat) : Nat :=
  if p = 0 then ((List.range 2).filter fun h => hostOwner s h == 0).foldl (fun a h => a + 2 ^ h) 0 else (s.part p).hosts.toNat
def quillsOf (s : State) (p : Nat) : BitVec 64 :=
  if p = 0 then BitVec.ofNat 64 (((List.range 64).filter fun q => quillOk s q && quillOwner s q == 0).foldl (fun a q => a + 2 ^ q) 0)
  else (s.part p).quills

/-- VND sessions are closed: some partition is SEALING or SEALED (R391). -/
def vndClosed (s : State) : Bool := (List.range 32).any fun p => (s.part p).st == .sealing || (s.part p).st == .sealed

def measure0 : List Byte := bytes32 Config.romDigest
def measure1 (s : State) : List Byte := bytes32 s.scribe.fwDigest
def measure2 (s : State) : List Byte :=
  shake 32 ([Config.lifecycle] ++ leBytes 1 s.scribe.rollback ++ leBytes 4 (sealedMask s) ++ [BitVec.ofNat 8 (b2n (vndClosed s))] ++
    s.dumap.bytes)
/-- M3, the partition's CONFIG_DIGEST. -/
def measure3 (s : State) (p : Nat) : List Byte :=
  shake 32 (leBytes 16 (portsOf s p).toNat ++ leBytes 1 (hostsOf s p) ++ leBytes 8 (quillsOf s p).toNat ++ (s.part p).slices ++
    leBytes 3 (s.o (partObj p 1 5)) ++ leBytes 3 (s.o (partObj p 1 6)) ++ leBytes 1 (s.o (okey (0x5320 + p) 1)) ++
    leBytes 1 (s.o (okey (0x5320 + p) 0xC)))
def measure4 (s : State) (p : Nat) : List Byte := shake 32 ((s.part p).peerAllow.flatMap bytes32)

/-! ### Reports (R387, R396, R397) -/

/-- The attestation key pair that a partition's reports carry: the fresh one during SEALING (R387). -/
def reportKey (s : State) (p : Nat) : Nat :=
  let v := s.part p
  ((if v.st = .sealing then v.freshKey else none).or v.attKey).getD 0

/-- The bytes of a report that its signature covers. -/
def reportHead (s : State) (p number kem : Nat) (nonce : List Byte) : List Byte :=
  ascii "SKOMIRA1" ++ [BitVec.ofNat 8 p, BitVec.ofNat 8 (partCode s p), 0, 0] ++ leBytes 4 number ++ slice nonce 0 32 ++ reproKey s ++
    measure0 ++ measure1 s ++ measure2 s ++ measure3 s p ++ measure4 s p ++ (List.range 1184).map (Config.kemPub kem) ++
    (List.range 1952).map (Config.dsaPub (reportKey s p)) ++ List.replicate 16 0#8

/-- Issues a report: it discards the KEM key of the one before. -/
def issueReport (s : State) (p : Nat) (nonce : List Byte) (op : Option ReqKey) : State :=
  let k := s.draw
  let s := k.2
  let n := (s.part p).reports + 1
  let head := reportHead s p n.toNat k.1 nonce
  let s := s.modPart p fun v => { v with reports := n, report := head ++ idSign head ++ List.replicate 3 0#8, kemKey := some k.1, reportOp := op }
  raise s 0x080C p [(1, p), (4, n.toNat)]

/-- A partition answers verifiers unless it is FREE or being removed. -/
def attests (s : State) (p : Nat) : Bool := partServes s p || (s.part p).st == .sealing

/-! ### ATTEST messages once (R429 to R431) -/

/-- Ends an ATTEST with data: the record is DONE and 1 + NDUP identical completions leave. -/
def finishData (s : State) (m : Msg) (body : List Byte) : State :=
  match findOp s m.hdr with
  | some r =>
    let s := setOp s { r with done := true, status := St.ok, tdone := s.timebase, ndup := 0 }
    (List.range (r.ndup + 1)).foldl (fun s _ => completeData s ingScribe m.hdr 0 0 body) s
  | none => completeData s ingScribe m.hdr 0 0 body

/-- Two names of one operation (R427). -/
def sameOp (k : Option ReqKey) (h : Hdr) : Bool :=
  match k with | some k => k.src == h.src && k.part == h.part && k.opid == h.opid | none => false

/-- The answer to a copy of a finished ATTEST (R431). -/
def answerCopy (s : State) (m : Msg) (r : OpRec) : State :=
  let v := s.part m.hdr.part.toNat
  if r.status ≠ St.ok then originate s ingScribe .unit (opCompletion s m.hdr r)
  else if opxOf m.hdr = 1 ∧ sameOp v.reportOp m.hdr then completeData s ingScribe m.hdr 0 0 v.report
  else if opxOf m.hdr = 3 ∧ sameOp v.finishOp m.hdr then completeData s ingScribe m.hdr 0 0 v.confirm
  else complete s ingScribe m.hdr St.accessDenied 0 0

def onceAttest (s : State) (m : Msg) (perform : State → State) : State :=
  match findOp s m.hdr with
  | some r =>
    if r.done then answerCopy (s.bump (okey 0xA000 6) 1) m r
    else (setOp s { r with ndup := min 3 (r.ndup + 1) }).bump (okey 0xA000 7) 1
  | none =>
    if inTileWindow s m.hdr then finishOnce s ingScribe m.hdr St.replayExhausted 0 0 none
    else perform (openOp s m.hdr)

def failAttest (s : State) (m : Msg) (st : BitVec 8) : State := finishOnce s ingScribe m.hdr st 0 0 none

/-- AT_REQ (R397). -/
def atReqNow (s : State) (m : Msg) : State :=
  let p := m.hdr.part.toNat
  if m.body.length ≠ 32 then failAttest s m St.formatUnsupported
  else if !attests s p then failAttest s m St.accessDenied
  else
    let s := issueReport s p m.body (some (hdrKey m.hdr))
    finishData s m (s.part p).report

/-! ### AT_FINISH and the end of sealing (R398, R399) -/

/-- AT_FINISH is accepted: the partition is SEALING, none has been accepted, and RD is that of the latest report. -/
def finishOk (s : State) (p : Nat) (payload : List Byte) : Bool :=
  let v := s.part p
  v.st == .sealing && v.finishing.isNone && !v.report.isEmpty && slice payload 1088 32 == shake 32 v.report

/-- MACsec as sealing starts it on a host port: SAK number 0 (R399, R407). -/
def initialMac (k : List Byte) (h : Nat) : Macsec :=
  { on := true, key := BitVec.ofNat 256 (leAt k (64 + 44 * h) 32), salt := BitVec.ofNat 96 (leAt k (96 + 44 * h) 12) }

/-- Step 5: the secrets are installed and the partition is SEALED. -/
def finalizeSeal (s : State) (p : Nat) : State :=
  match (s.part p).finishing with
  | none => s
  | some f =>
    let confirm := bytes32 (Config.kmac256 (slice f.k 32 32) (ascii "SKOMIR CONFIRM") f.rd)
    let s := s.modPart p fun v => { v with st := .sealed, cred := some (BitVec.ofNat 256 (leAt f.k 0 32)), attKey := v.freshKey, freshKey := none,
                                           confirm := confirm, finishOp := f.msg.map fun m => hdrKey m.hdr, finishing := none }
    let s := ((List.range 2).filter (s.part p).hosts.getLsbD).foldl (fun s h => s.setMac h (initialMac f.k h)) s
    let s := raise { s with power := { s.power with scanOff := true } } 0x0803 p [(1, p)]
    match f.msg with
    | some m => finishData s m confirm
    | none => s

/-- A remote folio of the partition is revoked and its fill begins (R398 step 4). -/
def revokeRemote (s : State) (p : Nat) : State :=
  (s.folios.filter fun e => folOwner e.2.word == p && folHomek e.2.word != 0 && (e.2.st == .granted || e.2.st == .draining)).foldl
    (fun s e => beginScrub (forceComplete s e.1) e.1) s

/-- Step 4: keys and credentials are erased and the partition's memory is emptied; sealing ends once every fill has. -/
def acceptFinish (s : State) (p : Nat) (payload : List Byte) (m : Option Msg) : State :=
  let v := s.part p
  let rd := shake 32 v.report
  let ss := Config.kemDecap (v.kemKey.getD 0) (slice payload 0 1088)
  let k := shake 152 (ascii "SKOMIRP1" ++ bytes32 ss ++ rd ++ [BitVec.ofNat 8 p])
  let s := if v.sealAt.isSome then flushSealing s p else s
  let s := (endPrt (eraseKeys s p) p).modPart p fun v => { v with cred := none, finishing := some { rd := rd, k := k, msg := m } }
  let s := (revokeRemote (scrubLocal s p) p).setO (okey (0x5320 + p) 0xC) 0
  if fillsOut s p then s else finalizeSeal s p

def atFinishNow (s : State) (m : Msg) : State :=
  let p := m.hdr.part.toNat
  if m.body.length ≠ 1120 then failAttest s m St.formatUnsupported
  else if finishOk s p m.body then acceptFinish s p m.body (some m)
  else failAttest s m St.accessDenied

/-- A C0 ATTEST message by its OPX; an OPX without a message is refused. -/
def attestNow (s : State) (m : Msg) : State :=
  match opxOf m.hdr with
  | 1 => atReqNow s m
  | 3 => atFinishNow s m
  | _ => failAttest s m St.formatUnsupported

def attestMsg (s : State) (m : Msg) : State := onceAttest (takeDelivered s m) m fun s => attestNow s m

def execAtReq (m : Msg) (s : State) : Host.Outcome State Fault Refusal := .next (attestMsg s m)
def execAtFinish (m : Msg) (s : State) : Host.Outcome State Fault Refusal := .next (attestMsg s m)

/-- ATT_SELECT (0x1620.05) of the caller's session (R477). -/
def attSelect (s : State) (by_ : Caller) : Nat :=
  match s.session by_.sid with | some v => Sparse.get 0 v.sel (okey 0x1620 5) | none => 0

/-- ATT_REQ (0x1620.06): OPR relays a nonce. -/
def setAttReq (s : State) (by_ : Caller) (nonce : List Byte) : Ans :=
  guardRole s (isOpr s by_) <|
  guardValue s (attests s (attSelect s by_)) (Ans.ok (issueReport s (attSelect s by_) nonce none))

def execAttReq (by_ : Caller) (nonce : BitVec 256) (s : State) : Host.Outcome State Fault Refusal :=
  (setAttReq s by_ (bytes32 nonce)).out by_

/-- ATT_FINISH (0x1620.08): OPR relays AT_FINISH. -/
def setAttFinish (s : State) (by_ : Caller) (payload : List Byte) : Ans :=
  guardRole s (isOpr s by_) <|
  if payload.length ≠ 1120 then Ans.no s Ds.wrongLength
  else if finishOk s (attSelect s by_) payload then Ans.ok (acceptFinish s (attSelect s by_) payload none)
  else Ans.no s Ds.accessDenied

def execAttFinish (by_ : Caller) (payload : List Byte) (s : State) : Host.Outcome State Fault Refusal :=
  (setAttFinish s by_ payload).out by_

/-! ### The end of a folio's zero fill (R209, R398, R412) -/

/-- A fill has ended: removal or sealing goes on once the partition has none out. -/
def afterScrub (s : State) (i : Nat) (status : BitVec 8) : State :=
  let f := s.folio i
  let p := folOwner f.word
  let s := endScrub s i status
  if f.st ≠ .scrubbing ∨ fillsOut s p then
    if f.st = .scrubbing ∧ (s.part p).removeStep = 6 ∧ status ≠ St.ok then raise s 0x080D p [(1, p), (2, i)] else s
  else match (s.part p).st with
    | .removing =>
      if (s.part p).removeStep ≠ 6 then s
      else
        let s := if status = St.ok then s else raise s 0x080D p [(1, p), (2, i)]
        if (s.part p).releaseAt.isSome then s else release s p
    | .sealing => finalizeSeal s p
    | _ => s

def execFolioScrubDone (i : BitVec 16) (status : BitVec 8) (s : State) : Host.Outcome State Fault Refusal :=
  .next (afterScrub s i.toNat status)

end Sys2Proof.Machine
end

