-- ==== Sys2Proof/Machine/Peers.lean ====
section
/-! DEFINITION. Replay timers (R420 to R422, R429), dead targets (R184 to R187), peers and heartbeats (R453 to R455), fences (R456 to
R459), membership (R460 to R463), TRIGGER, and straggler monitors (R466). -/

namespace Sys2Proof.Machine

/-! ### Timers of outstanding requests -/

/-- DEAD_TARGET_TIME has passed: a C3 request completes with TGT_DEAD, a C7 entry is released silently (R180, R184). -/
def tgtDeadTimeout (s : State) (k : ReqKey) : State :=
  match findTag s k with
  | none => s
  | some t =>
    if t.cls = 3 then finishRequest s (tagHdr s t) St.tgtDead 0
    else if t.cls = 7 then dropTag s k else s

def execTgtDeadTimeout (k : ReqKey) (s : State) : Host.Outcome State Fault Refusal := .next (tgtDeadTimeout s k)

/-- REPLAY_TIME has passed since TLAST: trigger (b), for a HELD entry of RKIND 1 or 3 (R420, R423). -/
def execReplayTimeExpire (k : ReqKey) (s : State) : Host.Outcome State Fault Refusal :=
  .next (match findJournal s k with
    | some j => if j.held ∧ j.rkind ≠ 2 ∧ j.hdr.cls ≠ 1 ∧ j.hdr.cls ≠ 2 then replayTrigger s k else s
    | none => s)

/-- ORPHAN_TIME has passed since TACC, for a forwarded C0 or C5 entry without HELD (R421). -/
def execOrphanTimeExpire (k : ReqKey) (s : State) : Host.Outcome State Fault Refusal :=
  .next (match findJournal s k with
    | some j =>
      if j.rkind = 1 ∧ ¬ j.held ∧ (j.hdr.cls = 0 ∨ j.hdr.cls = 5) then
        finishRequest s j.hdr St.replayExhausted (BitVec.ofNat 16 j.att)
      else s
    | none => s)

/-- A DONE record is freed 1 ms after TDONE (R429). -/
def execOpRecordExpire (src : Fid) (part : BitVec 5) (opid : Opid) (s : State) : Host.Outcome State Fault Refusal :=
  .next { s with opRecs := s.opRecs.filter fun r => !(r.done && r.src == src && r.part == part && r.opid == opid) }

/-! ### Dead peers (R185, R453, R455) -/

/-- The FIDs that die with a peer: those of its prefix; a directly attached Skomir stands for every endpoint of its device (R25,
R185): DEDUCED. -/
def deadReach (s : State) (w : BitVec 32) (f : Fid) : Bool :=
  recCovers w f.toNat ||
    (recPls w == 3 && (s.ports.any fun e => e.2.peerFid.toNat == recPrefix w && e.2.peerRole == 1) &&
      f.toNat / 256 == recPrefix w / 256)

/-- Declares a peer dead (R455). -/
def declareDead (s : State) (w : BitVec 32) : State :=
  if w ∈ s.dead then s
  else
    let reach := deadReach s w
    let s := raise { s with dead := s.dead ++ [w], alive := s.alive.filter (· != w) } 0x0909 deviceWide [(4, peerItem w)]
    let ts := s.tags.filter fun t => (t.cls == 3 || t.cls == 5 || t.cls == 7) && reach t.dst
    let s := ts.foldl (fun s t => finishRequest s (tagHdr s t) St.tgtDead 0) s
    partnersLost (holdAgents s 1 fun _ _ f => reach f) reach

/-- Ports that name a peer. -/
def portsNaming (s : State) (f : Fid) : List PortSt := (s.ports.map (·.2)).filter fun p => p.peerFid == f

/-- PEER_SILENCE_TIMEOUT: nothing has arrived from a direct peer for 30 µs; one with a port in RETRAIN does not count (R453). -/
def execPeerSilenceTimeout (f : Fid) (s : State) : Host.Outcome State Fault Refusal :=
  .next (let ps := portsNaming s f
    if f = 0 ∨ ps.isEmpty ∨ ps.any (fun p => p.st == .retrain) then s else declareDead s (fidRec f))

/-! ### Heartbeats (R454) -/

/-- Where heartbeats go: watched prefixes, homes of mirrors held, partners of mirrored contexts owned. -/
def heartbeatTargets (s : State) : List Fid :=
  (s.watches.map (fun w => BitVec.ofNat 24 (recPrefix w.word)) ++
    (s.ctxs.filter fun e => e.2.partner != 0 && (e.2.st == .mirror || e.2.mirror == 2)).map fun e => e.2.partner).eraseDups

/-- Sends one HEARTBEAT with its destination's next sequence. -/
def sendHeartbeat (s : State) (f : Fid) : State :=
  let q : BitVec 32 := Sparse.get 0 s.hbSeq f.toNat
  let n := s.nextSerial
  let h := { scribeHdr n.2 Op.heartbeat f 0 n.1 with aux := q }
  originate { n.2 with hbSeq := Sparse.set 0 n.2.hbSeq f.toNat (q + 1) } ingScribe .unit (mkRequest h [])

/-- A watch at the end of an interval: the interval in which it was added does not count. -/
def judgeWatch (s : State) (w : Watch) : Watch :=
  if w.fresh then { w with fresh := false }
  else if w.word ∈ s.hbHeard then { w with missed := 0 } else { w with missed := w.missed + 1 }

/-- HEARTBEAT_TICK, at every 1 ms boundary of Scribe time. -/
def execHeartbeatTick (s : State) : Host.Outcome State Fault Refusal :=
  .next (
    let missed := (s.watches.filter fun w => !w.fresh && !(s.hbHeard.contains w.word)).length
    let s := { s with watches := s.watches.map (judgeWatch s), hbHeard := [] }.bump (okey 0xA300 5) missed
    (heartbeatTargets s).foldl sendHeartbeat s)

/-- A HEARTBEAT consumed here proves its SRC alive, and every watched prefix that contains it (R454, R455). -/
def heartbeatHeard (s : State) (src : Fid) : State :=
  let ws := (s.watches.map (·.word)).filter fun w => recCovers w src.toNat
  let ds := s.dead.filter fun w => recCovers w src.toNat
  let s := { s with hbHeard := s.hbHeard ++ ws.filter fun w => !(s.hbHeard.contains w) }
  (fidRec src :: ws ++ ds).foldl showAlive s

def execHeartbeat (p : Packet) (s : State) : Host.Outcome State Fault Refusal :=
  .next (heartbeatHeard (takeDelivered s (packetMsg p)) p.hdr.src)

/-- HB_WATCH_EXPIRE: three consecutive whole intervals have passed without a HEARTBEAT from within a watched prefix. -/
def execHbWatchExpire (w : BitVec 32) (s : State) : Host.Outcome State Fault Refusal :=
  .next (if s.watches.any (fun x => x.word == w && decide (3 ≤ x.missed)) then declareDead s w else s)

/-- The 4-byte records of a BLOB. -/
def words32 (bs : List Byte) : List (BitVec 32) := (List.range (bs.length / 4)).map fun i => BitVec.ofNat 32 (leAt bs (4 * i) 4)

/-- A valid prefix record without its reserved bits (R117). -/
def canonRec (w : BitVec 32) : BitVec 32 := w &&& 0xE0FFFFFF#32

/-- HB_WATCH (0xA300.01), checked as a whole (R454). -/
def setHbWatch (s : State) (by_ : Caller) (recs : List (BitVec 32)) : Ans :=
  guardRole s (isOpr s by_) <|
  if 256 < recs.length then Ans.no s Ds.wrongLength else
  let vs := recs.filter recValid
  guardValue s (vs.all fun w => recPls w != 0 && !prefixOverhang (recPls w) (recPrefix w)) <|
  let ws := (vs.map canonRec).eraseDups.map fun w => (s.watches.find? fun x => x.word == w).getD { word := w, missed := 0, fresh := true }
  Ans.ok ({ s with watches := ws, hbHeard := s.hbHeard.filter fun w => ws.any fun x => x.word == w }.setB (okey 0xA300 1)
    (recs.flatMap fun (w : BitVec 32) => leBytes 4 w.toNat))

def execHbWatch (by_ : Caller) (recs : List (BitVec 32)) (s : State) : Host.Outcome State Fault Refusal := (setHbWatch s by_ recs).out by_

/-! ### Fences (R456 to R459) -/

def fnEpoch (w : BitVec 128) : BitVec 32 := BitVec.ofNat 32 (bits w.toNat 31 0)
def fnAct (w : BitVec 128) : Nat := bits w.toNat 35 32
def fnPls (w : BitVec 128) : Nat := bits w.toNat 37 36
def fnPrefix (w : BitVec 128) : Nat := bits w.toNat 63 40
/-- The prefix laid out as R117; none of it for LIFT_ALL. -/
def fnRec (w : BitVec 128) : BitVec 32 :=
  if fnAct w = 3 then 0 else BitVec.ofNat 32 (2 ^ 31 + fnPls w * 2 ^ 29 + fnPrefix w)

/-- FACT and the prefix are such that the record means something (R457). -/
def fenceFormed (w : BitVec 128) : Bool :=
  fnAct w == 3 || ((fnAct w == 1 || fnAct w == 2) && fnPls w != 0 && !prefixOverhang (fnPls w) (fnPrefix w))

/-- A fence on a prefix acts at once on what is outstanding toward it, this device's own requests among it (R459). -/
def fenceActs (s : State) (w : BitVec 32) : State :=
  let ts := s.tags.filter fun t => recCovers w t.dst.toNat
  let s := ts.foldl (fun s t => finishRequest s (tagHdr s t) St.fenced 0) s
  let js := s.journal.filter fun j => j.rkind == 3 && recCovers w j.hdr.dst.toNat
  let s := js.foldl (fun s j => finishRequest s j.hdr St.fenced 0) s
  partnersLost (checkAgentRoutes s) fun f => recCovers w f.toNat

/-- A fence record takes effect. -/
def fenceEffect (s : State) (w : BitVec 128) : State :=
  let r := fnRec w
  let list := match fnAct w with
    | 1 => if r ∈ s.fences then s.fences else s.fences ++ [r]
    | 2 => s.fences.filter (· != r)
    | _ => []
  let s := { s with fepoch := fnEpoch w, fences := list }
  let s := if fnAct w = 1 then fenceActs s r else s
  raise s 0x090B deviceWide [(1, fnAct w), (4, r.toNat), (4, (fnEpoch w).toNat)]

/-- A fence record: its status and the state (R457). -/
def fenceRecord (s : State) (w : BitVec 128) : BitVec 8 × State :=
  let e := (fnEpoch w).toNat
  if !fenceFormed w then (St.formatUnsupported, s)
  else if e < s.fepoch.toNat ∨ (fnAct w ≠ 1 ∧ e = s.fepoch.toNat) then (St.ok, s.bump (okey 0xA400 6) 1)
  else if fnAct w = 1 ∧ ¬ fnRec w ∈ s.fences ∧ 256 ≤ s.fences.length then (St.boundExceeded, s)
  else (St.ok, fenceEffect s w)

/-- A FENCE comes from PART 0 and a SRC within a FENCE_AUTH entry. -/
def fenceAllowed (s : State) (h : Hdr) : Bool :=
  h.part == 0 && (words32 (s.b (okey 0xA400 4))).any fun w => recValid w && recCovers w h.src.toNat

/-- FENCE: CDAT holds the low 16 bits of the fence epoch after the record. -/
def fenceNow (s : State) (m : Msg) : State :=
  if !fenceAllowed s m.hdr then complete s ingScribe m.hdr St.accessDenied 0 (s.fepoch.setWidth 16)
  else if m.body.length ≠ 16 then complete s ingScribe m.hdr St.formatUnsupported 0 (s.fepoch.setWidth 16)
  else
    let r := fenceRecord s (BitVec.ofNat 128 (leAt m.body 0 16))
    complete r.2 ingScribe m.hdr r.1 0 (r.2.fepoch.setWidth 16)

def execFence (m : Msg) (s : State) : Host.Outcome State Fault Refusal := .next (fenceNow (takeDelivered s m) m)

/-- FENCE_WRITE (0xA400.01). -/
def setFenceWrite (s : State) (by_ : Caller) (recs : List (BitVec 128)) : Ans :=
  guardRole s (isOpr s by_) (writeRecords (fun s w => let r := fenceRecord s w; (r.1 == St.ok, r.2)) s recs)

def execFenceWrite (by_ : Caller) (recs : List (BitVec 128)) (s : State) : Host.Outcome State Fault Refusal :=
  (setFenceWrite s by_ recs).out by_

/-! ### Membership (R460 to R463) -/

/-- MEMBER_STAGE (0xA500.01). -/
def setMemberStage (s : State) (by_ : Caller) (bs : List Byte) : Ans :=
  let n := leAt bs 10 2
  let e := BitVec.ofNat 32 (leAt bs 0 4)
  let list := words32 ((bs.drop 16).take (4 * n))
  guardRole s (isOpr s by_) <|
  if bs.length < 16 ∨ (n ≤ 256 ∧ bs.length ≠ 16 + 4 * n) then Ans.no s Ds.wrongLength
  else if e.toNat ≤ s.mepoch.toNat ∨ 256 < n ∨ ¬ list.any (fun w => recValid w && recCovers w (devFid s).toNat) then
    Ans.no (raise s 0x090D deviceWide [(4, e.toNat)]) Ds.valueRejected
  else Ans.ok { s with staged := some { mepoch := e, step := BitVec.ofNat 32 (leAt bs 4 4), sched := BitVec.ofNat 8 (leAt bs 8 1), list := list } }

def execMemberStage (by_ : Caller) (bytes : List Byte) (s : State) : Host.Outcome State Fault Refusal := (setMemberStage s by_ bytes).out by_

/-- The staged list becomes current; requests already accepted stay under the list they came under (R461). -/
def applyStaged (s : State) : State :=
  match s.staged with
  | none => s
  | some g =>
    let keys := (s.tags.map (·.key) ++ s.journal.map (·.key) ++ s.asm.map (·.key)).eraseDups
    raise { s with members := (g.list.filter recValid).map canonRec, mepoch := g.mepoch, staged := none, grandfathered := keys } 0x090C
      deviceWide [(4, g.mepoch.toNat)]

/-- MEMBER_NOW (0xA500.05). Nothing staged is refused. -/
def setMemberNow (s : State) (by_ : Caller) (v : Nat) : Ans :=
  guardRole s (isOpr s by_) <|
  guardRange s (decide (v = 1)) <|
  guardValue s s.staged.isSome (Ans.ok (applyStaged s))

def execMemberNow (by_ : Caller) (v : BitVec 8) (s : State) : Host.Outcome State Fault Refusal := (setMemberNow s by_ v.toNat).out by_

/-- The payload of a KIND 1 notice (R463). -/
def memberNotice (g : Staged) : List Byte := leBytes 16 (1 + g.mepoch.toNat * 2 ^ 64 + g.step.toNat * 2 ^ 96)

/-- MEMBER_NOTIFY (0xA500.06). -/
def setMemberNotify (s : State) (by_ : Caller) (v : Nat) : Ans :=
  guardRole s (isOpr s by_) <|
  guardRange s (decide (v = 1)) <|
  match s.staged with
  | none => Ans.no s Ds.valueRejected
  | some g => Ans.ok ((noticePorts s).foldl (sendNotice 1 (memberNotice g)) s)

def execMemberNotify (by_ : Caller) (v : BitVec 8) (s : State) : Host.Outcome State Fault Refusal := (setMemberNotify s by_ v.toNat).out by_

/-- A TRIGGER reaches the sequencer; a step that starts may bring the staged list into force (R322, R461). -/
def triggerNow (s : State) (m : Msg) : State :=
  let n := trSched m.body
  let old := (s.sched n).step
  let s := sequencerTrigger s m
  match s.staged with
  | some g =>
    let now := (s.sched n).step
    if now ≠ old ∧ g.sched.toNat = n ∧ (now = g.step ∨ newer now g.step) then applyStaged s else s
  | none => s

def execTrigger (m : Msg) (s : State) : Host.Outcome State Fault Refusal := .next (triggerNow (takeDelivered s m) m)

/-! ### Straggler monitors (R466) -/

/-- The partition of the context a monitor follows. -/
def monitorPart (s : State) (mon : Nat) : Nat :=
  let c := s.o (okey (0xA700 + mon) 1)
  if c = 0xFFFF then 0 else (s.ctx c).part.val

/-- STRAG_CLEAR (0xA700.06). -/
def setStragClear (s : State) (by_ : Caller) (mon v : Nat) : Ans :=
  guardRole s (oprOver s by_ (monitorPart s mon)) <|
  guardRange s (decide (v = 1)) <|
  Ans.ok { s with strags := Sparse.set {} s.strags mon {} }

def execStragClear (by_ : Caller) (mon : Fin 16) (v : BitVec 8) (s : State) : Host.Outcome State Fault Refusal :=
  (setStragClear s by_ mon.val v.toNat).out by_

end Sys2Proof.Machine
end

