-- ==== Sys2Proof/Machine/Completion.lean ====
section
/-! DEFINITION. Completions: matching, absorbing and releasing (R82, R130, R178, R187), and completions of this device's own requests. -/

namespace Sys2Proof.Machine

/-! ### Completions of this device's own requests (R82) -/

/-- A completion that matches nothing is discarded and counted (R82). The spec names no object for the count. -/
def unmatched (s : State) : State := s.bump (okey 0xFFFF 2) 1

/-- A running move whose LOAD or STORE is out under this key: the move, and whether it is the LOAD. -/
def moveOf (s : State) (k : ReqKey) : Option (Move × Bool) :=
  let out (x : Option Sub) : Bool := match x with | some x => x.key == k && !x.done | none => false
  match s.moves.find? fun m => out m.rd with
  | some m => some (m, true)
  | none => (s.moves.find? fun m => out m.wr).map fun m => (m, false)

/-- A key exchange of this device that a KX_RESP answers. -/
def kxOf (s : State) (k : ReqKey) : Option Kx :=
  s.kx.find? fun x => x.tag == k.tag && x.opid == k.opid && x.part.val == k.part.toNat

/-- The whole completion of a request of this device. -/
def ownCompletion (s : State) (k : ReqKey) (st cflg : BitVec 8) (cdat : BitVec 16) (data : List Byte) : State :=
  match s.notices.find? fun x => x.tag == k.tag && x.opid == k.opid with
  | some x => noticeCompleted s x st
  | none =>
  match s.reissues.find? fun r => r.subs.any fun x => x.key == k && !x.done with
  | some r => subDone s r k st cflg cdat data
  | none =>
  if isUnitSub s k then headAdvance (settleReads (unitSubDone s k st data))
  else match moveOf s k with
  | some x => moveSubDone s x.1 x.2 st data
  | none =>
  match s.ctxs.find? fun e => e.2.mirrorKey == some k with
  | some e => mirrorAnswer s e.1 (st == St.ok)
  | none =>
  match s.chunks.find? fun c => c.storing == some k with
  | some c => chunkStored s c st
  | none =>
  match s.folios.find? fun e => e.2.fills.contains k with
  | some e => afterScrub s e.1 st
  | none => unmatched s

/-- This device waits for a completion under this key. -/
def awaits (s : State) (k : ReqKey) : Bool :=
  (s.notices.any fun x => x.tag == k.tag && x.opid == k.opid) || (s.reissues.any fun r => r.subs.any fun x => x.key == k && !x.done) ||
    isUnitSub s k || (moveOf s k).isSome || (s.ctxs.any fun e => e.2.mirrorKey == some k) ||
    (s.chunks.any fun c => c.storing == some k) || (s.folios.any fun e => e.2.fills.contains k)

/-- STATUS of a completion that this device consumes. DESIGN CHOICE (notes/assumptions/75.md): a reserved status counts as
FORMAT_UNSUPPORTED, so that none is ever passed on (R11). -/
def peerStatus (h : Hdr) : BitVec 8 := if 0x0D < (cmplStatus h).toNat then St.formatUnsupported else cmplStatus h

/-- A completion packet addressed to this device. One that nothing waits for is discarded, and its message counted once (R72, R82);
of the others the message is assembled first. -/
def completionHere (s : State) (h : Held) : State :=
  let k := cmplKey h.pkt.hdr
  if !awaits s k then (if pidxOf h.pkt.hdr = 0 then unmatched s else s)
  else match assemble s h.ingress k h.pkt with
  | .partial_ s => s
  | .malformed s => unmatched s
  | .whole s m => ownCompletion s k (peerStatus m.hdr) (cmplCflg m.hdr &&& 0x0F) (cmplCdat m.hdr) m.body

/-! ### KEYX completions (R401, R411) -/

/-- A completion of this device's own KEYX: consumed at the port, whatever the state of its partition. -/
def isOwnKeyx (s : State) (ing : Nat) (h : Hdr) : Bool :=
  decide (ing < 128) && isCmplOp h.op && h.cls == 0 && (s.rawOut.contains (cmplKey h) || (kxOf s (cmplKey h)).isSome)

def keyxCompletion (s : State) (h : Held) : State :=
  let k := cmplKey h.pkt.hdr
  match kxOf s k with
  | none => { s with rawOut := s.rawOut.filter (· != k) }
  | some x =>
    match assemble s h.ingress k h.pkt with
    | .partial_ s => s
    | .malformed s => kxFailed s x
    | .whole s m => if cmplStatus m.hdr = St.ok then deliverMsg s h.ingress m else kxFailed s x

/-! ### Passing completions (R130, R178, R187) -/

/-- The ligature record that an aggregate CMPL reports to, or came too late for (R130, R131). -/
def aggregateOf (s : State) (ing : Nat) (h : Hdr) : Option LigRec :=
  if h.op = Op.cmpl ∧ ing < 128 then
    s.ligRecs.find? fun r => r.key == cmplKey h && r.open_.any fun b => match b with | .switch p => p.val == ing | _ => false
  else none

/-- Takes an aggregate CMPL into its record; one that comes after the record has closed is discarded and counted (R130, R131). -/
def absorbAggregate (s : State) (ing : Nat) (h : Hdr) (r : LigRec) : State :=
  let open_ := r.open_.filter fun b => match b with | .switch p => p.val != ing | _ => true
  if r.closed then
    unmatched { s with ligRecs := (s.ligRecs.filter fun x => x != r) ++ closedLig { r with open_ := open_ } }
  else updateLig s { r with deliv := cap4095 (r.deliv + bits h.addr.toNat 23 12), fencd := cap4095 (r.fencd + bits h.addr.toNat 11 0),
                             open_ := open_ }

/-- A late completion of a request that completed with TGT_DEAD (R187). -/
def isLate (s : State) (h : Held) : Bool :=
  h.kind != .final && (findTag s (cmplKey h.pkt.hdr)).isNone && s.late.contains (cmplKey h.pkt.hdr)

/-- A packet of a completion has passed: the entry and the record go with its last packet (R178, R417). One that this device makes
as the accepting device leaves nothing to release, and the request it answers may be a clash with one that continues (R183). -/
def passBack (s : State) (x : Held) (h : Hdr) : State :=
  if x.kind = .final then s else
  let k := cmplKey h
  let n := if h.op = Op.cmpl then 1 else pcntOf h
  let i := if h.op = Op.cmpl then 0 else pidxOf h
  match findTag s k with
  | some t =>
    let back := if i ∈ t.back then t.back else t.back ++ [i]
    if n ≤ back.length then releaseRequest s k else setTag s { t with back := back }
  | none => if i + 1 = n then dropJournal s k else s

/-- Counts a discard of R97. -/
def countStale (s : State) (ing : Nat) (h : Hdr) : State :=
  raiseLimited (s.bump (okey 0x3805 1) 1) ms 0 0x0205 deviceWide [(1, ing), (1, b2n h.ep)]
def countHopLimit (s : State) (ing : Nat) (h : Hdr) : State :=
  raiseLimited (s.bump (okey 0x3805 2) 1) ms 0 0x0206 deviceWide [(1, ing), (4, h.dst.toNat)]
def countNoLive (s : State) (ing target : Nat) : State :=
  raiseLimited (s.bump (okey 0x3805 3) 1) ms 0 0x0207 deviceWide [(1, ing), (4, target)]

/-- A completion decided under R97. One for a host leaves only while its request is outstanding (R93). -/
def routeCompletion (s : State) (ing : Nat) (h : Held) : State :=
  let hd := h.pkt.hdr
  let h := { h with ret := h.ret.or ((findTag s (cmplKey hd)).bind (·.ret)) }
  let (v, hd', s) := decide1 s hd ing
  let h := { h with pkt := { h.pkt with hdr := hd' } }
  match v with
  | .deliver => completionHere (passBack s h hd) h
  | .refuse st => refusePacket s h st
  | .stale => countStale s ing hd
  | .hopLimit => countHopLimit s ing hd
  | .noLive t => countNoLive s ing t
  | .forward o => if 128 ≤ o ∧ h.ret.isNone then unmatched s else forwardTo (passBack s h hd) ing o h

/-- A completion at an ingress. One outside the response classes is expected nowhere (R71, R72); one with MCAST goes to replicate,
which admits no completion (R97, R127). -/
def completionArrive (s : State) (ing : Nat) (h : Held) : State :=
  if !opAllowed h.pkt.hdr.op h.pkt.hdr.cls then unmatched s
  else if h.pkt.hdr.mcast then replicate s ing h
  else match aggregateOf s ing h.pkt.hdr with
  | some r => absorbAggregate s ing h.pkt.hdr r
  | none =>
    if isLate s h then (if pidxOf h.pkt.hdr = 0 then s.bump (okey 0x5000 5) 1 else s)
    else routeCompletion s ing h

end Sys2Proof.Machine
end

