-- ==== Sys2Proof/Machine/Forwarding.lean ====
section
/-! DEFINITION. The forwarding decision of R97 at an ingress, and the arrival of completions. -/

namespace Sys2Proof.Machine

/-! ### Delivery inside the device (R99) -/

/-- Malformed at its target: FORMAT_UNSUPPORTED, and the rest of the message is discarded (R77). -/
def refuseMalformed (s : State) (h : Held) : State :=
  markBad (refusePacket s h St.formatUnsupported) (hdrKey h.pkt.hdr)

/-- Delivers a packet inside the device: its opcode and class, then its message. -/
def deliverHere (s : State) (h : Held) : State :=
  let hd := h.pkt.hdr
  if !opAllowed hd.op hd.cls then refusePacket s h St.formatUnsupported
  else match assemble s h.ingress (hdrKey hd) h.pkt with
  | .partial_ s => s
  | .malformed s => refuseMalformed s h
  | .whole s m => handOver s h m

/-- A KEYX request at a fabric port: consumed and applied to that port (R401). -/
def keyxArrive (s : State) (ing : Nat) (h : Held) : State :=
  let hd := h.pkt.hdr
  if (s.part hd.part.toNat).st = .sealing then
    let s := if 1 < pcntOf hd then markBad s (hdrKey hd) else s
    answerKeyx s ing hd St.busy
  else match assemble s h.ingress (hdrKey hd) h.pkt with
  | .partial_ s => s
  | .malformed s => answerKeyx (markBad s (hdrKey hd)) ing hd St.formatUnsupported
  | .whole s m =>
    if opxOf m.hdr = 1 ∨ opxOf m.hdr = 3 ∨ opxOf m.hdr = 4 then deliverMsg s h.ingress m
    else answerKeyx s ing m.hdr St.formatUnsupported

/-! ### The decision (R97) -/

/-- A coherence packet of this device has found no live port: the domains of its partition with that agent are held (R202 cause 2). -/
def agentLost (s : State) (h : Hdr) : State :=
  if h.cls = 2 ∧ h.src = devFid s then holdAgents s 2 fun _ p f => p == h.part.toNat && f == h.dst else s

/-- Routes a request or another packet that is no completion. -/
def routePacket (s : State) (ing : Nat) (h : Held) : State :=
  let hd := h.pkt.hdr
  if hd.mcast then replicate s ing h
  else
    let (v, hd', s) := decide1 s hd ing
    let h := { h with pkt := { h.pkt with hdr := hd' } }
    match v with
    | .deliver => deliverHere s h
    | .refuse st => refusePacket s h st
    | .stale => afterDiscard (countStale s ing hd) hd
    | .hopLimit => afterDiscard (countHopLimit s ing hd) hd
    | .noLive t => agentLost (afterDiscard (countNoLive s ing t) hd) hd
    | .forward o => forwardTo s ing o h

/-- RED at a host port: a request of C3 or C5 completes BUSY (R154). -/
def hostRed (ing : Nat) (h : Hdr) (c : Colour) : Bool := (ing == 128 || ing == 129) && c == .red && (h.cls == 3 || h.cls == 5)

/-- A memory or coherence request for this device whose home quill holds all that may wait there: it waits at ingress (R192). -/
def waitsHome (s : State) (h : Hdr) : Bool :=
  h.dst == devFid s && !h.mcast && isRequest h.op && h.cls ∈ [1#3, 3#3, 7#3] && homeFull s h

/-- A packet that is no completion: its colour, its acceptance (R178, R417), then its route. None: it waits. -/
def requestArrive (s : State) (ing : Nat) (h : Held) : Option State :=
  let x := meterPacket s ing h
  let h := { h with colour := x.1 }
  if hostRed ing h.pkt.hdr x.1 then some (refusePacket x.2 h St.busy)
  else if waitsHome s h.pkt.hdr then
    if ing = 128 ∨ ing = 129 then some (refusePacket x.2 h St.busy) else none
  else match acceptRequest x.2 ing h (isLocal s h.pkt.hdr) with
  | .go s => some (routePacket s ing h)
  | .ended s => some s
  | .wait =>
    if (ing = 128 ∨ ing = 129) ∧ tagFree s h.pkt.hdr.part.toNat ing = false then some (refusePacket x.2 h St.busy) else none

/-- What a unit originates enters its tile's packet buffer when that has room (R104, R105). -/
def hasRoom (s : State) (ing : Nat) (h : Held) : Bool :=
  decide (ing < 128) || decide (h.len ≤ freeSpace s h.tile.val h.input h.vc)

/-- Decides one packet, which has left its input. None: it waits undecided (R181, R426). -/
def decidePacket (s : State) (ing : Nat) (h : Held) : Option State :=
  let hd := h.pkt.hdr
  if !hasRoom s ing h then none
  else if isOwnKeyx s ing hd then some (keyxCompletion s h)
  else match ingressReject s ing h with
  | some s => some s
  | none =>
    if isCmplOp hd.op then
      let x := meterPacket s ing h
      some (completionArrive x.2 ing { h with colour := x.1 })
    else if ing < 128 ∧ hd.op = Op.keyx ∧ hd.cls = 0 then some (keyxArrive s ing h)
    else requestArrive s ing h

/-- Takes a packet out of its input. -/
def takeInput (s : State) (ing : Nat) (h : Held) : State := s.setInputQ ing ((s.inputQ ing).eraseP fun x => x.age == h.age)

/-- The first packet, among the heads of the VCs of an input, that need not wait (R107, R181). -/
def decideFirst (ing : Nat) : State → List Held → List Nat → State
  | s, [], _ => s
  | s, h :: hs, blocked =>
    if h.vc ∈ blocked then decideFirst ing s hs blocked
    else match decidePacket (takeInput s ing h) ing h with
    | some s => s
    | none => decideFirst ing (if hasRoom s ing h && !waitsHome s h.pkt.hdr then noteWait s ing h else s) hs (h.vc :: blocked)

/-- FORWARDING_DECISION at an ingress code. -/
def execForwardingDecision (ingress : BitVec 8) (s : State) : Host.Outcome State Fault Refusal :=
  .next (updateAllXoff (decideFirst ingress.toNat s (s.inputQ ingress.toNat) []))

/-- COMPLETION: a completion arrives at an ingress and is decided. A packet that is none, and one that must wait, have no effect. -/
def execCompletion (ingress : BitVec 8) (p : Packet) (s : State) : Host.Outcome State Fault Refusal :=
  .next (
    let ing := ingress.toNat
    if !isCmplOp p.hdr.op then s
    else
      let r := match (s.inputQ ing).find? fun x => x.pkt == p with
        | some h => decidePacket (takeInput s ing h) ing h
        | none =>
          let n := s.nextSerial
          decidePacket n.2 ing (mkHeld n.2 ing n.1 p.hdr.wireLen (if ing < 130 then .wire else .unit) none p)
      match r with
      | some s => updateAllXoff s
      | none => s)

end Sys2Proof.Machine
end

