-- ==== Sys2Proof/Machine/Link.lean ====
section
/-! DEFINITION. The link layer (02_lualyn_link.md): training and link states, link items, reception, link-level retry, and the
host bridge. -/

namespace Sys2Proof.Machine

/-! ### Link states (R39 to R42) -/

/-- ENABLE set: DISABLED → DETECT, at the first rate (R39, R40), while the data path runs (R566). -/
def portUp (s : State) (p : Nat) : State :=
  if (s.port p).st = .disabled ∧ s.power.state = 3 then
    s.modPort p fun st => { st with st := .detect, tryRate := firstRate s p, fails := 0 }
  else s

/-- ENABLE cleared: → DISABLED (R39). A DOWN item tells an ACTIVE peer: DEDUCED from R46. -/
def portOff (s : State) (p : Nat) : State :=
  if (s.port p).st = .active then portTo (sendItem s p 0x06 0) p .disabled 0 else portTo s p .disabled 0

/-- A write of ENABLE (0x3000.01). -/
def setPortEnable (s : State) (by_ : Caller) (p v : Nat) : Ans :=
  guardRole s (portOk s p && oprOver s by_ (portOwner s p)) <|
  guardRange s (decide (v < 2)) <|
  let s := s.setO (portObj p 0 1) v
  Ans.ok (if v = 1 then portUp s p else portOff s p)

def execPortEnable (by_ : Caller) (p : Port) (v : BitVec 8) (s : State) : Host.Outcome State Fault Refusal :=
  (setPortEnable s by_ p.val v.toNat).out by_

/-- A lane of the port is under self-test: the port stays in DETECT (R434). -/
def laneInTest (s : State) (p : Nat) : Bool := (List.range 4).any fun l => (s.unit (3 * 2 ^ 24 + 4 * p + l)).st == 1

/-- Signal on all lanes: DETECT → TRAIN (R39). -/
def execSignalDetect (p : Port) (s : State) : Host.Outcome State Fault Refusal :=
  .next (if (s.port p).st = .detect ∧ laneInTest s p = false then s.modPort p fun st => { st with st := .train } else s)

/-- Both ends trained: TRAIN → ALIGN; a port in RETRAIN goes on to its alignment (R39). -/
def execTrainComplete (p : Port) (s : State) : Host.Outcome State Fault Refusal :=
  .next (match (s.port p).st with
    | .train => s.modPort p fun st => { st with st := .align }
    | .retrain => s.modPort p fun st => { st with realign := true }
    | _ => s)

/-- A TRAIN or ALIGN failure: counted, → DETECT; after two in a row at one rate the other permitted rate is tried (R40). -/
def trainFail (s : State) (p : Nat) : State :=
  let st := s.port p
  let n := st.fails + 1
  let other := 3 - st.tryRate
  let st := { st with st := .detect, fails := if 2 ≤ n then 0 else n,
                      tryRate := if 2 ≤ n && ratePermitted s p other then other else st.tryRate }
  (s.setPort p st).bump (portObj p 1 7) 1

def execTrainTimeout (p : Port) (s : State) : Host.Outcome State Fault Refusal :=
  .next (if (s.port p).st = .train then trainFail s p else s)

/-- A port enters ACTIVE: LINK_UP, and LINK_FALLBACK at 106.25 Gb/s while 212.5 Gb/s is permitted (R96). -/
def enterActive (s : State) (p : Nat) : State :=
  let st := s.port p
  let s := s.setPort p { st with st := .active, realign := false, fails := 0, rate := st.tryRate }
  let s := raise s 0x0101 (portOwner s p) [(1, p), (1, st.tryRate)]
  let s := if st.tryRate = 2 ∧ ratePermitted s p 1 then raise s 0x0103 (portOwner s p) [(1, p)] else s
  updateXoff s p

/-- The receiver has found the blocks and waits for the beginning of a unit (R44, R45). -/
def startFraming (st : PortSt) : PortSt := { st with resync := true, rxHeld := [], rxBad := false, lockRun := 0 }

/-- FEC lock, deskew and block lock: ALIGN → EXCHANGE, or RETRAIN → ACTIVE without EXCHANGE (R39). -/
def blockLocked (s : State) (p : Nat) : State :=
  match (s.port p).st with
  | .align => s.modPort p fun st => { startFraming st with st := .exchange, capxRun := 0 }
  | .retrain => if (s.port p).realign then enterActive (s.modPort p startFraming) p else s
  | _ => s

def execBlockLock (p : Port) (s : State) : Host.Outcome State Fault Refusal := .next (blockLocked s p)

/-- A port that aligns after RETRAIN exceeds the bound of ALIGN: it goes down to DETECT, and the failure is counted (R39, R40). -/
def realignFail (s : State) (p : Nat) : State :=
  let rate := (s.port p).tryRate
  let s := (portTo s p .detect 1).bump (portObj p 1 7) 1
  s.modPort p fun st => { st with fails := if st.tryRate = rate then 1 else 0 }

def execAlignTimeout (p : Port) (s : State) : Host.Outcome State Fault Refusal :=
  .next (match (s.port p).st with
    | .align => trainFail s p
    | .retrain => if (s.port p).realign then realignFail s p else s
    | _ => s)

/-- What a Skomir says in CAPX (R49): PVER 0b0010, its FID with endpoint byte 0, and PROLE 1. -/
def ownCapx (s : State) (p : Nat) : Capx :=
  { pfid := BitVec.ofNat 24 ((devFid s).toNat / 256 * 256), pport := BitVec.ofNat 8 p, pver := 2,
    prate := BitVec.ofNat 2 (s.port p).tryRate, pccls := BitVec.ofNat 3 (s.o (portObj p 0 3)),
    penc := s.o (portObj p 0 4) == 1, prole := 1 }

/-- TSPEC of a CAPX item (R49). -/
def capxTspec (s : State) (p : Nat) : BitVec 64 := BitVec.ofNat 64 (capxNum (ownCapx s p))

/-- A CAPX item every 1 µs in EXCHANGE, and in HALTED (R39). -/
def execCapxSendTick (p : Port) (s : State) : Host.Outcome State Fault Refusal :=
  .next (match (s.port p).st with
    | .exchange | .halted => sendItem s p 0x04 (capxTspec s p)
    | _ => s)

/-! ### Link items (R46 to R48, R55, R56) -/

/-- Ligature records count an endpoint branch once an ACKSEQ covers its copy (R130). -/
def ligAcked (s : State) (p : Nat) (r : TxRec) : State :=
  if r.pkt.hdr.mcast then
    match s.ligRecs.find? fun x => x.key == hdrKey r.pkt.hdr && !x.closed &&
        x.open_.any (fun b => match b with | .endpoint q => q.val == p | _ => false) with
    | some x => updateLig s { x with deliv := cap4095 (x.deliv + 1), open_ := x.open_.filter fun b =>
        match b with | .endpoint q => q.val != p | _ => true }
    | none => s
  else s

/-- Splits a replay buffer after the packet an ACKSEQ names; none: it names none held. -/
def splitAck : List TxRec → BitVec 16 → Option (List TxRec × List TxRec)
  | [], _ => none
  | r :: rs, a =>
    if r.lseq = a then some ([r], rs)
    else match splitAck rs a with | some (x, y) => some (r :: x, y) | none => none

/-- An ACKSEQ releases every packet up to it (R55). -/
def applyAck (s : State) (p : Nat) (a : BitVec 16) : State :=
  let st := s.port p
  match splitAck st.unacked a with
  | none => s
  | some (done, rest) =>
    let s := s.setPort p { st with unacked := rest, resend := st.resend.filter fun r => rest.any fun x => x.lseq == r.lseq }
    done.foldl (fun s r => ligAcked s p r) s

/-- Applies XOFF and ACKSEQ of a 16-byte item (R48); on a port in service it is a sign of life of the peer (R455). -/
def applyItem (s : State) (p : Nat) (i : LinkItem) : State :=
  let s := s.modPort p fun st => { st with xoffRx := i.xoff }
  let s := if i.ackv then applyAck s p i.ackseq else s
  if linkCarries s p then portHeard s p else s

/-- States in which a port reads link items: block lock is held (R39). -/
def linkReads (s : State) (p : Nat) : Bool :=
  match (s.port p).st with | .exchange | .active | .retrain | .halted => true | _ => false

/-- A 16-byte item: ignored whole when its LCRC fails; else its XOFF and ACKSEQ apply whatever its LTYPE, then `f` (R48). -/
def withItem (s : State) (p : Nat) (i : LinkItem) (f : State → State) : State :=
  if i.lcrcOk && linkReads s p then f (applyItem s p i) else s

/-- What a port records of a CAPX item (R49, R50, R95). DESIGN CHOICE (notes/assumptions/70.md): a PCCLS of 5 to 7, which R49 does not
give, counts as a class above 4. -/
def noteCapx (s : State) (p : Nat) (c : Capx) : State :=
  s.modPort p fun st =>
    { st with capxLast := some c, capxRun := if st.capxLast = some c then st.capxRun + 1 else 1, peerFid := c.pfid,
              peerPort := c.pport, peerRole := c.prole,
              effClass := BitVec.ofNat 3 (max (s.o (portObj p 0 3)) c.pccls.toNat) }

/-- After three identical CAPX items: ACTIVE with LSEQ 0 when the versions are compatible, else HALTED (R39, R42, R52). -/
def finishExchange (s : State) (p : Nat) (c : Capx) : State :=
  if c.pver &&& 2 ≠ 0 then
    enterActive (s.modPort p fun st => { st with txLseq := 0, rxLseq := 0, unacked := [], resend := [], refusing := false }) p
  else
    raise (s.modPort p fun st => { st with st := .halted }) 0x0105 (portOwner s p) [(1, p), (1, c.pver.toNat)]

/-- A CAPX item counts toward the exchange in EXCHANGE only (R39). -/
def capxItem (s : State) (p : Nat) (i : LinkItem) (c : Capx) : State :=
  withItem s p i fun s =>
    if (s.port p).st = .exchange then
      let s := portHeard (noteCapx s p c) p
      if 3 ≤ (s.port p).capxRun then finishExchange s p c else s
    else s

def execCapx (p : Port) (i : LinkItem) (c : Capx) (s : State) : Host.Outcome State Fault Refusal := .next (capxItem s p i c)

/-- EXCHANGE has lasted 1 ms: → DETECT (R39). -/
def execExchangeTimeout (p : Port) (s : State) : Host.Outcome State Fault Refusal :=
  .next (if (s.port p).st = .exchange then s.modPort p fun st => { st with st := .detect } else s)

/-- ACTIVE → RETRAIN with a cause of R41. The peer is asked to retrain: DEDUCED from R46. -/
def enterRetrain (s : State) (p cause : Nat) : State :=
  if (s.port p).st = .active then
    let s := if cause = 3 then s else sendItem s p 0x05 0
    raise (s.modPort p fun st => { st with st := .retrain, realign := false, nakTxRun := 0, nakRxRun := 0 }) 0x0104
      (portOwner s p) [(1, p), (1, cause)]
  else s

/-- FEC_CORRECTED and FEC_UNCORR count the codewords of a reception (0x3002.01, 0x3002.02). -/
def countFec (s : State) (p : Nat) (f : Fec) : State :=
  (s.bump (portObj p 2 1) f.corrected.toNat).bump (portObj p 2 2) f.uncorr.toNat

/-- More than 64 uncorrectable codewords within 1 ms: cause 1 (R41). FEC_UNCORR counts them with the receptions that report them. -/
def execUncorrectableLimit (p : Port) (s : State) : Host.Outcome State Fault Refusal := .next (enterRetrain s p 1)

def rtrnItem (s : State) (p : Nat) (i : LinkItem) : State := withItem s p i fun s => enterRetrain s p 3

def execRtrn (p : Port) (i : LinkItem) (s : State) : Host.Outcome State Fault Refusal := .next (rtrnItem s p i)

/-- A write of RETRAIN (0x3000.05): ACTIVE → RETRAIN, HALTED → DETECT; other states are unchanged (R95). -/
def setRetrain (s : State) (by_ : Caller) (p v : Nat) : Ans :=
  guardRole s (portOk s p && oprOver s by_ (portOwner s p)) <|
  guardRange s (decide (v = 1)) <|
  Ans.ok (match (s.port p).st with
    | .active => enterRetrain s p 4
    | .halted => s.modPort p fun st => { st with st := .detect }
    | _ => s)

def execRetrain (by_ : Caller) (p : Port) (v : BitVec 8) (s : State) : Host.Outcome State Fault Refusal :=
  (setRetrain s by_ p.val v.toNat).out by_

/-- RETRAIN has lasted 100 ms: → DETECT (R39). -/
def execRetrainTimeout (p : Port) (s : State) : Host.Outcome State Fault Refusal :=
  .next (if (s.port p).st = .retrain then portTo s p .detect 1 else s)

/-- A DOWN item takes a port in ACTIVE or RETRAIN to DETECT (R39, R46). -/
def downItem (s : State) (p : Nat) (i : LinkItem) : State :=
  withItem s p i fun s => if linkCarries s p then portTo s p .detect 1 else s

def execDown (p : Port) (i : LinkItem) (s : State) : Host.Outcome State Fault Refusal := .next (downItem s p i)

def execLossOfSignal (p : Port) (s : State) : Host.Outcome State Fault Refusal :=
  .next (if (s.port p).st = .active then portTo s p .detect 1 else s)

def execBlockLockLoss (p : Port) (s : State) : Host.Outcome State Fault Refusal :=
  .next (if (s.port p).st = .active then portTo s p .detect 1 else s)

/-! ### Reception (R45, R53, R54, R58, R59, R84 to R89, R106) -/

/-- Eight consecutive NAKs for one LSEQ: LLR_STORM, and RETRAIN (R41, R96). -/
def llrStorm (s : State) (p : Nat) (lseq : BitVec 16) (run : Nat) : State :=
  if run = 8 then enterRetrain (raise s 0x0106 (portOwner s p) [(1, p), (2, lseq.toNat)]) p 2 else s

/-- The receiver refuses: it discards from here on and sends a NAK, at most one per LSEQ within 4 µs (R54). -/
def refuseLink (s : State) (p : Nat) : State :=
  let st := s.port p
  let q := st.rxLseq
  let recent := match st.lastNak with | some (l, t) => l == q && decide (s.time < t + 4 * us) | none => false
  if recent then s.setPort p { st with refusing := true }
  else
    let run := match st.lastNak with | some (l, _) => if l = q then st.nakTxRun + 1 else 1 | none => 1
    let s := s.setPort p { st with refusing := true, lastNak := some (q, s.time), nakTxRun := run }
    let s := sendItem (s.bump (portObj p 2 3) 1) p 0x02 (BitVec.ofNat 64 (q.toNat * 2 ^ 48))
    llrStorm s p q run

/-- A framing error: counted; the unit in reception is discarded, and the receiver waits for the next FPTR (R45). In ACTIVE what
follows is refused until a retry (R54). -/
def framingError (s : State) (p : Nat) : State :=
  let s := s.modPort p fun st => { st with rxHeld := [], rxBad := false, resync := true }
  let s := raiseLimited (s.bump (portObj p 2 8) 1) ms p 0x0107 (portOwner s p) [(1, p)]
  if (s.port p).st = .active then refuseLink s p else s

/-- The receive count of a slot advances (R86). -/
def advanceRx (s : State) (p part slot : Nat) : State :=
  let k := s.key p part slot
  if k.st = 0 ∨ k.st = 4 then s else s.setKey p part slot { k with rcnt := k.rcnt + 1 }

/-- A discard under R88 or R89: counted, with LINK_AUTH_FAIL. -/
def authFail (s : State) (p : Nat) (h : Hdr) : State :=
  raiseLimited (s.bump (portObj p 2 7) 1) ms p 0x0108 (portOwner s p) [(1, p), (1, h.part.toNat), (1, h.ks.toNat)]

/-- A copy that ends with a stomped CRC leaves by an output: it takes an LSEQ and tokens like any packet that cuts through (R58,
R101, R149). -/
def sendStomped (s : State) (o : Nat) (h : Held) : State :=
  let r := sealFor s o h
  let w := { r.1 with crc := ~~~ r.1.crc }
  let s := chargeTokens (r.2.bump (okey 0x3805 8) 1) o h.pkt.hdr.cls.toNat (egressLen s o h)
  let st := s.port o
  (s.setPort o { st with txLseq := st.txLseq + 1, unacked := st.unacked ++ [{ lseq := st.txLseq, pkt := w }] }).emit
    (.stomped ⟨o % 128, by omega⟩ w)

/-- A packet that fails at ingress after it began to leave by cut-through: it was metered, and on C7 passed random early drop, before
it left; its copy ends stomped (R58, R101, R152, R156). -/
def stompCopy (s : State) (p : Nat) (pk : Packet) : State :=
  let h := mkHeld s p s.serial pk.hdr.wireLen .wire none pk
  if (s.inputQ p).isEmpty && !pk.hdr.mcast && pk.hdr.op != Op.keyx && (ingressReject s p h).isNone then
    let d := decide1 s pk.hdr p
    match d.1 with
    | .forward o =>
      let h := { h with pkt := { pk with hdr := d.2.1 }, vc := vcOf d.2.1 }
      if cutsThrough d.2.2 p o h then
        let x := meterPacket d.2.2 p h
        let r := if pk.hdr.cls.toNat = 7 then redDecide x.2 o x.1 (cellsOf h.len) else .queue
        let s := if pk.hdr.cls.toNat = 7 then countC7 x.2 o else x.2
        if r = .queue then sendStomped s o h else countRed s o x.1 r
      else s
    | _ => s
  else s

/-- The clear form a receiver has of a packet whose tag has not been checked. -/
def rawClear (s : State) (p : Nat) (w : WirePacket) : Packet :=
  if w.hdr.ks = 0 then { hdr := w.hdr, payload := w.payload }
  else
    let k := s.key p w.hdr.part.toNat w.hdr.ks.toNat
    { hdr := { w.hdr with ks := 0 }, payload := gcmXor k.rxKey (linkNonce k.rxSalt k.rcnt) 0 w.payload }

/-- The packet's LSEQ is taken (R53). -/
def takeLseq (s : State) (p : Nat) : State :=
  s.modPort p fun st => { st with rxLseq := st.rxLseq + 1, refusing := false, ackOwed := st.ackOwed + 1 }

/-- A header without the reserved bits [1:0] of FLG (R10, R69). -/
def clearRsv (h : Hdr) : Hdr := { h with flg := h.flg &&& 0xFC }

/-- An accepted packet waits for its decision at its ingress, holding the bytes it arrived with; reserved bits are dropped (R10). -/
def acceptPacket (s : State) (p len : Nat) (pk : Packet) : State :=
  let n := s.nextSerial
  let pk := { pk with hdr := clearRsv pk.hdr }
  updateAllXoff (n.2.setInputQ p (n.2.inputQ p ++ [mkHeld s p n.1 len .wire none pk]))

/-- A packet accepted at the link level: its slot and tag (R84, R88, R89, R389). -/
def checkTag (s : State) (p : Nat) (w : WirePacket) : State :=
  let h := w.hdr
  if h.ks = 0 then
    if (s.o (portObj p 0 4) = 1 ∧ ¬ keyExempt h) ∨ mustEncrypt s h then authFail s p h
    else acceptPacket s p h.wireLen { hdr := h, payload := w.payload }
  else
    let k := s.key p h.part.toNat h.ks.toNat
    if k.st = 0 ∨ k.st = 4 then authFail s p h
    else
      match openKeyed k.rxKey k.rxSalt k.rcnt w with
      | some pk =>
        acceptPacket (advanceRx s p h.part.toNat h.ks.toNat) p h.wireLen { pk with hdr := { pk.hdr with ks := 0 } }
      | none => stompCopy (advanceRx (authFail s p h) p h.part.toNat h.ks.toNat) p (rawClear s p w)

/-- The packet cannot be held: its VC is under XOFF and it does not fit (R106). -/
def xoffViolation (s : State) (p : Nat) (h : Hdr) : State :=
  if (s.port p).xoffTx.getLsbD (vcOf h) then
    raiseLimited (s.bump (okey 0x3805 6) 1) ms p 0x0209 (portOwner s p) [(1, p), (1, vcOf h)]
  else s

/-- Reception of a packet whose framing is good (R53, R54, R58, R59, R106). -/
def receivePacket (s : State) (p : Nat) (lseq : BitVec 16) (w : WirePacket) : State :=
  let s := portHeard s p
  if lseq ≠ (s.port p).rxLseq then refuseLink s p
  else if w.codewordsOk && w.crc == ~~~ w.goodCrc then
    let s := takeLseq ((stompCopy s p (rawClear s p w)).bump (portObj p 2 6) 1) p
    if w.hdr.ks = 0 then s else advanceRx s p w.hdr.part.toNat w.hdr.ks.toNat
  else if !w.codewordsOk || w.crc != w.goodCrc then
    let s := stompCopy s p (rawClear s p w)
    refuseLink (if w.crc = w.goodCrc then s else s.bump (portObj p 2 5) 1) p
  else if freeSpace s (p / 8) (p % 8) (vcOf w.hdr) < w.hdr.wireLen then refuseLink (xoffViolation s p w.hdr) p
  else checkTag (takeLseq s p) p w

/-! ### Items in service (R46, R51, R55, R56) -/

def lstatItem (s : State) (p : Nat) (i : LinkItem) : State := withItem s p i id

def execLstat (p : Port) (i : LinkItem) (s : State) : Host.Outcome State Fault Refusal := .next (lstatItem s p i)

/-- Resends from the head of what is to be resent while XOFF is clear (R55, R65, R143). -/
def drainResend (s : State) (p : Nat) : List TxRec → State
  | [] => s.modPort p fun st => { st with resend := [] }
  | r :: rs =>
    if vcClear s p (vcOf r.pkt.hdr) then
      drainResend ((s.bump (portObj p 2 4) 1).emit (.packet ⟨p % 128, by omega⟩ r.lseq r.pkt)) p rs
    else s.modPort p fun st => { st with resend := r :: rs }

/-- The held packets from an LSEQ onward. -/
def fromLseq : List TxRec → BitVec 16 → List TxRec
  | [], _ => []
  | r :: rs, q => if r.lseq = q then r :: rs else fromLseq rs q

/-- A NAK: byte-identical packets from NAKSEQ onward go before any new packet (R55). -/
def nakReceived (s : State) (p : Nat) (q : BitVec 16) : State :=
  let st := s.port p
  let run := if st.nakRxLast = some q then st.nakRxRun + 1 else 1
  let s := s.setPort p { st with nakRxLast := some q, nakRxRun := run }
  let s := if st.st = .active then drainResend s p (fromLseq st.unacked q)
    else s.modPort p fun st => { st with resend := fromLseq st.unacked q }
  llrStorm s p q run

/-- A NAK concerns a port that carries packets. -/
def nakItem (s : State) (p : Nat) (i : LinkItem) (q : BitVec 16) : State :=
  withItem s p i fun s => if linkCarries s p then nakReceived s p q else s

def execNak (p : Port) (i : LinkItem) (nakseq : BitVec 16) (s : State) : Host.Outcome State Fault Refusal := .next (nakItem s p i nakseq)

def hbeatItem (s : State) (p : Nat) (i : LinkItem) (count : BitVec 32) : State :=
  withItem s p i fun s => s.modPort p fun st => { st with hbRx := some count }

def execHbeat (p : Port) (i : LinkItem) (count : BitVec 32) (s : State) : Host.Outcome State Fault Refusal :=
  .next (hbeatItem s p i count)

/-- 10 µs have passed without a packet or item sent: an HBEAT (R51). -/
def execHbeatSend (p : Port) (s : State) : Host.Outcome State Fault Refusal :=
  .next (if (s.port p).st = .active then
    let n := (s.port p).hbCount
    (sendItem s p 0x03 (BitVec.ofNat 64 (n.toNat * 2 ^ 32))).modPort p fun st => { st with hbCount := n + 1 }
  else s)

/-- An item with ACKV while accepted packets are unacknowledged (R56). -/
def execAckSend (p : Port) (s : State) : Host.Outcome State Fault Refusal :=
  .next (if (s.port p).st = .active ∧ 0 < (s.port p).ackOwed then sendItem s p 0x01 0 else s)

/-- No ACKSEQ has advanced for 16 µs: resend from the oldest unacknowledged packet (R55). -/
def execLinkReplayTimeout (p : Port) (s : State) : Host.Outcome State Fault Refusal :=
  .next (if (s.port p).st = .active then drainResend s p (s.port p).unacked else s)

/-! ### Link blocks (R39, R43 to R46) -/

/-- A 16-byte link item whose bytes have been read (R46, R47). -/
def itemRead (s : State) (p : Nat) (bs : List Byte) : State :=
  let x := readItem bs
  let i := x.2.1
  let t := x.2.2
  match x.1.toNat with
  | 1 => lstatItem s p i
  | 2 => nakItem s p i (t.extractLsb' 48 16)
  | 3 => hbeatItem s p i (t.extractLsb' 32 32)
  | 4 => capxItem s p i (readCapx t)
  | 5 => rtrnItem s p i
  | 6 => downItem s p i
  | _ => s

/-- A whole unit has been read: a packet, which flows in ACTIVE only (R39), a 16-byte item, or IDLE. -/
def unitRead (s : State) (p : Nat) (lseq : BitVec 16) (bad : Bool) (bs : List Byte) : State :=
  if 64 ≤ (bs.getD 0 0).toNat then
    if (s.port p).st = .active then receivePacket s p lseq (WirePacket.ofFrame bs !bad) else s
  else if bs.length = 16 then itemRead s p bs
  else s

/-- Reads body words: each next boundary follows from the length of the unit before it (R45). `lseqs` are those of the packets that
have yet to begin. Words of a port that has left the states in which it reads are lost. -/
def readWords (p : Nat) : List (List Byte × Bool) → List (BitVec 16) → State → State
  | [], _, s => s
  | w :: ws, lseqs, s =>
    let st := s.port p
    let bs := st.rxHeld ++ w.1
    let begins := st.rxHeld.isEmpty && decide (64 ≤ (bs.getD 0 0).toNat)
    let lseq := if begins then lseqs.headD st.rxLseq else st.rxSeq
    let bad := st.rxBad || w.2
    let rest := if begins then lseqs.tail else lseqs
    if !linkReads s p then s
    else match unitLen bs with
      | none => framingError s p
      | some n =>
        if bs.length < n then readWords p ws rest (s.setPort p { st with rxHeld := bs, rxBad := bad, rxSeq := lseq })
        else readWords p ws rest (unitRead (s.setPort p { st with rxHeld := [], rxBad := false }) p lseq bad bs)

/-- The body words of a block, each with whether an uncorrectable codeword carried it. -/
def bodyWords (b : LinkBlock) : List (List Byte × Bool) :=
  (List.range 128).map fun k => (slice b.bytes (2 + 4 * k) 4, b.bad.getLsbD k)

/-- A block read under block lock. A failed HCHK is a framing error, and no word of the block is read; a receiver that resynchronises
begins at FPTR (R45). DESIGN CHOICE (notes/assumptions/71.md): a reserved FPTR names no word. -/
def blockRead (s : State) (p : Nat) (b : LinkBlock) : State :=
  let h := readBlockHeader b.bytes
  if !h.2.2 then framingError s p
  else
    let s := s.modPort p fun st => { st with rxBcnt := some h.2.1 }
    if !(s.port p).resync then readWords p (bodyWords b) b.lseqs s
    else if h.1 < 128 then
      readWords p ((bodyWords b).drop h.1) b.lseqs (s.modPort p fun st => { st with resync := false, rxHeld := [], rxBad := false })
    else s

/-- A block while the receiver seeks lock: 64 consecutive ones with valid HCHK and successive BCNT give it (R39). -/
def blockSeek (s : State) (p : Nat) (b : LinkBlock) : State :=
  let h := readBlockHeader b.bytes
  let st := s.port p
  let run := if !h.2.2 then 0 else if st.rxBcnt = some (h.2.1 - 1) then st.lockRun + 1 else 1
  let s := s.setPort p { st with rxBcnt := if h.2.2 then some h.2.1 else none, lockRun := run }
  if 64 ≤ run then blockLocked s p else s

/-- A link block arrives on a port (R39, R43 to R45); before ALIGN the receiver finds no blocks. -/
def receiveBlock (s : State) (p : Nat) (f : Fec) (b : LinkBlock) : State :=
  let st := s.port p
  if st.st = .align ∨ (st.st = .retrain ∧ st.realign) then blockSeek (countFec s p f) p b
  else if linkReads s p then blockRead (countFec s p f) p b
  else s

/-- PACKET_RECEIVE: packets flow in ACTIVE (R39); a reserved VER or PLEN is a framing error (R45). -/
def execPacketReceive (p : Port) (r : Rx) (s : State) : Host.Outcome State Fault Refusal :=
  .next (match r with
    | .block f b => receiveBlock s p f b
    | .badFrame => if (s.port p).st = .active then framingError s p else s
    | .packet lseq f w =>
      if (s.port p).st = .active then
        let s := countFec s p f
        if w.hdr.ver ≠ 1 ∨ 128 < w.hdr.plen.toNat ∨ w.payload.length ≠ 16 * w.hdr.plen.toNat then framingError s p
        else receivePacket s p lseq w
      else s)

/-- A message still incomplete 1 ms after its first packet: discarded without a completion (R77). -/
def execMsgAssemblyTimeout (k : ReqKey) (s : State) : Host.Outcome State Fault Refusal :=
  .next (if s.asm.any (fun a => a.key == k) then
    let s := { s with asm := s.asm.filter fun a => a.key != k }
    let s := if (findTag s k).isSome then s else dropJournal s k
    raise s 0x010B k.part.toNat [(4, k.src.toNat), (1, k.part.toNat), (2, k.tag.toNat)]
  else s)

/-! ### Host bridge (R91 to R94) -/

/-- A packet a host may send: a C0 TRIGGER, or a request of C3, C5 or C7, in clear and whole (R91, R92). DESIGN CHOICE
(notes/assumptions/76.md): a datagram that is no such packet (another VER, KS not 0, a reserved PLEN, a payload of another length)
is discarded and counted as R92 gives for its class. -/
def hostMaySend (d : Datagram) : Bool :=
  let h := d.pkt.hdr
  h.ver == 1 && h.ks == 0 && decide (h.plen.toNat ≤ 128) && d.pkt.payload.length == 16 * h.plen.toNat &&
    ((h.cls == 0 && h.op == Op.trigger) || ((h.cls == 3 || h.cls == 5 || h.cls == 7) && isRequest h.op))

/-- Requests of a host that wait at its input and have no entry yet. -/
def hostWaiting (s : State) (h : Nat) : List ReqKey :=
  (((s.inputQ (128 + h)).filter fun x => hasCmpl x.pkt.hdr.op && (findTag s (hdrKey x.pkt.hdr)).isNone).map
    fun x => hdrKey x.pkt.hdr).eraseDups

/-- Outstanding messages of a host port: those with an entry, and those still to be decided (R94). -/
def hostOutstanding (s : State) (h : Nat) : Nat :=
  (s.tags.filter fun t => match t.ret with | some r => r.h.val == h | none => false).length + (hostWaiting s h).length

/-- The packet begins a message that its host port does not hold yet. -/
def hostNew (s : State) (h : Nat) (hd : Hdr) : Bool :=
  hasCmpl hd.op && (findTag s (hdrKey hd)).isNone && !(hdrKey hd ∈ hostWaiting s h)

/-- Adds a host's packet to its ingress with the address its completion returns to (R93). -/
def hostAccept (s : State) (h : HostPort) (d : Datagram) : State :=
  enqueueIn (s.bump (hostObj h 1 5) 1) (128 + h.val) .wire (some { h := h, ip := d.ip, udp := d.udp })
    { d.pkt with hdr := clearRsv d.pkt.hdr }

/-- A datagram in the clear form (R91 to R94): a request beyond the limit completes with BUSY, once for its message. -/
def hostDatagram1 (s : State) (h : HostPort) (d : Datagram) : State :=
  let hd := d.pkt.hdr
  if !(s.hostP h).up then s
  else if !hostMaySend d || hd.src != hostFid s h then
    raiseLimited (s.bump (hostObj h 1 6) 1) ms h.val 0x010A (hostOwner s h) [(1, 128 + h.val)]
  else if hdrKey hd ∈ s.badMsgs then s
  else if hostNew s h hd ∧ 4096 ≤ hostOutstanding s h then
    refuseOnce (s.bump (hostObj h 1 7) 1)
      (mkHeld s (128 + h.val) s.serial hd.wireLen .wire (some { h := h, ip := d.ip, udp := d.udp }) d.pkt) St.busy
  else hostAccept s h d

/-- A frame that MACsec drops: counted in 0x2004.02 only, and reported at most once per 1 ms per port (R407). -/
def macDrop (s : State) (h : HostPort) : State :=
  let p := hostOwner s h.val
  raiseLimited (s.bump (partObj p 4 2) 1) ms h.val 0x080B p [(1, 128 + h.val)]

/-- HOST_DATAGRAM: a datagram without MACsec protection, which a host port that applies MACsec does not accept (R91, R407). -/
def execHostDatagram (h : HostPort) (d : Datagram) (s : State) : Host.Outcome State Fault Refusal :=
  .next (if (s.hostP h).up ∧ (s.mac h).on then macDrop s h else hostDatagram1 s h d)

/-- The link of a host port comes up at a permitted rate while ENABLE is set, or goes down (R160, R513). -/
def execHostLinkChange (h : HostPort) (up : Bool) (rate : BitVec 2) (s : State) : Host.Outcome State Fault Refusal :=
  .next (if up then
    if s.power.state = 3 ∧ s.o (hostObj h 0 1) = 1 ∧ (rate = 1 ∨ rate = 2) ∧ bit (s.o (hostObj h 0 2)) (rate.toNat - 1) then
      s.setHostP h { up := true, rate := rate.toNat }
    else s
  else hostDown s h)

/-- A write of a host port's ENABLE: clearing it takes the link down (R513). -/
def setHostEnable (s : State) (by_ : Caller) (h v : Nat) : Ans :=
  guardRole s (oprOver s by_ (hostOwner s h)) <|
  guardRange s (decide (v < 2)) <|
  let s := s.setO (hostObj h 0 1) v
  Ans.ok (if v = 1 then s else hostDown s h)

def execHostEnable (by_ : Caller) (h : HostPort) (v : BitVec 8) (s : State) : Host.Outcome State Fault Refusal :=
  (setHostEnable s by_ h.val v.toNat).out by_

end Sys2Proof.Machine
end

