-- ==== Sys2Proof/Machine/Reset.lean ====
section
/-! DEFINITION. The end and the return of the data path: what a reset, a loss of power or of the clock ends (R413, R475, R476),
bring-up (R566, R567), and the pins that depend on it (R572). -/

namespace Sys2Proof.Machine

/-! ### What a reset ends (R413, R475, R476) -/

/-- Objects of the coherence domains of a partition. -/
def domainKey (s : State) (p k : Nat) : Bool :=
  (List.range 32).any fun d => domainPart s d == p && decide (domObj d 0 0 ≤ k) && decide (k < domObj (d + 1) 0 0)

/-- A folio record after its owner has ended: a remote one is REVOKED and will be filled, another is cleared (R413). -/
def folioEnded (p : Nat) (f : Folio) : Folio :=
  if f.st = .free ∨ folOwner f.word ≠ p then f
  else if folHomek f.word = 0 then {}
  else { f with st := .revoked, refill := true, clearing := false, fills := [] }

/-- A reset ends a partition: its keys and credentials are erased, its records cleared, its units return (R410, R413, R475). -/
def endPartition (s : State) (p : Nat) : State :=
  let s := { s with folios := Sparse.mapVals {} (folioEnded p) s.folios, obj := Sparse.drop (domainKey s p) s.obj }
  let s := clearRecords (endPrt (macOff (eraseKeys s p) p) p) p
  { s.setPart p {} with obj := Sparse.drop (ownKey p) s.obj, blob := Sparse.drop (ownKey p) s.blob }

/-- Ends every partition other than 0 (R413). -/
def endPartitions (s : State) : State :=
  ((List.range 32).filter fun p => p != 0 && (s.part p).st != .free).foldl endPartition s

/-- A route slot after a reset (R475). -/
def slotReturned (r : RouteSlot) : RouteSlot := if r.st = .draining then {} else r

/-- A table after a reset: its counters are zero; SWITCHING returns SERVING, and RETIRING has nothing left to wait for (R475). -/
def tableReturned (t : Table) : Table :=
  let t := { t with oldGens := [], requests := 0, hits := [0, 0, 0, 0], defUsed := 0, missing := 0, invalid := 0 }
  match t.st with
  | .switching => { t with st := .serving, staged := none, wstaged := none }
  | .retiring => {}
  | _ => t

/-- A folio after a reset (R475). -/
def folioReturned (f : Folio) : Folio :=
  if f.st = .draining ∨ f.st = .scrubbing then { f with st := .revoked, refill := true, clearing := false, fills := [] } else f

/-- An object after a reset (R475). -/
def objReturned (o : Obj) : Obj :=
  { o with st := if o.st = .moving then .split else o.st, pending := false, sched := none }

/-- A meter after a reset: its last record, buckets at their ceilings (R475). -/
def meterReturned (v : MeterSt) : MeterSt :=
  let w := v.staged.getD v.word
  if meterValid w then { word := w, tp := peakCeiling w, tc := commitCeiling w } else { word := w }

/-- A basis slot after a reset: its record, with every generation entry empty (R475). -/
def basisReturned (b : BasisSlot) : BasisSlot := { b with entries := [{}, {}, {}, {}] }

/-- The object of a counter of the data path; the identity, dictionary and Scribe objects count on (R476). -/
def dataPathCounter (k : Nat) : Bool :=
  let ix := k / 256
  decide (0x2000 ≤ ix) && !(decide (0x3500 ≤ ix) && decide (ix < 0x3600)) && ix != 0xB000 && k != okey 0xA100 5

/-- The buckets of an output start at their ceilings. -/
def fillBuckets (s : State) (o : Nat) : State :=
  s.setOut o { s.outSt o with tokens := (List.range 9).map fun b => (bucketCeiling s o b : Int) }

/-- A port that carried traffic goes down to DISABLED (R60). -/
def portLost (s : State) (p : Nat) : State :=
  if linkCarries s p then raise s 0x0102 (portOwner s p) [(1, p), (1, 0)] else s

/-- Raises FOLIO_REVOKED for the records that have entered REVOKED since `old` (R221). -/
def noteRevoked (old : State) (s : State) : State :=
  (s.folios.filter fun e => e.2.st == .revoked && (old.folio e.1).st != .revoked).foldl
    (fun s e => raise s 0x0306 (folOwner e.2.word) [(2, e.1)]) s

/-- Everything the data path holds beside its records and settings is lost, and the records return as R475 says. -/
def wipe (s : State) : State :=
  { s with
    ports := [], inq := [], spine := [], spinePtr := [], outs := [], holds := [], draws := [], notices := [], asm := [], badMsgs := []
    delivered := [], tags := [], late := [], journal := [], ligRecs := [], opRecs := [], dir := [], txns := [], cohWait := []
    reissues := [], vloads := [], waitPubs := [], ctxs := [], chunks := [], quills := [], moves := [], moveQ := [], transitWait := []
    basisJobs := [], encJobs := [], expanders := [], expResps := [], hostSt := [], grandfathered := [], strags := [], kx := []
    rawOut := [], hbHeard := [], domains := []
    slot0 := slotReturned s.slot0
    slot1 := slotReturned s.slot1
    tables := Sparse.mapVals {} tableReturned s.tables
    folios := Sparse.mapVals {} folioReturned s.folios
    objects := Sparse.mapVals {} objReturned s.objects
    meters := Sparse.mapVals {} meterReturned s.meters
    slots := Sparse.mapVals {} basisReturned s.slots
    qos := s.obj.filter fun e => isOutputKey e.1
    watches := s.watches.map fun w => { w with missed := 0, fresh := true }
    ctr := Sparse.drop dataPathCounter s.ctr }

/-- The data path goes down: ports go down, the partitions end, and what it held is lost (R413, R475, R476). -/
def endDataPath (s : State) : State :=
  let s := (s.ports.map (·.1)).foldl portLost s
  let s := noteRevoked s (wipe (endPartitions s))
  let s := (List.range 130).foldl fillBuckets s
  { s with power := { s.power with zeroing := false, tileWin := [], scanOff := false, bringupStep := 0 } }

/-! ### Bring-up (R566, R567) -/

/-- A channel that failed its training or test twice is retired (R567). -/
def retireChannel (s : State) (u : BitVec 32) : State :=
  if (unitType u.toNat = 5 ∨ unitType u.toNat = 6) ∧ unitExists s u.toNat ∧ unitState s u.toNat ≠ 2 then retireUnit s u.toNat 3 else s

/-- Bring-up ends: the data path is loaded and ready, ports with ENABLE set enter DETECT, and zeroing begins (R413, R566). -/
def bringUp (s : State) (ms : BitVec 32) (failed : List (BitVec 32)) : State :=
  let s := failed.foldl retireChannel s
  let s := { s with power := { s.power with state := 3, bringupStep := 0, bringupMs := ms, zeroing := true, vinLost := false }
                    scribe := { s.scribe with upMs := 0 } }
  let s := ((List.range 128).filter fun n => portOk s n && s.o (portObj n 0 1) == 1).foldl portUp s
  raise s 0x0B07 deviceWide [(4, ms.toNat)]

/-- The timebase count starts at 0 when the root PLL locks; TB_OFFSET is the Scribe time of that moment (R521). -/
def startTimebase (s : State) : State := { s with timebase := 0 }.setC (okey 0x1241 2) s.time

/-- Bring-up in a step that names no duration: how long it took is a free value. -/
def bringUpFree (s : State) : State :=
  let f := s.takeFree 1
  bringUp f.2 (f.1.setWidth 32) []

/-- The bring-up steps after the rails and the root PLL, unless RESET_N or a lost clock holds them (R565, R568, R569). -/
def bringUpHeld (s : State) (ms : BitVec 32) (failed : List (BitVec 32)) : State :=
  if s.power.resetLow || !s.power.refclkOk then { s with power := { s.power with state := 4, bringupStep := 3 } }
  else bringUp s ms failed

/-- A fill that a reset left to make: a stack folio was zeroed with its stack, a remote one is filled now (R209, R413). -/
def refillFolio (s : State) (i : Nat) : State :=
  let f := s.folio i
  if ¬ f.refill then s
  else
    let s := s.setFolio i { f with refill := false, scrubFailed := false }
    if folHomek f.word = 0 then s else beginScrub s i

/-- RESET_ZEROING_DONE: every slice, stack and quill store is zero, and CREATE is accepted again (R413). -/
def execResetZeroingDone (s : State) : Host.Outcome State Fault Refusal :=
  .next (if s.power.zeroing then
    let s := { s with mem := [], poison := [], power := { s.power with zeroing := false } }
    (s.folios.map (·.1)).foldl refillFolio s
  else s)

/-! ### Timers of other chapters -/

/-- MACSEC_OLD_SA_ERASE: 1 ms after the host first sent under the new association (R408). -/
def execMacsecOldSaErase (h : HostPort) (s : State) : Host.Outcome State Fault Refusal :=
  .next (let m := s.mac h.val
    if m.txAn = m.rxAn then s.setMac h.val { m with oldKey := none, oldHi := 0 } else s)

/-- MSG_DISCARD_END: packets of a malformed message are no longer discarded (R77). -/
def execMsgDiscardEnd (k : ReqKey) (s : State) : Host.Outcome State Fault Refusal :=
  .next { s with badMsgs := s.badMsgs.filter (· != k) }

end Sys2Proof.Machine
end

