-- ==== Sys2Proof/Machine/Scribe.lean ====
section
/-! DEFINITION. The Scribe: sensors, throttling and the thermal trip (R524 to R534), the coolant loop (R526 to R530), the event log in
flash (R542 to R544), ring alerts (R537), the firmware image (R545 to R549), boot and restart (R522, R523, R550), and its pins
(R572). -/

namespace Sys2Proof.Machine

/-! ### F32 values -/

/-- NaN, as an invalid reading reads (R525). -/
abbrev nan32 : BitVec 32 := 0x7FC00000#32

/-- A finite F32 value in units of 2^-149. -/
def f32Fix (v : BitVec 32) : Option Int :=
  let e := bits v.toNat 30 23
  let m := bits v.toNat 22 0
  if e = 255 then none
  else
    let mag : Nat := if e = 0 then m else (2 ^ 23 + m) * 2 ^ (e - 1)
    some (if bit v.toNat 31 then -(mag : Int) else mag)

/-- A whole number in those units. -/
def fixOf (n : Int) : Int := n * 2 ^ 149

/-- n / d rounded to the nearest F32, ties to even. -/
def f32Of (n : Int) (d : Nat) : BitVec 32 :=
  BitVec.ofNat 32 ((if n < 0 then 2 ^ 31 else 0) + min (roundMag .fp32 n.natAbs d (-160)) 0x7F800000)

/-- The value of an F32 object; its writes admit finite values only (R471, R551). -/
def objFix (s : State) (k : Nat) : Int := (f32Fix (BitVec.ofNat 32 (s.o k))).getD 0

/-! ### State of the data path -/

/-- The data path runs. -/
def dataUp (s : State) : Bool := s.power.state == 3

/-- The rails come down, the partitions end, and the power stage enters a state of PWR_STATE (R533, R563). -/
def railsDown (s : State) (state : Nat) : State :=
  let s := endDataPath s
  { s with power := { s.power with state := state, refclkOk := false } }

/-! ### Ring alerts (R537, R542) -/

/-- An event record as its 32 bytes (R501). -/
def Event.bytes (e : Event) : List Byte :=
  leBytes 4 e.eseq.toNat ++ leBytes 2 e.code.toNat ++ leBytes 1 e.epart.toNat ++ leBytes 1 (b2n e.coarse) ++ leBytes 8 e.tstamp.toNat ++
    leBytes 16 e.edata.toNat

/-- A log record as its 48 bytes (R542); a record with a persistent number has been written to flash. -/
def LogRec.bytes (r : LogRec) : List Byte :=
  r.ev.bytes ++ leBytes 4 r.boot.toNat ++ leBytes 4 r.pno.toNat ++ leBytes 8 (b2n (r.pno != 0))

/-- A ring alert: a record sent three times from both ring ports. -/
def ringAlert (s : State) (rec_ : LogRec) : State :=
  ((List.range 3).foldl (fun s _ => (s.emit (.ringAlert false rec_.bytes)).emit (.ringAlert true rec_.bytes)) s).bump (okey 0x3500 7) 1

/-- Raises an event and sends its log record as a ring alert. -/
def raiseAlert (s : State) (code : Nat) (items : List (Nat × Nat)) : State :=
  let no := s.scribe.logNext
  let s := raise s code deviceWide items
  match s.scribe.log.find? fun r => r.ev.eseq == no with
  | some r => ringAlert s r
  | none => s

/-! ### Throttling (R531 to R534) -/

/-- Diodes with a valid reading. -/
def validDiodes (s : State) : Nat := (s.scribe.diodes.filter fun v => (f32Fix v).isSome).length

/-- The six demands of R531, by their bit of THROTTLE_CAUSE. Diodes are sampled while the data path is up (R524). -/
def demands (s : State) : List Nat :=
  let sc := s.scribe
  [sc.tempDiv, sc.powDiv, if s.power.throttle then s.o (okey 0x1420 8) else 6,
   if s.power.faultIn && s.o (okey 0x1420 9) == 1 then 12 else 6, s.o (okey 0x1420 0xA),
   if dataUp s && decide (validDiodes s < 48) then 12 else 6]

/-- THROTTLE_CAUSE: the demands slower than ÷6. -/
def throttleCause (s : State) : Nat :=
  ((demands s).zipIdx.map fun e => if 6 < e.1 then 2 ^ e.2 else 0).foldl (· + ·) 0

/-- Sets the arithmetic divisor to the slowest of the demands; a change raises THROTTLE_STEP (R29 to R31). -/
def setDivisor (s : State) : State :=
  let d := (demands s).foldl max 6
  if d = s.scribe.divisor then s
  else raise { s with scribe := { s.scribe with divisor := d } } 0x0A12 deviceWide [(1, d), (1, throttleCause s)]

/-- One step slower, and one step faster (R531, R532). -/
def slower (d : Nat) : Nat := if d = 6 then 8 else 12
def faster (d : Nat) : Nat := if d = 12 then 8 else 6

/-- The data path powers down and FAULT_OUT_N is latched low until PWR_EN goes low (R533 to R535). -/
def tripDown (s : State) : State :=
  let s := railsDown s 5
  { s with scribe := { s.scribe with tripped := some s.time, tripLow := false } }

/-- A thermal trip at a diode (R533, R534). -/
def thermalTrip (s : State) (diode : Nat) : State :=
  let t := s.scribe.tHot
  let s := tripDown (s.bump (okey 0x1420 0xD) 1)
  if s.scribe.st = .running then raiseAlert s 0x0A13 [(1, diode), (4, t.toNat)] else s

/-! ### Sensors (R524, R525) -/

/-- A temperature reading, NaN where it lies outside its valid range. -/
def validTemp (lo hi : Int) (v : BitVec 32) : BitVec 32 :=
  match f32Fix v with
  | some x => if fixOf lo ≤ x ∧ x ≤ fixOf hi then v else nan32
  | none => nan32

/-- The greatest valid reading and its position, the first among equals. -/
def hottest (vs : List (BitVec 32)) : Option (Nat × Int) :=
  vs.zipIdx.foldl (fun (a : Option (Nat × Int)) (e : BitVec 32 × Nat) =>
    match f32Fix e.1, a with
    | some x, some (i, m) => if m < x then some (e.2, x) else some (i, m)
    | some x, none => some (e.2, x)
    | none, a => a) none

/-- Sensors whose reading is invalid: 0-63 diodes, 64 CTEMP_IN, 65 CTEMP_OUT. -/
def invalidSensors (diodes : List (BitVec 32)) (cin cout : BitVec 32) : List Nat :=
  ((diodes ++ [cin, cout]).zipIdx.filter fun e => (f32Fix e.1).isNone).map (·.2)

/-- Takes the readings of one sample. Diodes, stack temperatures and rails are sampled while the data path is up (R524). -/
def takeReadings (s : State) (r : Readings) : State :=
  let sc := s.scribe
  let up := dataUp s
  let diodes := if up then r.diodes.toList.map (validTemp (-40) 150) else sc.diodes
  let cin := validTemp (-20) 120 r.coolIn
  let cout := validTemp (-20) 120 r.coolOut
  let hot := hottest diodes
  let bad := (invalidSensors diodes cin cout).filter fun i => up || decide (64 ≤ i)
  let fresh := bad.filter fun i => !(i ∈ sc.invalid)
  let kept := if up then [] else sc.invalid.filter fun i => decide (i < 64)
  let over_ := match f32Fix r.pIn with | some p => decide (fixOf (s.o (okey 0x1420 7)) < p) | none => false
  let inlet := match f32Fix cin with | some c => sc.inletHigh && !decide (c < objFix s (okey 0x1410 0xE)) | none => sc.inletHigh
  let s := { s with scribe := { sc with
    pIn := r.pIn, vIn := r.vIn, iIn := r.iIn, diodes := diodes, coolIn := cin, coolOut := cout
    stackT := if up then r.stackT.toList else sc.stackT
    rails := if up then r.rails.toList else sc.rails
    tHot := match hot with | some (i, _) => diodes.getD i nan32 | none => nan32
    tHotSite := match hot with | some (i, _) => i | none => sc.tHotSite
    energy := sc.energy + ((f32Fix r.pIn).getD 0).toNat
    invalid := kept ++ bad
    powHigh := if over_ then sc.powHigh + 1 else 0
    inletHigh := inlet
    upMs := min 10 (sc.upMs + 1) } }
  fresh.foldl (fun s i => raise s 0x0A14 deviceWide [(1, i)]) s

/-- The temperature demand after a sample (R531). -/
def heatDemand (s : State) : Nat :=
  match f32Fix s.scribe.tHot with
  | none => s.scribe.tempDiv
  | some t =>
    if objFix s (okey 0x1420 4) ≤ t then 12
    else if objFix s (okey 0x1420 3) ≤ t then max s.scribe.tempDiv 8
    else s.scribe.tempDiv

/-- T_HOT has reached T_TRIP. -/
def overTrip (s : State) : Bool :=
  dataUp s && (match f32Fix s.scribe.tHot with | some t => decide (objFix s (okey 0x1420 6) ≤ t) | none => false)

/-- The milliseconds spent at a divisor. -/
def countDivisor (s : State) : State :=
  if s.scribe.divisor = 8 then s.bump (okey 0x1420 0xB) 1
  else if s.scribe.divisor = 12 then s.bump (okey 0x1420 0xC) 1
  else s

/-- SENSOR_SAMPLE, every 1 ms (R524, R525, R531, R533). -/
def sensorSample (s : State) (r : Readings) : State :=
  let s := takeReadings (countDivisor s) r
  if overTrip s then setDivisor (thermalTrip s s.scribe.tHotSite)
  else setDivisor (if dataUp s then { s with scribe := { s.scribe with tempDiv := heatDemand s } } else s)

def execSensorSample (r : Readings) (s : State) : Host.Outcome State Fault Refusal :=
  .next (if s.scribe.st = .running then sensorSample s r else s)

/-- The comparator of a diode removes the rails, whether or not the Scribe runs (R534). -/
def execHwThermalTrip (diode : Fin 64) (s : State) : Host.Outcome State Fault Refusal :=
  .next (if dataUp s then thermalTrip s diode.val else s)

/-- T_HOT lies below the threshold of its current step less T_HYST (R532). -/
def coolEnough (s : State) : Bool :=
  let th := if s.scribe.tempDiv = 12 then okey 0x1420 4 else okey 0x1420 3
  match f32Fix s.scribe.tHot with
  | some t => decide (t < objFix s th - objFix s (okey 0x1420 5))
  | none => false

/-- P_IN lies at or below POWER_LIMIT − 150 W (R532). -/
def powerLow (s : State) : Bool :=
  match f32Fix s.scribe.pIn with
  | some p => decide (p ≤ fixOf (s.o (okey 0x1420 7)) - fixOf 150)
  | none => false

/-- A release threshold has been kept for 1 s: one step faster (R532). -/
def execThrottleReleaseTimer (power : Bool) (s : State) : Host.Outcome State Fault Refusal :=
  .next (
    let sc := s.scribe
    if power && powerLow s then setDivisor { s with scribe := { sc with powDiv := faster sc.powDiv } }
    else if !power && coolEnough s then setDivisor { s with scribe := { sc with tempDiv := faster sc.tempDiv } }
    else s)

/-- Ten consecutive samples above POWER_LIMIT: one step slower (R531). -/
def execPowerLimitCount (s : State) : Host.Outcome State Fault Refusal :=
  .next (
    let sc := s.scribe
    if 10 ≤ sc.powHigh then setDivisor { s with scribe := { sc with powDiv := slower sc.powDiv, powHigh := 0 } } else s)

/-! ### The coolant loop (R526 to R530) -/

/-- drive(U): the duties of the valve and the pump, from U in units of 2^-149 (R527). -/
def drive (s : State) (u : Int) : State :=
  let vmin := objFix s (okey 0x1410 6)
  let pmin := objFix s (okey 0x1410 5)
  let h := fixOf 100
  let valve := if u ≤ fixOf 50 then f32Of (vmin * fixOf 50 + (h - vmin) * u) (50 * 2 ^ 298) else f32Of h (2 ^ 149)
  let pump := if u ≤ fixOf 50 then f32Of pmin (2 ^ 149) else f32Of (pmin * fixOf 50 + (h - pmin) * (u - fixOf 50)) (50 * 2 ^ 298)
  { s with scribe := { s.scribe with demand := f32Of u (2 ^ 149), valveDuty := valve, pumpDuty := pump } }

/-- Drives the demand that an F32 pattern holds. -/
def drivePattern (s : State) (u : BitVec 32) : State :=
  let s := drive s ((f32Fix u).getD 0)
  { s with scribe := { s.scribe with demand := u } }

/-- The automatic loop: P_IN, e and I in units of 2^-149. Sums are exact; I and U are rounded once each to F32. -/
def loopAuto (s : State) (p e i : Int) : State :=
  let one := 10 * 2 ^ 149
  let hi : Int := 100 * 10 * 2 ^ 298
  let base := (objFix s (okey 0x1410 2) * p + objFix s (okey 0x1410 3) * e) * 10
  let dI := objFix s (okey 0x1410 4) * e
  let un := base + i * one + dI
  let keep := decide (0 ≤ un ∧ un ≤ hi) || (decide (hi < un) && decide (e < 0)) || (decide (un < 0) && decide (0 < e))
  let ni := if keep then f32Of (i * one + dI) (10 * 2 ^ 298) else s.scribe.integral
  let u := base + ((f32Fix ni).getD 0) * one
  let u := max 0 (min u hi)
  drivePattern { s with scribe := { s.scribe with integral := ni } } (f32Of u (10 * 2 ^ 298))

/-- A free demand, within its clamp (R526). -/
def clampDemand (v : BitVec 64) : BitVec 32 := f32Of ((v.toNat % (100 * 2 ^ 24 + 1) : Nat) : Int) (2 ^ 24)

/-- LOOP_UPDATE, every 100 ms (R526). Without a finite T_HOT or P_IN the formula has no value: U and I are free. -/
def loopUpdate (s : State) : State :=
  if !dataUp s then
    drivePattern { s with scribe := { s.scribe with integral := 0 } } (BitVec.ofNat 32 (s.o (okey 0x1410 9)))
  else if s.o (okey 0x1410 7) = 1 then drivePattern s (BitVec.ofNat 32 (s.o (okey 0x1410 8)))
  else
    let t : Option Int := if s.scribe.upMs < 10 then some (objFix s (okey 0x1410 1)) else f32Fix s.scribe.tHot
    match f32Fix s.scribe.pIn, t, f32Fix s.scribe.integral with
    | some p, some t, some i => loopAuto s p (t - objFix s (okey 0x1410 1)) i
    | _, _, _ =>
      let f := s.takeFree 2
      let g := f.2.takeFree 2
      drivePattern { g.2 with scribe := { g.2.scribe with integral := g.1.setWidth 32 } } (clampDemand f.1)

def execLoopUpdate (s : State) : Host.Outcome State Fault Refusal :=
  .next (if s.scribe.st = .running then loopUpdate s else s)

/-- CTEMP_IN has stood above COOL_IN_MAX for 1 s: reported once until it falls below (R530). -/
def execCoolantInletTimer (s : State) : Host.Outcome State Fault Refusal :=
  .next (match f32Fix s.scribe.coolIn with
    | some c =>
      if objFix s (okey 0x1410 0xE) < c ∧ !s.scribe.inletHigh then
        raise { s with scribe := { s.scribe with inletHigh := true } } 0x0A15 deviceWide [(4, s.scribe.coolIn.toNat)]
      else s
    | none => s)

/-- The pump runs at 50 % or more. -/
def pumpAtHalf (s : State) : Bool := match f32Fix s.scribe.pumpDuty with | some d => decide (fixOf 50 ≤ d) | none => false

/-- The pump tachometer has been low, or has stood at its minimum, for 2 s (R530). -/
def execPumpTachTimer (low : Bool) (s : State) : Host.Outcome State Fault Refusal :=
  .next (
    let under := decide (s.scribe.tach0 < s.o (okey 0x1410 0xF))
    if low && under && pumpAtHalf s && !s.scribe.tachLow then
      raise { s with scribe := { s.scribe with tachLow := true } } 0x0A16 deviceWide [(4, s.scribe.tach0)]
    else if !low && !under then { s with scribe := { s.scribe with tachLow := false } }
    else s)

/-- U has been held at 100 % with e above 0 for 10 s (R530). -/
def execLoopSaturationTimer (s : State) : Host.Outcome State Fault Refusal :=
  .next (match f32Fix s.scribe.demand, f32Fix s.scribe.tHot with
    | some u, some t =>
      if u = fixOf 100 ∧ objFix s (okey 0x1410 1) < t then raise s 0x0A17 deviceWide [(4, s.scribe.tHot.toNat)] else s
    | _, _ => s)

/-! ### The log in flash (R544) -/

/-- PLOG_PERSIST: a marked record takes the next persistent number; the newest 4,096 are readable (R544). -/
def plogPersist (s : State) (logno : BitVec 32) : State :=
  let sc := s.scribe
  if ¬ (logno ∈ sc.toPersist) then s
  else
    let sc := { sc with toPersist := sc.toPersist.filter (· != logno) }
    match sc.log.find? fun r => r.ev.eseq == logno with
    | none => { s with scribe := sc }
    | some r =>
      let r := { r with pno := sc.plogNext }
      let l := sc.plog ++ [r]
      { s with scribe := { sc with log := sc.log.map fun x => if x.ev.eseq = logno then r else x
                                   plog := l.drop (l.length - 4096), plogNext := sc.plogNext + 1 } }

def execPlogPersist (logno : BitVec 32) (s : State) : Host.Outcome State Fault Refusal := .next (plogPersist s logno)

/-- PLOG_WEAR: percent of the rated 100,000 erase cycles; a block of 1,024 slots is erased before its first slot is written, and
each of the 256 blocks in turn (R544). -/
def plogWear (s : State) : Nat := min 100 ((s.scribe.plogNext.toNat - 1 + 1023) / 1024 / 256000)

/-- PLOG_CLEAR (0x1240.0A): the log is empty, then PLOG_CLEARED is persisted, whatever PLOG_MASK says. -/
def setPlogClear (s : State) (by_ : Caller) (v : Nat) : Ans :=
  guardRole s (isOpr s by_) <|
  guardRange s (v == 1) <|
  let no := s.scribe.logNext
  let s := raise { s with scribe := { s.scribe with plog := [] } } 0x0A21 deviceWide []
  Ans.ok (if no ∈ s.scribe.toPersist then s else { s with scribe := { s.scribe with toPersist := s.scribe.toPersist ++ [no] } })

def execPlogClear (by_ : Caller) (v : BitVec 8) (s : State) : Host.Outcome State Fault Refusal := (setPlogClear s by_ v.toNat).out by_

/-! ### Firmware images (R545, R546) -/

/-- Fields of an image's header. -/
def imgVersion (b : List Byte) : BitVec 32 := BitVec.ofNat 32 (leAt b 8 4)
def imgSvn (b : List Byte) : Nat := leAt b 12 2
def imgSteps (b : List Byte) : Nat := leAt b 14 1
def imgBodyLen (b : List Byte) : Nat := leAt b 16 4

/-- The bit of STEPS for a stepping. -/
def steppingBit (v : Byte) : Nat := if v = 0xA1#8 then 0 else 1

/-- The code of the first test of R546 that an image fails, 0 when it passes. -/
def imageCheck (s : State) (b : List Byte) : Nat :=
  let n := imgBodyLen b
  let zeros (off len : Nat) : Bool := (slice b off len).all (· == 0)
  if b.length ≠ 128 + n + 3309 ∨ 4194304 < b.length then 1
  else if slice b 0 8 ≠ ascii "SKOMIRF1" ∨ !(zeros 15 1 && zeros 20 12 && zeros 64 64) ∨ 4 ≤ imgSteps b then 2
  else if !Config.dsaVerify Config.fwKey (slice b 0 128) (slice b (128 + n) 3309) then 3
  else if slice b 32 32 ≠ shake 32 (slice b 128 n) then 4
  else if 64 < imgSvn b ∨ imgSvn b < s.scribe.rollback then 5
  else if !bit (imgSteps b) (steppingBit Config.stepping) then 6
  else 0

/-- What an image in service brings: FWVER, SVN and the digest M1 measures. The factory image stands at the part's own counter. -/
def serviceImage (sc : Scribe) : BitVec 32 × Nat × BitVec 256 :=
  match sc.flash with
  | none => (Config.factoryVersion, sc.rollback, Config.factoryDigest)
  | some b => (imgVersion b, imgSvn b, digest256 b)

/-! ### Boot and restart (R522, R523, R549, R550) -/

/-- The bypass opens or closes under R540; a change takes down the links of the ring ports. -/
def setBypass (s : State) (closed : Bool) : State :=
  let sc := s.scribe
  if sc.bypass = closed then s
  else
    let s := { s with scribe := { sc with bypass := closed, linkA := false, linkB := false } }
    let s := if sc.linkA && sc.st == .running then raise s 0x0A1D deviceWide [(1, 0)] else s
    if sc.linkB && sc.st == .running then raise s 0x0A1D deviceWide [(1, 1)] else s

/-- The recovery loader: no image runs, and FW_RECOVERY goes out as a ring alert (R550). Its record bears no log number: the log
is kept by the image. -/
def enterRecovery (s : State) (code : Nat) : State :=
  let s := { s with scribe := { s.scribe with st := .recovery, fwSt := .empty, fwResult := code, staging := [], recovered := true } }
  let s := setBypass s s.power.resetLow
  let e : Event := { eseq := 0, code := 0x0A1C, epart := 0xFF, coarse := false, tstamp := BitVec.ofNat 64 s.time, edata := 0 }
  ringAlert s { ev := e, boot := s.scribe.bootCount, pno := 0 }

/-- The image runs on all cores: a higher SVN blows fuses, partition 0 gets a fresh key pair, and SCRIBE_BOOT is raised (R387,
R522 step 5, R549, R553). -/
def runImage (s : State) (cause : Nat) : State :=
  let old := s.scribe
  let img := serviceImage old
  let n := s.draw
  let s := n.2.modPart 0 fun v => { v with attKey := some n.1 }
  let s := { s with scribe := { old with st := .running, fwSt := .empty, fwResult := 0, staging := [], lastRestart := cause, fwVer := img.1
                                         fwSvn := img.2.1, fwDigest := img.2.2, rollback := max old.rollback img.2.1, recovered := false } }
  let s := setBypass s s.power.resetLow
  let s := if old.rollback < img.2.1 then raise s 0x0A1B deviceWide [(1, img.2.1)] else s
  let s := raise s 0x0A10 deviceWide [(4, img.1.toNat), (4, s.scribe.bootCount.toNat), (1, cause)]
  let s := if old.recovered then raise s 0x0A1C deviceWide [] else s
  if 1 < s.scribe.bootCount.toNat ∨ cause ≠ 0 then
    if img.1 = old.fwVer then s else keyChanged s old.fwVer s.dumap
  else s

/-- Steps 2 to 5 of R522: the image in flash is checked, and runs or leaves the Scribe in the recovery loader. -/
def bootScribe (s : State) (cause : Nat) : State :=
  let r := match s.scribe.flash with | none => 0 | some b => imageCheck s b
  if r = 0 then runImage s cause else enterRecovery s r

/-- An INSTALL that a restart or a loss of VSTBY interrupts leaves no whole image in flash (R550). -/
def flashLeft (sc : Scribe) : Option (List Byte) := if sc.fwSt = .installing then some [] else sc.flash

/-- A restart: sessions end, the divisor is forced to ÷12 until the next sample, the bypass closes until step 4 (R494, R523,
R540). -/
def restartScribe (s : State) (cause : Nat) : State :=
  let s := setBypass s true
  let s := { s with sessions := [], loader := none, hrbs := [],
                    scribe := { s.scribe with st := .off, divisor := 12, flash := flashLeft s.scribe, fwSt := .empty, staging := [] } }
  bootScribe s cause

/-- WATCHDOG_EXPIRE (R523). -/
def execWatchdogExpire (_core : Fin 4) (s : State) : Host.Outcome State Fault Refusal :=
  .next (if s.scribe.st = .running then restartScribe s 1 else s)

/-- Units as the disabled-unit map leaves them: what was under test returns, transients are forgotten (R435, R441). -/
def unitsKept (s : State) : Sparse UnitSt × Sparse Nat :=
  let r := ((s.units.filter fun e => e.2.st == 1).map (·.1)).foldl restoreUnit s
  (Sparse.mapVals {} (fun u => { u with erred := false, fails := 0, trans := [] }) r.units, r.standIn)

/-- What stays without VSTBY: the flash and fuses (R441, R518), the sideband levels outside, and the model's own fields. -/
def withoutVstby (s : State) : State :=
  let u := unitsKept s
  let sc := s.scribe
  let p := s.power
  { State.reset with
    pending := s.pending, out := s.out, serial := s.serial, free := s.free, dumap := s.dumap, units := u.1, standIn := u.2
    ctr := Sparse.set 0 [] (okey 0xA100 5) (s.c (okey 0xA100 5))
    scribe := { flash := flashLeft sc, rollback := sc.rollback, bootCount := sc.bootCount, plog := sc.plog, plogNext := sc.plogNext
                fwVer := sc.fwVer, recovered := sc.recovered }
    power := { vio := p.vio, pwrEn := p.pwrEn, resetLow := p.resetLow, throttle := p.throttle, faultIn := p.faultIn } }

/-- VSTBY_LOSS: everything but the flash and the fuses is lost (R458, R475, R476, R494). -/
def execVstbyLoss (s : State) : Host.Outcome State Fault Refusal := .next (withoutVstby s)

/-- Safe levels of the inputs while VIO is absent (R574). -/
def safeLevels (p : Power) : Power := { p with pwrEn := false, resetLow := true, throttle := true, faultIn := true }

/-- VSTBY_APPLY: every object takes its default, Scribe time starts, and the Scribe boots (R475, R521, R522). -/
def execVstbyApply (s : State) : Host.Outcome State Fault Refusal :=
  .next (if s.power.vstby then s
    else
      let s := withoutVstby s
      let p := { s.power with vstby := true }
      let p := if p.vio then p else safeLevels p
      let p := { p with state := if p.pwrEn then 1 else 0 }
      let s := { s with power := p, scribe := { s.scribe with bootCount := s.scribe.bootCount + 1 } }
      drivePattern (bootScribe s 0) (BitVec.ofNat 32 (s.o (okey 0x1410 9))))

/-! ### Firmware update (R547, R548, R550) -/

/-- Firmware objects are written by OPR, or with no session in the recovery loader (R550, R552). -/
def fwWriter (s : State) (by_ : Caller) : Bool := isOpr s by_ || s.scribe.st == .recovery

/-- Raises an event of the image in service; the recovery loader keeps no log. -/
def raiseFw (s : State) (code : Nat) (items : List (Nat × Nat)) : State :=
  if s.scribe.st = .running then raise s code deviceWide items else s

def setFw (s : State) (f : Scribe → Scribe) : State := { s with scribe := f s.scribe }

/-- FW_STAGE (0x1600.01). -/
def setFwStage (s : State) (by_ : Caller) (image : List Byte) : Ans :=
  guardRole s (fwWriter s by_) <|
  guardValue s (s.scribe.fwSt != .verifying && s.scribe.fwSt != .installing) <|
  Ans.ok (raiseFw (setFw s fun c => { c with fwSt := .staged, staging := image }) 0x0A18 [(4, (imgVersion image).toNat)])

def execFwStage (by_ : Caller) (image : List Byte) (s : State) : Host.Outcome State Fault Refusal := (setFwStage s by_ image).out by_

/-- VERIFY (FW_CONTROL 1) of a staged image. -/
def setFwVerify (s : State) (by_ : Caller) : Ans :=
  guardRole s (fwWriter s by_) <|
  guardValue s (fwShown s == .staged) <|
  Ans.ok (setFw s fun c => { c with fwSt := .verifying })

def execFwVerify (by_ : Caller) (s : State) : Host.Outcome State Fault Refusal := (setFwVerify s by_).out by_

/-- The check of the staged image ends (R546). -/
def fwVerifyDone (s : State) : State :=
  if s.scribe.fwSt ≠ .verifying then s
  else
    let r := imageCheck s s.scribe.staging
    if r = 0 then setFw s fun c => { c with fwSt := .verified, fwResult := 0 }
    else raiseFw (setFw s fun c => { c with fwSt := .failed, fwResult := r }) 0x0A19 [(1, r)]

def execFwVerifyDone (s : State) : Host.Outcome State Fault Refusal := .next (fwVerifyDone s)

/-- INSTALL (FW_CONTROL 2) of a verified image. -/
def setFwInstall (s : State) (by_ : Caller) : Ans :=
  guardRole s (fwWriter s by_) <|
  guardValue s (fwShown s == .verified) <|
  Ans.ok (setFw s fun c => { c with fwSt := .installing })

def execFwInstall (by_ : Caller) (s : State) : Host.Outcome State Fault Refusal := (setFwInstall s by_).out by_

/-- The image region has been written and read back: it matches the staged image, or FW_RESULT reads 7. The recovery loader then
restarts the Scribe (R547, R550, R552). -/
def fwInstallDone (s : State) (match_ : Bool) : State :=
  if s.scribe.fwSt ≠ .installing then s
  else if match_ then
    let rec_ := s.scribe.st == .recovery
    let s := raiseFw (setFw s fun c => { c with fwSt := .installed, flash := some c.staging, fwResult := 0 }) 0x0A1A
      [(4, (imgVersion s.scribe.staging).toNat)]
    if rec_ then restartScribe s 3 else s
  else raiseFw (setFw s fun c => { c with fwSt := .failed, flash := some [], fwResult := 7 }) 0x0A19 [(1, 7)]

def execFwInstallDone (match_ : Bool) (s : State) : Host.Outcome State Fault Refusal := .next (fwInstallDone s match_)

/-- The data path is reset and comes up again, in a step that names no duration; the recovery loader starts none. -/
def resetDataPath (s : State) : State :=
  let up := dataUp s
  let s := endDataPath s
  if up && s.scribe.st == .running then bringUpFree s
  else if up then { s with power := { s.power with state := 4 } }
  else s

/-- ACTIVATE (FW_CONTROL 3): the Scribe restarts into the new image and the data path is reset; refused while a partition is SEALING
or SEALED, and while no image is INSTALLED (R548). -/
def setFwActivate (s : State) (by_ : Caller) : Ans :=
  guardRole s (isOpr s by_) <|
  guardValue s (fwShown s == .installed &&
    !(List.range 32).any fun p => p != 0 && ((s.part p).st == .sealing || (s.part p).st == .sealed)) <|
  Ans.ok (resetDataPath (restartScribe s 2))

def execFwActivate (by_ : Caller) (s : State) : Host.Outcome State Fault Refusal := (setFwActivate s by_).out by_

/-- DISCARD (FW_CONTROL 4) of a STAGED, VERIFIED or FAILED image. -/
def setFwDiscard (s : State) (by_ : Caller) : Ans :=
  guardRole s (isOpr s by_) <|
  guardValue s (fwShown s == .staged || fwShown s == .verified || fwShown s == .failed) <|
  Ans.ok (setFw s fun c => { c with fwSt := .empty, staging := [] })

def execFwDiscard (by_ : Caller) (s : State) : Host.Outcome State Fault Refusal := (setFwDiscard s by_).out by_

/-! ### Ring links (R540) -/

/-- The link of a ring port changes while the bypass is open. -/
def execRingLinkChange (portB : Bool) (up : Bool) (s : State) : Host.Outcome State Fault Refusal :=
  .next (
    let sc := s.scribe
    let was := if portB then sc.linkB else sc.linkA
    if sc.st = .off ∨ sc.bypass ∨ was = up then s
    else
      let s := { s with scribe := if portB then { sc with linkB := up } else { sc with linkA := up } }
      raiseFw s (if up then 0x0A1E else 0x0A1D) [(1, b2n portB)])

/-! ### Output pins (R535, R572, R594) -/

/-- Outputs are driven: VSTBY and VIO are present and the Scribe or its loader runs. -/
def pinsDriven (s : State) : Bool := s.power.vstby && s.power.vio && s.scribe.st != .off

/-- Level of HRB_n; none is high impedance. -/
def hrbPin (s : State) (h : HostPort) : Option Bool :=
  if pinsDriven s then some (hrbReady s h.val && !(s.hrb h.val).pulse) else none

/-- FAULT_OUT_N is driven low. -/
def faultOutLow (s : State) : Bool :=
  pinsDriven s && (s.scribe.st == .recovery || (s.scribe.tripped.isSome && !s.scribe.tripLow) || s.power.railLatch || s.scribe.tachLow ||
    (s.power.vinLost && s.power.pwrEn))

/-- A duty as driven, in steps of 0.1 %, to the nearest. -/
def dutySteps (v : BitVec 32) : Nat := divRne (((f32Fix v).getD 0).toNat * 10) (2 ^ 149)

/-- Duties of PUMP_PWM and VALVE_PWM in steps of 0.1 %; none is high impedance. The recovery loader drives 100 %. -/
def pwmPins (s : State) : Option (Nat × Nat) :=
  if pinsDriven s then
    some (if s.scribe.st = .recovery then (1000, 1000) else (dutySteps s.scribe.pumpDuty, dutySteps s.scribe.valveDuty))
  else none

end Sys2Proof.Machine
end

