-- ==== Sys2Proof/Machine/Power.lean ====
section
/-! DEFINITION. Supplies, the reference clock, resets and the sideband inputs (R558 to R577). -/

namespace Sys2Proof.Machine

def modPower (s : State) (f : Power → Power) : State := { s with power := f s.power }

/-! ### The power stage (R561 to R563, R566, R567) -/

/-- After a trip or an action 2 power-down the data path returns only once PWR_EN has gone low and 10 s have passed (R533). -/
def tripOver (s : State) : Bool :=
  match s.scribe.tripped with
  | none => true
  | some t => s.scribe.tripLow && decide (t + 10 * sec ≤ s.time)

/-- The power stage may start: PWR_EN is high, the Scribe runs, and nothing is latched (R533, R561, R562). -/
def mayStart (s : State) : Bool :=
  s.scribe.st == .running && s.power.pwrEn && s.power.state == 1 && !s.power.railLatch && tripOver s

/-- POWER_STAGE_START: VIN has stood above 34 V for 10 ms; the rails and the root PLL come up, and bring-up runs unless RESET_N
holds it (R561, R566, R569). -/
def powerStageStart (s : State) (ms : BitVec 32) (failed : List (BitVec 32)) : State :=
  if mayStart s then
    let s := modPower s fun p => { p with vin := true, refclkOk := true, vinLost := false }
    bringUpHeld (startTimebase { s with scribe := { s.scribe with tripped := none, tripLow := false } }) ms failed
  else s

def execPowerStageStart (durationMs : BitVec 32) (failedChannels : List (BitVec 32)) (s : State) : Host.Outcome State Fault Refusal :=
  .next (powerStageStart s durationMs failedChannels)

/-- The rails are up: the data path is ready or held (R562). -/
def railsUp (s : State) : Bool := s.power.state == 3 || s.power.state == 4

/-- RAIL_FAULT: the rails come down and FAULT_OUT_N is latched low (R562). -/
def execRailFault (rail : Fin 8) (s : State) : Host.Outcome State Fault Refusal :=
  .next (if railsUp s ∨ mayStart s then
    let s := modPower (railsDown (s.bump (okey 0x1481 4) 1) 5) fun p => { p with railLatch := true }
    raiseFw s 0x0B06 [(1, rail.val)]
  else s)

/-- PWR_EN reads low: the rails come down, and the latches of trips and rail faults are released (R535, R562, R563). -/
def pwrLow (s : State) : State :=
  let s := if railsUp s then railsDown s 0 else modPower s fun p => { p with state := 0 }
  modPower { s with scribe := { s.scribe with tripLow := s.scribe.tripped.isSome } } fun p =>
    { p with pwrEn := false, railLatch := false, vinLost := false }

/-- PWR_EN reads high: the module waits for the condition of R561. -/
def pwrHigh (s : State) : State :=
  modPower s fun p => { p with pwrEn := true, state := if p.state = 0 then 1 else p.state }

/-- VIN is gone: the rails come down; with PWR_EN high FAULT_OUT_N is low until VIN returns (R535, R563). -/
def vinGone (s : State) : State :=
  let s := if railsUp s then railsDown s 1 else s
  modPower s fun p => { p with vin := false, vinLost := p.pwrEn }

def execVinUndervoltage (s : State) : Host.Outcome State Fault Refusal := .next (vinGone s)

/-- VIN_LOST: VIN is lost while VSTBY stays; the partitions end, and the event and a ring alert carry the last P_IN (R536, R537). -/
def execVinLost (s : State) : Host.Outcome State Fault Refusal :=
  .next (
    let t := endPartitions (vinGone s)
    if s.scribe.st = .running then raiseAlert t 0x0A11 [(4, s.scribe.pIn.toNat)] else t)

/-! ### The reference clock (R565) -/

/-- A PLL loses lock: the data path is held with its rails up, and the partitions end. -/
def execRefclkLost (standby : Bool) (s : State) : Host.Outcome State Fault Refusal :=
  .next (if !s.power.vstby then s
    else
      let held := railsUp s
      let s := s.bump (okey 0x1480 2) 1
      let s := if held then endDataPath s else endPartitions s
      let s := modPower s fun p => { p with refclkOk := false, state := if held then 4 else p.state }
      raiseFw s 0x0B05 [(1, b2n standby)])

/-- REFCLK has been stable for 10 ms: bring-up restarts from root PLL lock. -/
def refclkRestored (s : State) (ms : BitVec 32) (failed : List (BitVec 32)) : State :=
  if s.power.vstby && !s.power.refclkOk && s.power.state == 4 then
    bringUpHeld (startTimebase (modPower s fun p => { p with refclkOk := true })) ms failed
  else s

def execRefclkRestored (durationMs : BitVec 32) (failedChannels : List (BitVec 32)) (s : State) : Host.Outcome State Fault Refusal :=
  .next (refclkRestored s durationMs failedChannels)

/-! ### RESET_N (R568, R569) -/

/-- RESET_N reads low: the data path is reset and held, and the ring bypass closes (R540, R568). -/
def resetLow (s : State) (report : Bool) : State :=
  let held := railsUp s
  let s := if held then endDataPath s else endPartitions s
  let s := modPower s fun p => { p with resetLow := true, state := if held then 4 else p.state }
  let s := setBypass s true
  if report then raiseFw s 0x0B08 [(1, 0), (1, 0)] else s

/-- RESET_N reads high: the bypass opens, and bring-up runs its steps 3 to 6 if it was held (R540, R568, R569). -/
def resetHigh (s : State) (ms : BitVec 32) (failed : List (BitVec 32)) : State :=
  let s := modPower s fun p => { p with resetLow := false }
  let s := if s.scribe.st = .off then s else setBypass s false
  if s.power.state = 4 then bringUpHeld s ms failed else s

/-! ### Sideband inputs (R574 to R576) -/

/-- An input follows its pin: VIO is present and it is not held for chatter (R574, R576). -/
def follows (s : State) (i : Nat) : Bool := s.power.vio && !s.power.chatter.getLsbD i

def execResetNAssert (s : State) : Host.Outcome State Fault Refusal :=
  .next (if follows s 0 && !s.power.resetLow then resetLow s true else s)

def execResetNRelease (durationMs : BitVec 32) (failedChannels : List (BitVec 32)) (s : State) : Host.Outcome State Fault Refusal :=
  .next (if follows s 0 && s.power.resetLow then resetHigh s durationMs failedChannels else s)

def execPwrEnLow (s : State) : Host.Outcome State Fault Refusal := .next (if follows s 1 then pwrLow s else s)

def execPwrEnHigh (s : State) : Host.Outcome State Fault Refusal := .next (if follows s 1 && !s.power.pwrEn then pwrHigh s else s)

/-- A STUCK report ends once the input has been inactive for 1 s (R575). -/
def stuckEnds (s : State) (i off : Nat) : State :=
  if off + sec ≤ s.time then modPower s fun p => { p with stuck := p.stuck &&& ~~~ (1#8 <<< i) } else s

/-- THROTTLE_N reads a level (R531, R575). -/
def throttleTo (s : State) (active : Bool) : State :=
  if s.power.throttle = active then s
  else if active then modPower (stuckEnds s 2 s.power.throttleOff) fun p => { p with throttle := true }
  else modPower s fun p => { p with throttle := false, throttleOff := s.time }

/-- The divisor follows at once while the Scribe runs (R531). -/
def divisorNow (s : State) : State := if s.scribe.st = .running then setDivisor s else s

def execThrottleNChange (active : Bool) (s : State) : Host.Outcome State Fault Refusal :=
  .next (if follows s 2 then divisorNow (throttleTo s active) else s)

/-- FAULT_IN_N reads a level. Becoming active it raises FAULT_IN_ACTIVE, and with FAULT_IN_ACTION 2 the data path powers down and a
ring alert goes out (R531, R534, R537). -/
def faultInTo (s : State) (active : Bool) : State :=
  let action := s.o (okey 0x1420 9)
  if s.power.faultIn = active then s
  else if active then
    let s := modPower (stuckEnds s 3 s.power.faultOff) fun p => { p with faultIn := true }
    if s.scribe.st ≠ .running then s
    else if action = 2 then raiseAlert (tripDown s) 0x0A20 [(1, action)]
    else divisorNow (raise s 0x0A20 deviceWide [(1, action)])
  else divisorNow (modPower s fun p => { p with faultIn := false, faultOff := s.time })

def execFaultInNChange (active : Bool) (s : State) : Host.Outcome State Fault Refusal :=
  .next (if follows s 3 then faultInTo s active else s)

/-- The bit of an input in the maps of R578. -/
def sidebandBit : Sideband → Nat
  | .resetN => 0 | .pwrEn => 1 | .throttleN => 2 | .faultInN => 3

/-- THROTTLE_N or FAULT_IN_N has held its active level for more than 1 s: STUCK, once (R575). -/
def stuckNow (s : State) (i : Nat) (active : Bool) : State :=
  if active && follows s i && !s.power.stuck.getLsbD i then
    raiseFw (modPower s fun p => { p with stuck := p.stuck ||| (1#8 <<< i) }) 0x0B01 [(1, i)]
  else s

def execStuckTimer (i : Sideband) (s : State) : Host.Outcome State Fault Refusal :=
  .next (match i with
    | .throttleN => stuckNow s 2 s.power.throttle
    | .faultInN => stuckNow s 3 s.power.faultIn
    | .resetN | .pwrEn => s)

/-- SB_STUCK: an input whose report has ended is shown no more (R575, R578). -/
def stuckShown (s : State) : Nat :=
  let on (i : Nat) (active : Bool) (off : Nat) : Bool := s.power.stuck.getLsbD i && (active || decide (s.time < off + sec))
  4 * b2n (on 2 s.power.throttle s.power.throttleOff) + 8 * b2n (on 3 s.power.faultIn s.power.faultOff)

/-- INPUT_CHATTER: the input reads at its safe level (R574, R576). -/
def inputChatter (s : State) (i : Sideband) : State :=
  let b := sidebandBit i
  if !follows s b then s
  else
    let s := raiseFw (modPower s fun p => { p with chatter := p.chatter ||| (1#8 <<< b) }) 0x0B02 [(1, b)]
    match i with
    | .resetN => if s.power.resetLow then s else resetLow s true
    | .pwrEn => pwrLow s
    | .throttleN => divisorNow (throttleTo s true)
    | .faultInN => faultInTo s true

def execInputChatter (i : Sideband) (s : State) : Host.Outcome State Fault Refusal := .next (inputChatter s i)

/-- INPUT_QUIET: the input reads its raw level again; `raw` says it is active. A bring-up that RESET_N then lets run takes a time
the step does not name (R576). -/
def inputQuiet (s : State) (i : Sideband) (raw : Bool) : State :=
  let b := sidebandBit i
  if !s.power.chatter.getLsbD b then s
  else
    let s := raiseFw (modPower s fun p => { p with chatter := p.chatter &&& ~~~ (1#8 <<< b) }) 0x0B03 [(1, b)]
    match i with
    | .resetN => if raw then s else let f := s.takeFree 1; resetHigh f.2 (f.1.setWidth 32) []
    | .pwrEn => if raw then pwrHigh s else s
    | .throttleN => divisorNow (throttleTo s raw)
    | .faultInN => faultInTo s raw

def execInputQuiet (i : Sideband) (raw : Bool) (s : State) : Host.Outcome State Fault Refusal := .next (inputQuiet s i raw)

/-- VIO_LOSS: every input reads at its safe level and nothing is reported (R572, R574). -/
def vioLoss (s : State) : State :=
  if !s.power.vio then s
  else
    let s := modPower s fun p => { p with vio := false, chatter := 0 }
    let s := if s.power.resetLow then s else resetLow s false
    modPower (pwrLow s) fun p => { p with throttle := true, faultIn := true }

def execVioLoss (s : State) : Host.Outcome State Fault Refusal := .next (vioLoss s)

/-- VIO_APPLY: the inputs read their raw levels, bit i of `levels` saying that input i is active (R574, R578). -/
def vioApply (s : State) (levels : BitVec 4) : State :=
  if s.power.vio then s
  else
    let s := modPower s fun p => { p with vio := true }
    let s := if s.power.throttle = levels.getLsbD 2 then s else throttleTo s (levels.getLsbD 2)
    let s := if s.power.faultIn = levels.getLsbD 3 then s else faultInTo s (levels.getLsbD 3)
    let s := modPower s fun p => { p with resetLow := levels.getLsbD 0 }
    let s := if s.scribe.st = .off then s else setBypass s (levels.getLsbD 0)
    divisorNow (if levels.getLsbD 1 then pwrHigh s else s)

def execVioApply (levels : BitVec 4) (s : State) : Host.Outcome State Fault Refusal := .next (vioApply s levels)

/-- TACH_GATE: a 1 s gate ends; above 20,000 edges the tachometer is saturated (R577). -/
def tachGate (s : State) (fan : Bool) (edges : Nat) : State :=
  let b := 4 + b2n fan
  let hz := min edges 20000
  let was := s.power.tachSat.getLsbD b
  let s := { s with scribe := if fan then { s.scribe with tach1 := hz } else { s.scribe with tach0 := hz } }
  if 20000 < edges then
    let s := modPower s fun p => { p with tachSat := p.tachSat ||| (1#8 <<< b) }
    if was then s else raiseFw s 0x0B04 [(1, b)]
  else if edges < 20000 then modPower s fun p => { p with tachSat := p.tachSat &&& ~~~ (1#8 <<< b) }
  else s

def execTachGate (fan : Bool) (edges : BitVec 32) (s : State) : Host.Outcome State Fault Refusal :=
  .next (if s.scribe.st = .running then tachGate s fan edges.toNat else s)

/-! ### RESET_LEVEL (R570, R571) -/

/-- Counters of an output and its port (R476). -/
def outputCounter (o k : Nat) : Bool :=
  let ix := k / 256
  let base := if o < 128 then 0x3000 + 8 * o else 0x3400 + 8 * (o - 128)
  (decide (base ≤ ix) && decide (ix < base + 8)) || (decide (0x4000 + 4 * o ≤ ix) && decide (ix < 0x4000 + 4 * o + 4))

/-- Level 1: the port acts as on leaving ACTIVE for DETECT, its counters are zeroed, and it re-enters DETECT if ENABLE is set (R60,
R160, R570). -/
def portResetNow (s : State) (o : Nat) : State :=
  let zero (s : State) : State := { s with ctr := Sparse.drop (outputCounter o) s.ctr }
  if o < 128 then
    let s := zero (portTo s o .detect 1)
    let s := s.setPort o {}
    if s.o (portObj o 0 1) = 1 then portUp s o else s
  else zero (hostDown s (o - 128))

/-- The reset of a unit that RESET_LEVEL names is reported (R579). -/
def resetApplied (s : State) (epart level ix : Nat) : State := raise s 0x0B08 epart [(1, level), (1, ix)]

/-- RESET_LEVEL 1. -/
def setPortReset (s : State) (by_ : Caller) (o : Nat) : Ans :=
  guardRole s (isOpr s by_) <|
  guardValue s (portOk s o || o == 128 || o == 129) <|
  Ans.ok (portResetNow (resetApplied s (outOwner s o) 1 o) o)

def execPortReset (by_ : Caller) (o : BitVec 8) (s : State) : Host.Outcome State Fault Refusal := (setPortReset s by_ o.toNat).out by_

/-- What refuses a tile reset (R571). -/
def tileBusy (s : State) (t : Nat) : Bool :=
  ((List.range 4).any fun i =>
    let q := 4 * t + i
    !(unitsUsed s q).isEmpty || (s.ctxs.any fun e => ctxQuill e.1 == q && e.2.st != .free) ||
      (s.tables.any fun e => e.2.st == .switching && tSquill e.2.word == q)) ||
    s.domains.any fun e => e.2.st == .active || e.2.st == .held

/-- Counters of a tile's quills (R476), beside those of its ports and meters. -/
def tileCounter (t k : Nat) : Bool :=
  let ix := k / 256
  (decide (0x7040 + 4 * t ≤ ix) && decide (ix < 0x7044 + 4 * t)) || (decide (0x8200 + 4 * t ≤ ix) && decide (ix < 0x8204 + 4 * t))

/-- Takes requests out of the units that serve them, and with them the completions those units made. -/
def abandonWork (s : State) (keys : List ReqKey) : State :=
  let mine (m : Msg) : Bool := keys.contains (hdrKey m.hdr)
  let s := endGather (endMemory s mine St.busy) (fun g => mine g.msg) St.busy
  let s := endEncodes (failJobs s mine St.busy) mine St.busy
  let ids := (s.expResps.filter fun r => mine r.msg).map (·.id)
  let bs := (s.expanders.flatMap (·.2)).filter fun b => ids.contains b.id
  let s := { s with
    expResps := s.expResps.filter fun r => !mine r.msg
    expanders := Sparse.mapVals [] (fun l => l.filter fun b => !ids.contains b.id) s.expanders
    moves := s.moves.map fun m => { m with req := m.req.filter fun r => !mine r }
    moveQ := s.moveQ.map fun m => { m with req := m.req.filter fun r => !mine r } }
  let s := bs.foldl (fun s b => match b.entry with | some i => releaseRef s b.slot i | none => s) s
  let s := (s.ctxs.filter fun e => e.2.opener.any mine).foldl (fun s e => freeCtx (abortMirror s e.1) e.1) s
  dropPackets s fun h => isCmplOp h.pkt.hdr.op && keys.contains (cmplKey h.pkt.hdr)

/-- A journal record of the tile ends (R571 step 1). -/
def endJournal (s : State) (j : JRec) : State := finishRequest s j.hdr St.replayExhausted (BitVec.ofNat 16 j.att)

/-- The tile's packet buffer is empty but for the completions of step 1; what it held counts as lost (R98, R571 step 3). -/
def emptyBuffer (s : State) (t : Nat) (js : List JRec) : State :=
  let keys := js.map (·.key)
  let gone (h : Held) : Bool := h.tile.val == t && !(h.kind == .final && keys.contains (cmplKey h.pkt.hdr))
  let lost := (heldPackets s).filter gone
  let s := (dropPackets s gone).bump (okey 0xFFFF 2) lost.length
  updateAllXoff (lost.foldl (fun s h => afterDiscard s h.pkt.hdr) s)

/-- Level 2 (R571). -/
def tileResetNow (s : State) (t : Nat) : State :=
  let js := s.journal.filter fun j => j.tile.val == t
  let s := js.foldl endJournal (abandonWork s (js.map (·.key)))
  let s := (List.range 8).foldl (fun s i => if portOk s (8 * t + i) then portResetNow s (8 * t + i) else s) s
  let s := emptyBuffer s t js
  { s with
    opRecs := s.opRecs.filter fun r => r.tile.val != t
    ligRecs := s.ligRecs.filter fun r => r.tile.val != t
    ctr := Sparse.drop (tileCounter t) s.ctr
    meters := s.meters.map fun e => if e.1 / 256 = t then (e.1, { e.2 with green := 0, yellow := 0, red := 0 }) else e
    power := { s.power with tileWin := ⟨t % 16, by omega⟩ :: s.power.tileWin.filter fun x => x.val != t } }

/-- RESET_LEVEL 2. -/
def setTileReset (s : State) (by_ : Caller) (t : Nat) : Ans :=
  guardRole s (isOpr s by_) <|
  guardValue s (tileOk s t && !tileBusy s t) <|
  Ans.ok (tileResetNow (resetApplied s deviceWide 2 t) t)

def execTileReset (by_ : Caller) (t : BitVec 8) (s : State) : Host.Outcome State Fault Refusal := (setTileReset s by_ t.toNat).out by_

/-- 1 ms after a tile reset (R571). -/
def execTileResetWindowEnd (t : Tile) (s : State) : Host.Outcome State Fault Refusal :=
  .next (modPower s fun p => { p with tileWin := p.tileWin.filter (· != t) })

/-- RESET_LEVEL 3: as RESET_N, without the bypass (R570). -/
def setDataPathReset (s : State) (by_ : Caller) (ms : BitVec 32) (failed : List (BitVec 32)) : Ans :=
  guardRole s (isOpr s by_) <|
  let s := resetApplied s deviceWide 3 0
  let up := dataUp s
  let s := endDataPath s
  Ans.ok (if up then bringUpHeld s ms failed else s)

def execDataPathReset (by_ : Caller) (durationMs : BitVec 32) (failedChannels : List (BitVec 32)) (s : State) :
    Host.Outcome State Fault Refusal :=
  (setDataPathReset s by_ durationMs failedChannels).out by_

end Sys2Proof.Machine
end

