-- ==== Sys2Proof/Machine/Objects.lean ====
section
/-! DEFINITION. The Tabmas dictionary as a table: every object with its type, access kind, range and who may reach it (R469 to
R481, R516), where an index lies in its family, and which partition an object belongs to. -/

namespace Sys2Proof.Machine

/-! ### Entries (R470 to R472, R480) -/

/-- Value types (R470). -/
inductive Ty where
  | bool | u8 | u16 | u32 | u64 | f32 | str | blob
  deriving DecidableEq, Repr

/-- Access kinds (R472). -/
inductive ObjAccess where
  | ro | rw | wo | cmd | rws
  deriving DecidableEq, Repr

/-- The Range column (R471). -/
inductive Rng where
  /-- No limit but the type's. -/
  | any
  | nat (lo hi : Nat)
  /-- A range and one value more. -/
  | natOr (lo hi one : Nat)
  | oneOf (vs : List Nat)
  /-- F32 patterns of the least and the greatest value. -/
  | real (lo hi : BitVec 32)
  /-- A BLOB of a fixed length. -/
  | len (n : Nat)
  /-- A BLOB of records of a size, at most so many. -/
  | recs (size max : Nat)
  deriving DecidableEq, Repr

/-- Whose sessions may read an object (R480, R391). -/
inductive Scope where
  /-- Every role. -/
  | identity
  /-- OPR and VND. -/
  | device
  | oprOnly
  /-- OPR, VND and ATT. -/
  | att
  /-- The caller's own session: every role but ATT. -/
  | session
  /-- A unit, or a partition's own object: OPR, VND, and the PRT of its partition. -/
  | unit
  /-- As `unit`, and ATT. -/
  | unitAtt
  /-- A selector, held by the session: OPR, VND and PRT. -/
  | selector
  /-- ATT_SELECT. -/
  | attSelector
  /-- What a selector names, by the selector's INDEX and SUB: as `unit`, by the record's partition. -/
  | selected (ix sub : Nat)
  deriving DecidableEq, Repr

/-- Who may write an object beside its access kind (R480). -/
inductive Who where
  | opr
  /-- OPR, or the PRT of the object's partition. -/
  | owner
  | prt
  /-- Each record says whose it is. -/
  | records
  /-- OPR, VND and PRT: the caller's own session. -/
  | self
  | vnd
  | selector
  | attSelector
  deriving DecidableEq, Repr

/-- An object of the table. `cnt`: a counter that R392 coarsens; `open_`: read by OPR of a SEALED partition too (R391). -/
structure ObjRow where
  ix    : Nat
  sub   : Nat
  ty    : Ty
  acc   : ObjAccess
  rng   : Rng := .any
  scope : Scope := .device
  who   : Who := .opr
  cnt   : Bool := false
  open_ : Bool := false
  deriving DecidableEq, Repr

/-- Rows that differ in their subindex only. -/
def rows (subs : List Nat) (r : ObjRow) : List ObjRow := subs.map fun n => { r with sub := n }
/-- Subindices from `a` to `b`. -/
def span (a b : Nat) : List Nat := (List.range (b + 1 - a)).map (a + ·)

/-! ### Identity, sessions, events, the log (R510 to R514, R551, R552) -/

def objsDictionary : List ObjRow :=
  [{ ix := 0x1000, sub := 1, ty := .str, acc := .ro, scope := .identity }, { ix := 0x1000, sub := 2, ty := .str, acc := .ro, scope := .identity },
   { ix := 0x1000, sub := 3, ty := .u8, acc := .ro, scope := .identity }, { ix := 0x1000, sub := 4, ty := .u8, acc := .ro, scope := .identity },
   { ix := 0x1000, sub := 5, ty := .str, acc := .ro, scope := .identity }, { ix := 0x1000, sub := 6, ty := .blob, acc := .ro, scope := .identity },
   { ix := 0x1000, sub := 7, ty := .u8, acc := .ro, scope := .identity },
   { ix := 0x1001, sub := 1, ty := .u32, acc := .ro, scope := .identity }, { ix := 0x1001, sub := 2, ty := .u32, acc := .ro, scope := .identity },
   { ix := 0x1008, sub := 1, ty := .blob, acc := .ro, scope := .identity }, { ix := 0x1008, sub := 2, ty := .u32, acc := .ro, scope := .identity },
   { ix := 0x1100, sub := 1, ty := .blob, acc := .wo, rng := .len 32 }, { ix := 0x1100, sub := 2, ty := .bool, acc := .ro },
   { ix := 0x1100, sub := 3, ty := .u32, acc := .rw, rng := .nat 5 3600 }, { ix := 0x1100, sub := 4, ty := .u8, acc := .ro },
   { ix := 0x1100, sub := 5, ty := .blob, acc := .ro, scope := .session }, { ix := 0x1100, sub := 6, ty := .blob, acc := .ro, scope := .oprOnly },
   { ix := 0x1100, sub := 7, ty := .u16, acc := .cmd, rng := .nat 1 65535 }, { ix := 0x1100, sub := 8, ty := .u64, acc := .ro },
   { ix := 0x1100, sub := 9, ty := .u64, acc := .ro }, { ix := 0x1100, sub := 0xA, ty := .u8, acc := .cmd, rng := .nat 1 1, who := .vnd },
   { ix := 0x1120, sub := 1, ty := .blob, acc := .wo, rng := .len 32, scope := .unit },
   { ix := 0x1120, sub := 2, ty := .bool, acc := .ro, scope := .unit }]

def objsEvents : List ObjRow :=
  [{ ix := 0x1200, sub := 1, ty := .blob, acc := .ro, scope := .session },
   { ix := 0x1200, sub := 2, ty := .u32, acc := .cmd, scope := .session, who := .self },
   { ix := 0x1200, sub := 3, ty := .u16, acc := .ro, scope := .session }, { ix := 0x1200, sub := 4, ty := .u32, acc := .ro, scope := .session },
   { ix := 0x1200, sub := 5, ty := .blob, acc := .rw, rng := .len 32, scope := .session, who := .self },
   { ix := 0x1200, sub := 6, ty := .bool, acc := .rw, scope := .session, who := .self },
   { ix := 0x1201, sub := 5, ty := .u8, acc := .rw, rng := .nat 0 3 }, { ix := 0x1201, sub := 6, ty := .u64, acc := .ro }] ++
  rows (span 1 4) { ix := 0x1201, sub := 0, ty := .u8, acc := .ro } ++
  [{ ix := 0x1240, sub := 1, ty := .u32, acc := .rw }, { ix := 0x1240, sub := 2, ty := .blob, acc := .ro },
   { ix := 0x1240, sub := 3, ty := .u32, acc := .ro }, { ix := 0x1240, sub := 4, ty := .u32, acc := .ro },
   { ix := 0x1240, sub := 5, ty := .u32, acc := .rw }, { ix := 0x1240, sub := 6, ty := .blob, acc := .ro },
   { ix := 0x1240, sub := 7, ty := .u32, acc := .ro }, { ix := 0x1240, sub := 8, ty := .blob, acc := .rw, rng := .len 32 },
   { ix := 0x1240, sub := 9, ty := .u64, acc := .ro }, { ix := 0x1240, sub := 0xA, ty := .u8, acc := .cmd, rng := .nat 1 1 },
   { ix := 0x1240, sub := 0xB, ty := .u8, acc := .ro }, { ix := 0x1241, sub := 1, ty := .u64, acc := .ro }, { ix := 0x1241, sub := 2, ty := .u64, acc := .ro },
   { ix := 0xB000, sub := 1, ty := .bool, acc := .ro }, { ix := 0xB000, sub := 2, ty := .u32, acc := .ro }, { ix := 0xB000, sub := 3, ty := .u64, acc := .ro }]

/-! ### The Scribe, power and the ring (R552, R578) -/

def objsScribe : List ObjRow :=
  rows (span 1 4) { ix := 0x1400, sub := 0, ty := .f32, acc := .ro } ++
  [{ ix := 0x1400, sub := 5, ty := .u8, acc := .ro }, { ix := 0x1400, sub := 6, ty := .blob, acc := .ro }, { ix := 0x1400, sub := 7, ty := .blob, acc := .ro },
   { ix := 0x1400, sub := 8, ty := .f32, acc := .ro }, { ix := 0x1400, sub := 9, ty := .f32, acc := .ro }, { ix := 0x1400, sub := 0xA, ty := .u32, acc := .ro },
   { ix := 0x1400, sub := 0xB, ty := .u32, acc := .ro }, { ix := 0x1400, sub := 0xC, ty := .blob, acc := .ro }, { ix := 0x1400, sub := 0xD, ty := .u64, acc := .ro },
   { ix := 0x1410, sub := 1, ty := .f32, acc := .rw, rng := .real 0x42700000 0x42C80000 },
   { ix := 0x1410, sub := 2, ty := .f32, acc := .rw, rng := .real 0 0x3DCCCCCD },
   { ix := 0x1410, sub := 3, ty := .f32, acc := .rw, rng := .real 0 0x42480000 },
   { ix := 0x1410, sub := 4, ty := .f32, acc := .rw, rng := .real 0 0x41200000 },
   { ix := 0x1410, sub := 7, ty := .u8, acc := .rw, rng := .nat 0 1 }] ++
  rows [5, 6, 8, 9] { ix := 0x1410, sub := 0, ty := .f32, acc := .rw, rng := .real 0 0x42C80000 } ++
  rows (span 0xA 0xD) { ix := 0x1410, sub := 0, ty := .f32, acc := .ro } ++
  [{ ix := 0x1410, sub := 0xE, ty := .f32, acc := .rw, rng := .real 0x41700000 0x42700000 },
   { ix := 0x1410, sub := 0xF, ty := .u32, acc := .rw, rng := .nat 0 20000 },
   { ix := 0x1420, sub := 1, ty := .u8, acc := .ro }, { ix := 0x1420, sub := 2, ty := .u8, acc := .ro },
   { ix := 0x1420, sub := 3, ty := .f32, acc := .rw, rng := .real 0x428C0000 0x42DC0000 },
   { ix := 0x1420, sub := 4, ty := .f32, acc := .rw, rng := .real 0x428C0000 0x42E00000 },
   { ix := 0x1420, sub := 5, ty := .f32, acc := .rw, rng := .real 0x3F800000 0x41A00000 },
   { ix := 0x1420, sub := 6, ty := .f32, acc := .rw, rng := .real 0x42C80000 0x42E60000 },
   { ix := 0x1420, sub := 7, ty := .u32, acc := .rw, rng := .nat 600 1450 },
   { ix := 0x1420, sub := 8, ty := .u8, acc := .rw, rng := .oneOf [8, 12] },
   { ix := 0x1420, sub := 9, ty := .u8, acc := .rw, rng := .nat 0 2 },
   { ix := 0x1420, sub := 0xA, ty := .u8, acc := .rw, rng := .oneOf [6, 8, 12] },
   { ix := 0x1420, sub := 0xB, ty := .u64, acc := .ro }, { ix := 0x1420, sub := 0xC, ty := .u64, acc := .ro }, { ix := 0x1420, sub := 0xD, ty := .u32, acc := .ro }]

def objsPower : List ObjRow :=
  [{ ix := 0x1480, sub := 1, ty := .bool, acc := .ro }, { ix := 0x1480, sub := 2, ty := .u32, acc := .ro },
   { ix := 0x1481, sub := 1, ty := .u8, acc := .ro }, { ix := 0x1481, sub := 2, ty := .u8, acc := .ro }, { ix := 0x1481, sub := 3, ty := .u32, acc := .ro },
   { ix := 0x1481, sub := 4, ty := .u32, acc := .ro }, { ix := 0x1482, sub := 1, ty := .u16, acc := .cmd }] ++
  rows (span 1 4) { ix := 0x1483, sub := 0, ty := .u8, acc := .ro } ++
  [{ ix := 0x1600, sub := 1, ty := .blob, acc := .wo, rng := .recs 1 4194304 }, { ix := 0x1600, sub := 2, ty := .u8, acc := .cmd, rng := .nat 1 4 },
   { ix := 0x1600, sub := 3, ty := .u8, acc := .ro }, { ix := 0x1600, sub := 4, ty := .u8, acc := .ro }, { ix := 0x1600, sub := 5, ty := .u32, acc := .ro },
   { ix := 0x1600, sub := 6, ty := .u8, acc := .ro }, { ix := 0x1600, sub := 7, ty := .u16, acc := .ro }, { ix := 0x1600, sub := 8, ty := .u32, acc := .ro },
   { ix := 0x1600, sub := 9, ty := .u8, acc := .ro }] ++
  rows (span 1 3) { ix := 0x3500, sub := 0, ty := .bool, acc := .ro } ++ rows (span 4 7) { ix := 0x3500, sub := 0, ty := .u64, acc := .ro }

/-! ### Partitions and attestation (R414, R415) -/

def objsPartitions : List ObjRow :=
  rows [1, 2] { ix := 0x1620, sub := 0, ty := .blob, acc := .ro, scope := .att } ++
  [{ ix := 0x1620, sub := 3, ty := .blob, acc := .ro, scope := .att }, { ix := 0x1620, sub := 4, ty := .u32, acc := .rw, rng := .nat 100 600000 },
   { ix := 0x1620, sub := 5, ty := .u8, acc := .rw, rng := .nat 0 31, scope := .attSelector, who := .attSelector },
   { ix := 0x1620, sub := 6, ty := .blob, acc := .wo, rng := .len 32 }, { ix := 0x1620, sub := 7, ty := .blob, acc := .ro, scope := .att },
   { ix := 0x1620, sub := 8, ty := .blob, acc := .wo, rng := .len 1120 }, { ix := 0x1620, sub := 9, ty := .blob, acc := .ro, scope := .att },
   { ix := 0x1620, sub := 0xA, ty := .u32, acc := .ro, scope := .att },
   { ix := 0x2000, sub := 1, ty := .u8, acc := .ro, scope := .unit, open_ := true },
   { ix := 0x2000, sub := 2, ty := .u8, acc := .cmd, rng := .nat 1 3, scope := .unit, who := .owner, open_ := true },
   { ix := 0x2000, sub := 3, ty := .u8, acc := .ro, scope := .unit },
   { ix := 0x2001, sub := 1, ty := .blob, acc := .rw, rng := .len 16, scope := .unit }, { ix := 0x2001, sub := 2, ty := .u8, acc := .rw, rng := .nat 0 3, scope := .unit },
   { ix := 0x2001, sub := 3, ty := .u64, acc := .rw, scope := .unit }, { ix := 0x2001, sub := 4, ty := .blob, acc := .rw, rng := .len 128, scope := .unit },
   { ix := 0x2001, sub := 5, ty := .u32, acc := .rw, rng := .nat 0 0xFFFFFF, scope := .unit },
   { ix := 0x2001, sub := 6, ty := .u32, acc := .rw, rng := .nat 0 0xFFFFFF, scope := .unit },
   { ix := 0x2001, sub := 7, ty := .blob, acc := .ro, scope := .unit, open_ := true },
   { ix := 0x2002, sub := 1, ty := .u8, acc := .rw, rng := .nat 0 129, scope := .unit, who := .owner },
   { ix := 0x2002, sub := 2, ty := .blob, acc := .ro, scope := .unit }, { ix := 0x2002, sub := 3, ty := .u16, acc := .cmd, scope := .unit, who := .owner },
   { ix := 0x2002, sub := 4, ty := .u16, acc := .cmd, scope := .unit, who := .owner },
   { ix := 0x2002, sub := 5, ty := .blob, acc := .rw, rng := .recs 32 64, scope := .unit, who := .owner },
   { ix := 0x2002, sub := 6, ty := .u8, acc := .cmd, rng := .oneOf [128, 129], scope := .unit, who := .owner },
   { ix := 0x2003, sub := 1, ty := .blob, acc := .ro, scope := .unit }, { ix := 0x2003, sub := 2, ty := .u32, acc := .ro, scope := .unit }] ++
  rows (span 1 3) { ix := 0x2004, sub := 0, ty := .u64, acc := .ro, cnt := true }

/-! ### Ports, routes, queues and meters (R95, R134, R163, R164, R513) -/

def objsPorts : List ObjRow :=
  [{ ix := 0x3000, sub := 1, ty := .bool, acc := .rw, scope := .unit }, { ix := 0x3000, sub := 2, ty := .u8, acc := .rws, rng := .nat 1 3, scope := .unit },
   { ix := 0x3000, sub := 3, ty := .u8, acc := .rws, rng := .nat 0 4, scope := .unit }, { ix := 0x3000, sub := 4, ty := .bool, acc := .rws, scope := .unit },
   { ix := 0x3000, sub := 5, ty := .u8, acc := .cmd, rng := .nat 1 1, scope := .unit },
   { ix := 0x3001, sub := 3, ty := .u32, acc := .ro, scope := .unit }, { ix := 0x3001, sub := 7, ty := .u32, acc := .ro, scope := .unit, cnt := true }] ++
  rows [1, 2, 4, 5, 6] { ix := 0x3001, sub := 0, ty := .u8, acc := .ro, scope := .unit } ++
  rows (span 1 8) { ix := 0x3002, sub := 0, ty := .u64, acc := .ro, scope := .unit, cnt := true } ++
  rows (span 1 3) { ix := 0x3003, sub := 0, ty := .u8, acc := .ro, scope := .unit } ++
  rows (span 4 6) { ix := 0x3003, sub := 0, ty := .u64, acc := .ro, scope := .unit } ++
  rows [1, 2] { ix := 0x3004, sub := 0, ty := .u16, acc := .ro, scope := .unit } ++
  rows [3, 4] { ix := 0x3004, sub := 0, ty := .u32, acc := .ro, scope := .unit } ++
  [{ ix := 0x3400, sub := 1, ty := .bool, acc := .rw, scope := .unit }, { ix := 0x3400, sub := 2, ty := .u8, acc := .rws, rng := .nat 1 3, scope := .unit },
   { ix := 0x3400, sub := 3, ty := .u32, acc := .rws, scope := .unit }, { ix := 0x3400, sub := 4, ty := .u8, acc := .rws, rng := .nat 1 31, scope := .unit },
   { ix := 0x3400, sub := 5, ty := .blob, acc := .rws, rng := .len 16, scope := .unit },
   { ix := 0x3400, sub := 6, ty := .u16, acc := .rws, rng := .natOr 0 4094 0xFFFF, scope := .unit },
   { ix := 0x3401, sub := 1, ty := .bool, acc := .ro, scope := .unit }, { ix := 0x3401, sub := 2, ty := .u8, acc := .ro, scope := .unit },
   { ix := 0x3401, sub := 8, ty := .u16, acc := .ro, scope := .unit }] ++
  rows (span 3 7) { ix := 0x3401, sub := 0, ty := .u64, acc := .ro, scope := .unit, cnt := true }

def objsRoutes : List ObjRow :=
  [{ ix := 0x3800, sub := 1, ty := .u32, acc := .rws, rng := .nat 0 0xFFFFFF }, { ix := 0x3800, sub := 2, ty := .bool, acc := .rw },
   { ix := 0x3800, sub := 3, ty := .u8, acc := .rw, rng := .nat 2 15 }, { ix := 0x3800, sub := 4, ty := .u32, acc := .rw, rng := .nat 10 10000 },
   { ix := 0x3800, sub := 6, ty := .u64, acc := .rws }, { ix := 0x3800, sub := 7, ty := .u32, acc := .rw, rng := .nat 16 10000 },
   { ix := 0x3800, sub := 8, ty := .u32, acc := .cmd }, { ix := 0x3800, sub := 9, ty := .u16, acc := .ro }, { ix := 0x3800, sub := 0xA, ty := .u16, acc := .ro },
   { ix := 0x3801, sub := 1, ty := .u8, acc := .ro }, { ix := 0x3801, sub := 2, ty := .u32, acc := .rws },
   { ix := 0x3801, sub := 3, ty := .blob, acc := .wo, rng := .recs 20 209715 }, { ix := 0x3801, sub := 4, ty := .blob, acc := .wo, rng := .recs 8 524288 }] ++
  rows (span 5 7) { ix := 0x3801, sub := 0, ty := .u8, acc := .cmd, rng := .nat 1 1 } ++
  [{ ix := 0x3801, sub := 8, ty := .u32, acc := .ro }, { ix := 0x3801, sub := 9, ty := .u32, acc := .ro },
   { ix := 0x3801, sub := 0xA, ty := .u32, acc := .rw, rng := .nat 0 65535 }, { ix := 0x3801, sub := 0xB, ty := .blob, acc := .ro },
   { ix := 0x3804, sub := 1, ty := .blob, acc := .wo, rng := .recs 36 116508 }, { ix := 0x3804, sub := 2, ty := .u16, acc := .rw, rng := .nat 0 4095 },
   { ix := 0x3804, sub := 3, ty := .blob, acc := .ro }] ++
  rows (span 1 8) { ix := 0x3805, sub := 0, ty := .u64, acc := .ro, cnt := true } ++
  rows [1, 2] { ix := 0x3806, sub := 0, ty := .u32, acc := .rws, rng := .nat 2691 65162 } ++
  [{ ix := 0x3806, sub := 3, ty := .u32, acc := .rws, rng := .nat 33 65162 }, { ix := 0x3806, sub := 4, ty := .u32, acc := .ro, cnt := true }]

def objsQueues : List ObjRow :=
  [{ ix := 0x4000, sub := 1, ty := .u8, acc := .rw, scope := .unit, who := .owner },
   { ix := 0x4000, sub := 2, ty := .u32, acc := .rw, rng := .nat 0 100000, scope := .unit, who := .owner },
   { ix := 0x4000, sub := 3, ty := .u32, acc := .rw, rng := .nat 2100 1048576, scope := .unit, who := .owner }] ++
  rows (span 0x10 0x17) { ix := 0x4000, sub := 0, ty := .u8, acc := .rw, rng := .nat 1 64, scope := .unit, who := .owner } ++
  rows (span 0x20 0x27) { ix := 0x4000, sub := 0, ty := .u32, acc := .rw, rng := .nat 0 100000, scope := .unit, who := .owner } ++
  rows (span 0x28 0x2F) { ix := 0x4000, sub := 0, ty := .u32, acc := .rw, rng := .nat 2100 1048576, scope := .unit, who := .owner } ++
  rows [0x31, 0x33, 0x35, 0x37] { ix := 0x4000, sub := 0, ty := .u16, acc := .rw, rng := .natOr 0 4095 0xFFFF, scope := .unit, who := .owner } ++
  [{ ix := 0x4001, sub := 1, ty := .u8, acc := .rw, rng := .nat 0 10, scope := .unit, who := .owner },
   { ix := 0x4001, sub := 2, ty := .u32, acc := .rw, rng := .nat 33 65162, scope := .unit, who := .owner }] ++
  rows [3, 4, 6, 7, 9, 0xA] { ix := 0x4001, sub := 0, ty := .u32, acc := .rw, scope := .unit, who := .owner } ++
  rows [5, 8, 0xB] { ix := 0x4001, sub := 0, ty := .u16, acc := .rw, scope := .unit, who := .owner } ++
  rows (span 1 8) { ix := 0x4002, sub := 0, ty := .u32, acc := .ro, scope := .unit } ++
  rows (span 9 0xF) { ix := 0x4002, sub := 0, ty := .u64, acc := .ro, scope := .unit, cnt := true } ++
  [{ ix := 0x4002, sub := 0x10, ty := .u32, acc := .ro, scope := .unit },
   { ix := 0x4300, sub := 1, ty := .blob, acc := .wo, rng := .recs 28 149796, who := .records },
   { ix := 0x4300, sub := 2, ty := .u16, acc := .rw, rng := .nat 0 4095, scope := .selector, who := .selector },
   { ix := 0x4300, sub := 3, ty := .blob, acc := .ro, scope := .selected 0x4300 2 }] ++
  rows (span 4 6) { ix := 0x4300, sub := 0, ty := .u64, acc := .ro, scope := .selected 0x4300 2, cnt := true } ++
  [{ ix := 0x4302, sub := 1, ty := .u64, acc := .rws }, { ix := 0x4302, sub := 2, ty := .u32, acc := .rw, rng := .nat 10 10000 }]

/-! ### Memory, tiers, domains (R219, R220, R335) -/

def objsMemory : List ObjRow :=
  [{ ix := 0x5000, sub := 1, ty := .u32, acc := .rw, rng := .nat 8 512 }, { ix := 0x5000, sub := 2, ty := .u32, acc := .ro }, { ix := 0x5000, sub := 3, ty := .u32, acc := .ro }] ++
  rows (span 4 6) { ix := 0x5000, sub := 0, ty := .u64, acc := .ro, cnt := true } ++
  [{ ix := 0x5020, sub := 1, ty := .u32, acc := .rw, rng := .nat 0 65536, scope := .unit }, { ix := 0x5020, sub := 2, ty := .u32, acc := .rw, rng := .nat 1 65536, scope := .unit },
   { ix := 0x5020, sub := 3, ty := .u32, acc := .ro, scope := .unit },
   { ix := 0x5100, sub := 1, ty := .blob, acc := .wo, rng := .recs 36 116508 },
   { ix := 0x5100, sub := 2, ty := .u16, acc := .rw, scope := .selector, who := .selector },
   { ix := 0x5100, sub := 3, ty := .blob, acc := .ro, scope := .selected 0x5100 2, open_ := true },
   { ix := 0x5100, sub := 4, ty := .u8, acc := .ro, scope := .selected 0x5100 2, open_ := true },
   { ix := 0x5100, sub := 5, ty := .u16, acc := .cmd }, { ix := 0x5100, sub := 6, ty := .u16, acc := .cmd }, { ix := 0x5100, sub := 7, ty := .u32, acc := .rw, rng := .nat 10 100000 },
   { ix := 0x5100, sub := 8, ty := .u32, acc := .ro, scope := .selected 0x5100 2, open_ := true }, { ix := 0x5100, sub := 9, ty := .u32, acc := .ro },
   { ix := 0x5100, sub := 0xA, ty := .u64, acc := .ro, cnt := true },
   { ix := 0x5200, sub := 1, ty := .blob, acc := .wo, rng := .recs 8 524288, who := .records },
   { ix := 0x5200, sub := 2, ty := .u16, acc := .rw, rng := .nat 0 4095, scope := .selector, who := .selector },
   { ix := 0x5200, sub := 3, ty := .blob, acc := .ro, scope := .selected 0x5200 2 }, { ix := 0x5200, sub := 4, ty := .u32, acc := .ro, scope := .selected 0x5200 2 },
   { ix := 0x6000, sub := 1, ty := .u32, acc := .rws }, { ix := 0x6000, sub := 2, ty := .u32, acc := .ro }, { ix := 0x6000, sub := 3, ty := .u32, acc := .rw, rng := .nat 50 10000 },
   { ix := 0x6100, sub := 1, ty := .u8, acc := .rws, rng := .nat 0 31, scope := .unit }, { ix := 0x6100, sub := 2, ty := .u8, acc := .ro, scope := .unit },
   { ix := 0x6100, sub := 3, ty := .u8, acc := .cmd, rng := .nat 1 3, scope := .unit }, { ix := 0x6100, sub := 4, ty := .u16, acc := .rws, scope := .unit },
   { ix := 0x6100, sub := 5, ty := .u8, acc := .ro, scope := .unit }, { ix := 0x6100, sub := 6, ty := .u8, acc := .ro, scope := .unit }] ++
  rows (span 1 0x10) { ix := 0x6101, sub := 0, ty := .u32, acc := .rws, rng := .nat 0 0xFFFFFF, scope := .unit } ++
  rows (span 1 8) { ix := 0x6102, sub := 0, ty := .u32, acc := .rws, scope := .unit } ++
  rows (span 1 3) { ix := 0x6103, sub := 0, ty := .u64, acc := .ro, scope := .unit }

def objsTiers : List ObjRow :=
  [{ ix := 0x5300, sub := 1, ty := .blob, acc := .wo, rng := .recs 66 63550, who := .records },
   { ix := 0x5300, sub := 2, ty := .u16, acc := .rw, rng := .nat 0 16383, scope := .selector, who := .selector },
   { ix := 0x5300, sub := 3, ty := .blob, acc := .ro, scope := .selected 0x5300 2 },
   { ix := 0x5300, sub := 4, ty := .u16, acc := .cmd, rng := .nat 0 16383, who := .records }, { ix := 0x5300, sub := 5, ty := .u32, acc := .ro },
   { ix := 0x5300, sub := 6, ty := .u16, acc := .ro }, { ix := 0x5300, sub := 7, ty := .u64, acc := .ro, cnt := true }, { ix := 0x5300, sub := 8, ty := .blob, acc := .ro },
   { ix := 0x5320, sub := 1, ty := .bool, acc := .rw, scope := .unit }, { ix := 0x5320, sub := 2, ty := .u16, acc := .rw, rng := .nat 0 960, scope := .unit }] ++
  rows (span 3 6) { ix := 0x5320, sub := 0, ty := .u32, acc := .rw, scope := .unit } ++ rows (span 7 0xB) { ix := 0x5320, sub := 0, ty := .u32, acc := .ro, scope := .unit } ++
  [{ ix := 0x5320, sub := 0xC, ty := .bool, acc := .rw, scope := .unit, who := .prt },
   { ix := 0x5400, sub := 1, ty := .blob, acc := .wo, rng := .recs 8 524288, who := .records }, { ix := 0x5400, sub := 2, ty := .blob, acc := .wo, rng := .recs 18 233016, who := .records },
   { ix := 0x5400, sub := 3, ty := .u16, acc := .cmd, who := .records },
   { ix := 0x5400, sub := 4, ty := .u8, acc := .rw, rng := .nat 0 63, scope := .selector, who := .selector },
   { ix := 0x5400, sub := 5, ty := .u8, acc := .ro, scope := .selected 0x5400 4 }, { ix := 0x5400, sub := 6, ty := .u32, acc := .ro, scope := .selected 0x5400 4 },
   { ix := 0x5400, sub := 7, ty := .u16, acc := .ro, scope := .selected 0x5400 4 }] ++
  rows (span 8 0xB) { ix := 0x5400, sub := 0, ty := .u64, acc := .ro, cnt := true } ++
  [{ ix := 0x5400, sub := 0xC, ty := .u32, acc := .rw, rng := .nat 1 512 }] ++
  rows [1, 2, 3, 4, 5, 6, 7, 0x10] { ix := 0x5500, sub := 0, ty := .u64, acc := .ro, scope := .unit, cnt := true } ++
  rows (span 1 4) { ix := 0x5600, sub := 0, ty := .u64, acc := .ro, cnt := true }

/-! ### Arithmetic, tables, compression, determinism (R261, R302, R360, R380) -/

def objsArithmetic : List ObjRow :=
  [{ ix := 0x7000, sub := 1, ty := .u16, acc := .rws, rng := .nat 16 315 }, { ix := 0x7000, sub := 2, ty := .u16, acc := .rw, rng := .nat 1024 16384 },
   { ix := 0x7000, sub := 3, ty := .u32, acc := .rw, rng := .nat 10 1000 }] ++
  rows (span 4 8) { ix := 0x7000, sub := 0, ty := .u64, acc := .ro, cnt := true } ++
  rows (span 1 3) { ix := 0x7040, sub := 0, ty := .u16, acc := .ro, scope := .unit } ++
  rows [4, 5] { ix := 0x7040, sub := 0, ty := .u64, acc := .ro, scope := .unit, cnt := true } ++
  [{ ix := 0x7200, sub := 1, ty := .u16, acc := .rw, scope := .selector, who := .selector },
   { ix := 0x7200, sub := 2, ty := .u8, acc := .ro, scope := .selected 0x7200 1 }, { ix := 0x7200, sub := 3, ty := .blob, acc := .ro, scope := .selected 0x7200 1 },
   { ix := 0x7200, sub := 4, ty := .u8, acc := .ro, scope := .selected 0x7200 1 }, { ix := 0x7200, sub := 5, ty := .u32, acc := .ro, scope := .selected 0x7200 1 },
   { ix := 0x7200, sub := 6, ty := .u32, acc := .ro, scope := .selected 0x7200 1 }, { ix := 0x7200, sub := 7, ty := .u16, acc := .ro, scope := .selected 0x7200 1 },
   { ix := 0x7200, sub := 8, ty := .u16, acc := .cmd },
   { ix := 0x7300, sub := 1, ty := .blob, acc := .rw, rng := .len 24 }, { ix := 0x7300, sub := 2, ty := .blob, acc := .ro }, { ix := 0x7300, sub := 3, ty := .bool, acc := .ro },
   { ix := 0x7300, sub := 4, ty := .u16, acc := .ro },
   { ix := 0x7400, sub := 1, ty := .u16, acc := .ro, scope := .unitAtt }, { ix := 0x7400, sub := 2, ty := .u8, acc := .cmd, rng := .nat 1 1, scope := .unit, who := .owner },
   { ix := 0x7400, sub := 3, ty := .blob, acc := .ro, scope := .unitAtt }, { ix := 0x7400, sub := 4, ty := .u32, acc := .ro, scope := .unitAtt },
   { ix := 0x7400, sub := 5, ty := .u64, acc := .ro, scope := .unitAtt }]

def objsGather : List ObjRow :=
  [{ ix := 0x8000, sub := 1, ty := .u32, acc := .rw, rng := .nat 1 1000 }, { ix := 0x8000, sub := 2, ty := .blob, acc := .rws, rng := .len 16 },
   { ix := 0x8000, sub := 3, ty := .u32, acc := .rw }, { ix := 0x8000, sub := 4, ty := .u32, acc := .rw, rng := .nat 1 10000 },
   { ix := 0x8100, sub := 1, ty := .blob, acc := .wo, rng := .recs 66 63550, who := .records },
   { ix := 0x8100, sub := 2, ty := .u16, acc := .rw, rng := .nat 0 4095, scope := .selector, who := .selector },
   { ix := 0x8100, sub := 3, ty := .blob, acc := .ro, scope := .selected 0x8100 2 }, { ix := 0x8100, sub := 4, ty := .u8, acc := .ro, scope := .selected 0x8100 2 },
   { ix := 0x8100, sub := 5, ty := .blob, acc := .wo, rng := .len 66, who := .records }] ++
  rows (span 6 8) { ix := 0x8100, sub := 0, ty := .u16, acc := .cmd, rng := .nat 0 4095, who := .records } ++
  [{ ix := 0x8100, sub := 9, ty := .u32, acc := .ro, scope := .unit }, { ix := 0x8100, sub := 0xA, ty := .u32, acc := .ro, scope := .selected 0x8100 2 },
   { ix := 0x8100, sub := 0xC, ty := .blob, acc := .ro, scope := .selected 0x8100 2, cnt := true }] ++
  rows [0xB, 0xD, 0xE, 0xF] { ix := 0x8100, sub := 0, ty := .u64, acc := .ro, scope := .selected 0x8100 2, cnt := true } ++
  [{ ix := 0x8100, sub := 0x10, ty := .bool, acc := .ro, scope := .selected 0x8100 2 },
   { ix := 0x8100, sub := 0x11, ty := .blob, acc := .wo, rng := .recs 34 123361, who := .records },
   { ix := 0x8100, sub := 0x12, ty := .blob, acc := .ro, scope := .selected 0x8100 2 },
   { ix := 0x8200, sub := 1, ty := .u32, acc := .ro, scope := .unit }, { ix := 0x8200, sub := 2, ty := .u32, acc := .ro, scope := .unit },
   { ix := 0x8200, sub := 3, ty := .u8, acc := .ro, scope := .unit }, { ix := 0x8200, sub := 4, ty := .u32, acc := .ro, scope := .unit },
   { ix := 0x8200, sub := 9, ty := .blob, acc := .ro, scope := .unit }] ++
  rows [5, 6, 7, 8, 0xA, 0xB] { ix := 0x8200, sub := 0, ty := .u64, acc := .ro, scope := .unit, cnt := true }

def objsCompression : List ObjRow :=
  [{ ix := 0x9000, sub := 1, ty := .u8, acc := .rws, rng := .nat 0 127 }, { ix := 0x9000, sub := 2, ty := .u32, acc := .rw, rng := .nat 100 1000000 },
   { ix := 0x9001, sub := 1, ty := .blob, acc := .wo, rng := .recs 8 524288, who := .records },
   { ix := 0x9001, sub := 2, ty := .u16, acc := .rw, rng := .nat 0 511, scope := .selector, who := .selector },
   { ix := 0x9001, sub := 3, ty := .u8, acc := .ro, scope := .selected 0x9001 2 }, { ix := 0x9001, sub := 4, ty := .blob, acc := .ro, scope := .selected 0x9001 2 },
   { ix := 0x9001, sub := 5, ty := .u32, acc := .cmd }] ++
  rows (span 1 6) { ix := 0x9002, sub := 0, ty := .u64, acc := .ro, cnt := true } ++
  [{ ix := 0x9010, sub := 1, ty := .u16, acc := .ro }, { ix := 0x9010, sub := 2, ty := .u64, acc := .ro, cnt := true }]

/-! ### Faults, peers, membership (R433, R442, R464, R466) -/

def objsFaults : List ObjRow :=
  [{ ix := 0xA000, sub := 1, ty := .u32, acc := .rw, rng := .nat 4 500 }, { ix := 0xA000, sub := 2, ty := .u32, acc := .rw, rng := .nat 1 10000 },
   { ix := 0xA000, sub := 3, ty := .u32, acc := .ro, cnt := true }] ++
  rows (span 4 8) { ix := 0xA000, sub := 0, ty := .u64, acc := .ro, cnt := true } ++
  [{ ix := 0xA100, sub := 1, ty := .blob, acc := .ro }, { ix := 0xA100, sub := 2, ty := .u16, acc := .rw, rng := .nat 1 1000 },
   { ix := 0xA100, sub := 3, ty := .u64, acc := .ro }, { ix := 0xA100, sub := 4, ty := .u64, acc := .ro }, { ix := 0xA100, sub := 5, ty := .u32, acc := .ro },
   { ix := 0xA100, sub := 6, ty := .u32, acc := .cmd }, { ix := 0xA100, sub := 7, ty := .u32, acc := .rw },
   { ix := 0xA100, sub := 8, ty := .u8, acc := .ro }, { ix := 0xA100, sub := 9, ty := .u32, acc := .ro }] ++
  rows (span 1 3) { ix := 0xA200, sub := 0, ty := .blob, acc := .ro } ++
  [{ ix := 0xA300, sub := 1, ty := .blob, acc := .rw, rng := .recs 4 256 }, { ix := 0xA300, sub := 2, ty := .u32, acc := .rw, rng := .nat 0 0xFFFFFF },
   { ix := 0xA300, sub := 3, ty := .u8, acc := .ro }, { ix := 0xA300, sub := 4, ty := .u16, acc := .ro }, { ix := 0xA300, sub := 5, ty := .u64, acc := .ro, cnt := true },
   { ix := 0xA400, sub := 1, ty := .blob, acc := .wo, rng := .recs 16 262144 }, { ix := 0xA400, sub := 2, ty := .u32, acc := .ro }, { ix := 0xA400, sub := 3, ty := .blob, acc := .ro },
   { ix := 0xA400, sub := 4, ty := .blob, acc := .rw, rng := .recs 4 8 }, { ix := 0xA400, sub := 5, ty := .u64, acc := .ro, cnt := true },
   { ix := 0xA400, sub := 6, ty := .u64, acc := .ro, cnt := true },
   { ix := 0xA500, sub := 1, ty := .blob, acc := .wo, rng := .recs 4 260 }, { ix := 0xA500, sub := 2, ty := .u32, acc := .ro }, { ix := 0xA500, sub := 3, ty := .u32, acc := .ro },
   { ix := 0xA500, sub := 4, ty := .blob, acc := .ro }, { ix := 0xA500, sub := 5, ty := .u8, acc := .cmd, rng := .nat 1 1 }, { ix := 0xA500, sub := 6, ty := .u8, acc := .cmd, rng := .nat 1 1 },
   { ix := 0xA500, sub := 7, ty := .u64, acc := .ro, cnt := true },
   { ix := 0xA600, sub := 1, ty := .u16, acc := .rw, scope := .selector, who := .selector }, { ix := 0xA600, sub := 2, ty := .u8, acc := .ro, scope := .selected 0xA600 1 },
   { ix := 0xA600, sub := 3, ty := .u16, acc := .cmd, who := .records }, { ix := 0xA600, sub := 4, ty := .blob, acc := .wo, rng := .len 8, who := .records },
   { ix := 0xA600, sub := 5, ty := .u32, acc := .ro, scope := .selected 0xA600 1 }, { ix := 0xA600, sub := 6, ty := .u64, acc := .ro, cnt := true },
   { ix := 0xA700, sub := 1, ty := .u16, acc := .rw, scope := .unit }, { ix := 0xA700, sub := 2, ty := .u16, acc := .rw, rng := .nat 0 1023, scope := .unit },
   { ix := 0xA700, sub := 3, ty := .blob, acc := .ro, scope := .unit, cnt := true }, { ix := 0xA700, sub := 4, ty := .u32, acc := .ro, scope := .unit, cnt := true },
   { ix := 0xA700, sub := 5, ty := .u32, acc := .rw, rng := .nat 1 10000, scope := .unit }, { ix := 0xA700, sub := 6, ty := .u8, acc := .cmd, rng := .nat 1 1, scope := .unit }]

/-- Every object, repeated units by their first instance (R516). -/
def objTable : List ObjRow :=
  objsDictionary ++ objsEvents ++ objsScribe ++ objsPower ++ objsPartitions ++ objsPorts ++ objsRoutes ++ objsQueues ++ objsMemory ++ objsTiers ++
    objsArithmetic ++ objsGather ++ objsCompression ++ objsFaults

/-! ### Families of indices (R516) -/

/-- A run of instances at a stride: the place within an instance and the instance, or the index as it stands. -/
def family (ix first stride places count : Nat) : Option (Nat × Nat) :=
  let d := ix - first
  if first ≤ ix ∧ d / stride < count ∧ d % stride < places then some (first + d % stride, d / stride) else none

/-- The index of the first instance, and the instance. -/
def locate (ix : Nat) : Nat × Nat :=
  ((((((((((((((((family ix 0x1120 1 1 32).or (family ix 0x2000 0x80 4 32)).or (family ix 0x3000 8 5 128)).or (family ix 0x3400 8 2 2)).or
    (family ix 0x3801 1 1 2)).or (family ix 0x4000 4 3 130)).or (family ix 0x5020 1 1 32)).or (family ix 0x5320 1 1 32)).or
    (if ix % 8 < 5 then family ix 0x5500 1 1 253 else none)).or (family ix 0x6100 16 4 32)).or (family ix 0x7040 1 1 64)).or
    (family ix 0x7400 1 1 32)).or (family ix 0x8200 1 1 64)).or (family ix 0x9010 1 1 6)).or (family ix 0xA700 1 1 16)).getD (ix, 0))

/-- The entry of an object. -/
def findObj (fam sub : Nat) : Option ObjRow := objTable.find? fun r => r.ix == fam && r.sub == sub

/-- Highest subindex defined at an index (R469); 0 where there is no such index. -/
def topSub (fam : Nat) : Nat := ((objTable.filter fun r => r.ix == fam).map (·.sub)).foldl max 0

/-! ### Sessions and selectors (R477) -/

/-- The session of a caller. A caller without one has the defaults of a new session. -/
def sessionOf (s : State) (c : Caller) : Session :=
  (s.session c.sid).getD { sid := c.sid, role := c.role, part := c.part, addr := .ring 0, nc := 0, nd := 0, authed := false, zeroCred := false
                           ckey := 0, csalt := 0, dkey := 0, dsalt := 0, rxHi := 0, rxSeen := [], txSeq := 0, sel := [], xfer := none, kept := []
                           events := [], eseq := 1, lost := 0, lostNew := 0, mask := 0xFFE, notify := false }

/-- Default of a selector: LOG_SELECT and PLOG_SELECT start at 1. -/
def selDefault (k : Nat) : Nat := if k = okey 0x1240 1 ∨ k = okey 0x1240 5 then 1 else 0

/-- The selectors that carry no partition's records. -/
def plainSelector (fam sub : Nat) : Bool :=
  (fam == 0x3801 && sub == 0xA) || (fam == 0x3804 && sub == 2) || (fam == 0xA100 && sub == 7) || (fam == 0xA300 && sub == 2) ||
    (fam == 0xA700 && sub == 2) || (fam == 0x2002 && sub == 1) || (fam == 0x1240 && (sub == 1 || sub == 5))

/-- Every selector object (R477). -/
def isSelector (r : ObjRow) : Bool := r.scope == .selector || r.scope == .attSelector || plainSelector r.ix r.sub

/-- A session's value of a selector. -/
def selOf (v : Session) (k : Nat) : Nat := Sparse.get (selDefault k) v.sel k

/-! ### Whose an object is (R383, R385) -/

/-- The partition of a context that is or was in use. -/
def ctxPart (s : State) (c : Nat) : Nat := (s.ctx c).part.val

/-- The partition of the record that a selector's value names. -/
def recordPart (s : State) (selIx v : Nat) : Nat :=
  match selIx with
  | 0x4300 => meterOwner (s.meter v).word
  | 0x5100 => if (s.folio v).st = .free then 0 else folOwner (s.folio v).word
  | 0x5200 => ((s.region v).map fun r => r.owner.val).getD 0
  | 0x5300 => (s.object v).owner.val
  | 0x5400 => (s.sched v).owner.val
  | 0x7200 => ctxPart s v
  | 0x8100 => if (s.table v).st = .free then 0 else tableOwner (s.table v).word
  | 0x9001 => (s.slot v).owner.val
  | _ => ctxPart s v

/-- The table whose requests the latest TABLE_SYNC marked and that still run. -/
def syncRuns (s : State) : List Run := s.quills.flatMap fun e => e.2.runs.filter (·.sync)

/-- The partition of a unit's objects, or of the record that the session selects; none for an object of the device. -/
def objPart (s : State) (v : Session) (r : ObjRow) (inst : Nat) : Option Nat :=
  match r.scope with
  | .selected ix sub => some (recordPart s ix (selOf v (okey ix sub)))
  | .unit | .unitAtt =>
    match r.ix with
    | 0x3000 | 0x3001 | 0x3002 | 0x3003 | 0x3004 => some (portOwner s inst)
    | 0x3400 | 0x3401 => some (hostOwner s inst)
    | 0x4000 | 0x4001 | 0x4002 => some (outOwner s inst)
    | 0x5500 => some (inst / 8)
    | 0x6100 | 0x6101 | 0x6102 | 0x6103 => some (domainPart s inst)
    | 0x7040 | 0x8200 => some (quillOwner s inst)
    | 0xA700 => some (monitorPart s inst)
    | 0x8100 => some (((syncRuns s).head?.map fun x => tableOwner x.word).getD v.part.val)
    | _ => some inst
  | _ => none

/-- The object belongs to a unit that is there: not disabled and not retired (R95, R439, R481). -/
def objPresent (s : State) (r : ObjRow) (inst : Nat) : Bool :=
  match r.ix with
  | 0x3000 | 0x3001 | 0x3002 | 0x3003 | 0x3004 => portOk s inst
  | 0x4000 | 0x4001 | 0x4002 => outputOk s inst
  | 0x7040 | 0x8200 => quillOk s inst
  | _ => true

/-! ### Rights (R391, R392, R480) -/

/-- Power and temperature readings that R392 closes while a partition is SEALED. -/
def coarseClosed (r : ObjRow) : Bool :=
  (r.ix == 0x1400 && r.sub != 1 && r.sub != 4) || (r.ix == 0x1410 && decide (0xA ≤ r.sub) && decide (r.sub ≤ 0xD))

/-- OPR and VND read what belongs to a SEALED partition only where R391 says so. -/
def oprReads (s : State) (r : ObjRow) (part : Option Nat) : Bool :=
  match part with
  | some p => !isSealed s p || r.open_ || r.cnt
  | none => true

/-- The caller's role may read the object (R480). -/
def mayRead (s : State) (c : Caller) (r : ObjRow) (part : Option Nat) : Bool :=
  !(anySealed s && coarseClosed r) &&
  match c.role with
  | .opr => oprReads s r part
  | .vnd => r.scope != .oprOnly && oprReads s r part
  | .prt =>
    (match r.scope with
     | .identity | .session | .selector => true
     | .unit | .unitAtt | .selected _ _ => part == some c.part.val
     | _ => false)
  | .att =>
    (match r.scope with
     | .identity | .att | .unitAtt => true
     | _ => false)

/-- The caller's role may write the object, whatever its access kind (R480, R492). -/
def mayWrite (s : State) (c : Caller) (r : ObjRow) (part : Option Nat) : Bool :=
  let opr := isOpr s c && (match part with | some p => !isSealed s p || r.open_ | none => true)
  let prt := c.role == .prt && part == some c.part.val
  if zeroCredCaller s c then c.role == .opr && r.ix == 0x1100 && r.sub == 1
  else match r.who with
    | .opr => opr
    | .owner => opr || (prt && r.acc != .ro)
    | .prt => prt
    | .records => isOpr s c || c.role == .prt
    | .self => c.role != .att
    | .vnd => c.role == .vnd
    | .selector => isOpr s c || c.role == .prt
    | .attSelector => isOpr s c || c.role == .att

end Sys2Proof.Machine
end

