-- ==== Sys2Proof/Machine/Reads.lean ====
section
/-! DEFINITION. What a read of each object returns (R95, R134, R163, R164, R219, R220, R261, R302, R335, R360, R380, R414, R415,
R433, R442, R464, R466, R510 to R514, R551, R552, R578), coarsened while a partition is SEALED (R392). -/

namespace Sys2Proof.Machine

/-! ### Events, sessions and the log (R501, R511, R542) -/

/-- The role and transport codes of R489 and R511. -/
def roleCode : Role → Nat
  | .opr => 0 | .prt => 1 | .vnd => 2 | .att => 3
def transportCode : TAddr → Nat
  | .host h _ _ => h.val
  | .ring _ => 2

/-- MY_SESSION (0x1100.05). -/
def sessionRecord (v : Session) : List Byte :=
  leBytes 2 v.sid.toNat ++ leBytes 1 (roleCode v.role) ++ leBytes 1 v.part.val ++ leBytes 1 (transportCode v.addr) ++ List.replicate 11 0#8

/-- At most 32 records whose number is `n` or later, modulo 2^32 (R551). -/
def logFrom (l : List LogRec) (num : LogRec → BitVec 32) (n : Nat) : List Byte :=
  (((l.filter fun r => decide ((num r - BitVec.ofNat 32 n).toNat < 2 ^ 31)).take 32).flatMap LogRec.bytes)

/-- FW_STATE codes (R552). -/
def fwCode : FwSt → Nat
  | .empty => 0 | .receiving => 1 | .staged => 2 | .verifying => 3 | .verified => 4 | .installing => 5 | .installed => 6 | .failed => 7

/-- HRB_n_STATE: not driven, busy, ready (R507, R512). -/
def hrbState (s : State) (h : Nat) : Nat := if !hrbDriven s then 0 else if hrbCause s h = 0 then 2 else 1

/-! ### Coarse readings (R392) -/

/-- A number of units of 2^-149 to the nearest multiple of `m`, ties away from zero. -/
def nearest (m x : Int) : Int := (if x < 0 then -1 else 1) * (((2 * x.natAbs + (fixOf m).natAbs) / (2 * (fixOf m).natAbs) : Nat) : Int) * m

/-- An F32 to the nearest multiple of `m`; what is not finite stays. -/
def coarseF32 (m : Int) (v : BitVec 32) : BitVec 32 := match f32Fix v with | some x => f32Of (nearest m x) 1 | none => v

/-- The state that a session sees a counter in: the last snapshot for a counter that shows a SEALED partition's activity to others
(R392). -/
def seenState (s : State) (c : Caller) (r : ObjRow) (part : Option Nat) : State :=
  let coarse := r.cnt && (match part with | some p => isSealed s p && !isPrt c p | none => anySealed s)
  if coarse then { s with ctr := s.snap.ctr, tables := s.snap.tables, meters := s.snap.meters, strags := s.snap.strags } else s

/-! ### Numbers -/

def linkCode : LinkSt → Nat
  | .disabled => 0 | .detect => 1 | .train => 2 | .align => 3 | .exchange => 4 | .active => 5 | .retrain => 6 | .halted => 7
def routeCode : SlotSt → Nat
  | .empty => 0 | .loading => 1 | .serving => 2 | .draining => 3
def folioCode : FolioSt → Nat
  | .free => 0 | .granted => 1 | .draining => 2 | .scrubbing => 3 | .revoked => 4
def domainCode : DomainSt → Nat
  | .idle => 0 | .active => 1 | .held => 2 | .tornDown => 3
def ctxCode : CtxSt → Nat
  | .free => 0 | .running => 1 | .done => 2 | .failed => 3 | .mirror => 4
def tableCode : TableSt → Nat
  | .free => 0 | .serving => 1 | .switching => 2 | .retiring => 3
def genCode : GenSt → Nat
  | .empty => 0 | .loading => 1 | .ready => 2 | .retiring => 3

/-- Cells or entries at the lowest since the last read (0x3806.04, 0xA000.03), from what has been used at most. -/
def sharedMin (s : State) : Nat :=
  let hs := chargedPackets s
  (enabledTiles s).foldl (fun a t => min a (sharedFree s hs t)) (65162 - s.c (okey 0x3806 4))
def blotterMin (s : State) : Nat :=
  (enabledTiles s).foldl (fun a t => min a (blotterSize s t - blotterUsed s t)) (32768 - s.c (okey 0xA000 3))

/-- SLOT_STATE_n: the owning partition's slot; a slot that no key sends under is shown as it holds a key (R95). -/
def portSlot (s : State) (p n : Nat) : Nat :=
  match (s.key p (portOwner s p) n).st with | 1 | 3 => 1 | 2 => 2 | _ => 0

def readPorts (s : State) (fam sub i k : Nat) : Nat :=
  let v := s.port i
  match fam, sub with
  | 0x3001, 1 => if v.st = .retrain ∧ v.realign then linkCode .align else linkCode v.st
  | 0x3001, 2 => v.rate
  | 0x3001, 3 => v.peerFid.toNat
  | 0x3001, 4 => v.peerPort.toNat
  | 0x3001, 5 => v.peerRole.toNat
  | 0x3001, 6 => v.effClass.toNat
  | 0x3003, _ => if sub ≤ 3 then portSlot s i sub else (s.key i (portOwner s i) (sub - 3)).kcnt
  | 0x3004, 1 => v.xoffRx.toNat
  | 0x3004, 2 => v.xoffTx.toNat
  | 0x3004, 3 => xoffThreshold (effClass s i)
  | 0x3004, _ => replayBytes v
  | 0x3401, 1 => b2n (s.hostP i).up
  | 0x3401, 2 => (s.hostP i).rate
  | 0x3401, 8 => hostOutstanding s i
  | _, _ => s.c k

def readRoutes (s : State) (fam sub i k : Nat) : Nat :=
  let v := s.routeSlot (i == 1)
  match fam, sub with
  | 0x3800, 9 => (s.notices.filter fun n => n.kind == 0 && n.latest).length
  | 0x3801, 1 => routeCode v.st
  | 0x3801, 2 => v.rgen.toNat
  | 0x3801, 8 => inflight s (i == 1)
  | 0x3801, 9 => (v.entries.filter fun e => reValid e.2).length
  | 0x3806, 4 => sharedMin s
  | 0x4002, 0x10 => (s.outSt i).avg / 1024
  | 0x4002, _ => if sub ≤ 8 then queueCells s i (sub - 1) else s.c k
  | _, _ => s.c k

def readMemory (s : State) (v : Session) (fam sub i k : Nat) : Nat :=
  let f := selOf v (okey 0x5100 2)
  match fam, sub with
  | 0x4300, 4 => (s.meter (selOf v (okey 0x4300 2))).green
  | 0x4300, 5 => (s.meter (selOf v (okey 0x4300 2))).yellow
  | 0x4300, 6 => (s.meter (selOf v (okey 0x4300 2))).red
  | 0x5000, 2 => outsideTags s
  | 0x5000, 3 => (s.tags.filter fun t => t.quill).length
  | 0x5020, 3 => tagsOf s i
  | 0x5100, 4 => folioCode (s.folio f).st + 128 * b2n (s.folio f).scrubFailed
  | 0x5100, 8 => (folioInflight s f).length + unitInflight s f
  | 0x5100, 9 => (s.folios.filter fun e => e.2.st == .granted).length
  | 0x5200, 4 =>
    let r := selOf v (okey 0x5200 2)
    (s.vloads.filter fun x => x.region == r && vloadActive s x && some x.version != (s.region r).map (·.version)).length
  | 0x6000, 2 => 67108864 - dirUsedBut s 32
  | 0x6100, 2 => domainCode (s.domain i).st
  | 0x6100, 5 => (s.domain i).heldCause
  | 0x6100, 6 => (s.domain i).heldAgent
  | _, _ => s.c k

def readTiers (s : State) (v : Session) (fam sub i k : Nat) : Nat :=
  let n := selOf v (okey 0x5400 4)
  match fam, sub with
  | 0x5300, 5 => (s.objects.filter fun e => e.2.st != .free).length
  | 0x5300, 6 => s.moveQ.length
  | 0x5320, 7 => quotaUsed s i 0 16384
  | 0x5320, _ => (quotaUsed s i (sub - 7) 16384 + 15) / 16
  | 0x5400, 5 => b2n (s.sched n).active
  | 0x5400, 6 => (s.sched n).step.toNat
  | 0x5400, 7 => (s.sched n).layer
  | _, _ => s.c k

def readArithmetic (s : State) (v : Session) (fam sub i k : Nat) : Nat :=
  let x := s.ctx (selOf v (okey 0x7200 1))
  match fam, sub with
  | 0x7040, 1 => (s.ctxs.filter fun e => ctxQuill e.1 == i && e.2.st != .free).length
  | 0x7040, 2 => slotsUsed s i
  | 0x7040, 3 => poolFree s i
  | 0x7200, 2 => ctxCode x.st + 128 * b2n x.escHold
  | 0x7200, 4 => x.cgen.toNat
  | 0x7200, 5 => x.low
  | 0x7200, 6 => x.limit
  | 0x7200, 7 => x.joined.length
  | 0x7300, 3 => 1 - s.c k
  | 0x7300, 4 => (cgInstances s).length
  | 0x7400, 1 => (s.batch i).open_.length
  | 0x7400, 4 => (s.batch i).number.toNat
  | _, _ => s.c k

/-- Requests of a table that run on a generation no longer in service (0x8100.0A). -/
def oldRuns (s : State) (t : Nat) : Nat :=
  (((tableRuns s t).filter fun r => r.tgen != (s.table t).tgen).map fun r => r.reqs.length).foldl (· + ·) 0

def readGather (s : State) (v : Session) (fam sub i k : Nat) : Nat :=
  let n := selOf v (okey 0x8100 2)
  let t := s.table n
  match fam, sub with
  | 0x8100, 4 => tableCode t.st
  | 0x8100, 9 => ((syncRuns s).map fun r => r.reqs.length).foldl (· + ·) 0
  | 0x8100, 0xA => oldRuns s n
  | 0x8100, 0xB => t.requests
  | 0x8100, 0xD => t.defUsed
  | 0x8100, 0xE => t.missing
  | 0x8100, 0xF => t.invalid
  | 0x8100, 0x10 => b2n t.staged.isSome
  | 0x8200, 1 => queueMsgs (s.quill i)
  | 0x8200, 2 => queueBytes (s.quill i)
  | 0x8200, 3 => (s.quill i).wins.length
  | 0x8200, 4 => entriesUsed s i
  | 0x9001, 3 => let b := s.slot (selOf v (okey 0x9001 2)); b.owner.val + 128 * b2n b.valid
  | 0x9010, 1 => (expQueue s i).length
  | _, _ => s.c k

/-- PEER_STATE: 0 unknown, 1 alive, 2 dead (R455). -/
def peerState (s : State) (f : Nat) : Nat := if isDead s f then 2 else if s.alive.any (recCovers · f) then 1 else 0

def readFaults (s : State) (v : Session) (fam sub i k : Nat) : Nat :=
  let u := selOf v (okey 0xA100 7)
  let x := s.ctx (selOf v (okey 0xA600 1))
  match fam, sub with
  | 0xA000, 3 => blotterMin s
  | 0xA100, 8 => unitState s u
  | 0xA100, 9 => (recentTransients s u).length
  | 0xA300, 3 => peerState s (selOf v (okey 0xA300 2))
  | 0xA300, 4 => s.dead.length
  | 0xA400, 2 => s.fepoch.toNat
  | 0xA500, 2 => s.mepoch.toNat
  | 0xA500, 3 => (s.staged.map fun g => g.mepoch.toNat).getD 0
  | 0xA600, 2 => x.mirror
  | 0xA600, 5 => x.oepoch.toNat
  | 0xA700, 4 => Sparse.get 0 (s.strag i).last (selOf v (okey (0xA700 + i) 2))
  | _, _ => s.c k

/-- Levels of the sideband inputs, 1 active (0x1483.01). -/
def sidebandLevels (p : Power) : Nat := b2n p.resetLow + 2 * b2n p.pwrEn + 4 * b2n p.throttle + 8 * b2n p.faultIn

/-- The staged image's version, once one is staged. -/
def stagedVersion (s : State) : Nat :=
  match s.scribe.fwSt with | .empty | .receiving => 0 | _ => (imgVersion s.scribe.staging).toNat

def readScribe (s : State) (fam sub k : Nat) : Nat :=
  let sc := s.scribe
  let p := s.power
  match fam, sub with
  | 0x1400, 1 => (if anySealed s then coarseF32 10 sc.pHeld else sc.pIn).toNat
  | 0x1400, 2 => sc.vIn.toNat
  | 0x1400, 3 => sc.iIn.toNat
  | 0x1400, 4 => (if anySealed s then coarseF32 1 sc.tHeld else sc.tHot).toNat
  | 0x1400, 5 => sc.tHotSite
  | 0x1400, 8 => sc.coolIn.toNat
  | 0x1400, 9 => sc.coolOut.toNat
  | 0x1400, 0xA => sc.tach0
  | 0x1400, 0xB => sc.tach1
  | 0x1400, 0xD => sc.energy / 2 ^ 149
  | 0x1410, 0xA => sc.demand.toNat
  | 0x1410, 0xB => sc.integral.toNat
  | 0x1410, 0xC => sc.pumpDuty.toNat
  | 0x1410, 0xD => sc.valveDuty.toNat
  | 0x1420, 1 => sc.divisor
  | 0x1420, 2 => throttleCause s
  | 0x1480, 1 => b2n p.refclkOk
  | 0x1481, 1 => p.state
  | 0x1481, 2 => p.bringupStep
  | 0x1481, 3 => p.bringupMs.toNat
  | 0x1483, 1 => sidebandLevels p
  | 0x1483, 2 => stuckShown s
  | 0x1483, 3 => p.chatter.toNat
  | 0x1483, 4 => p.tachSat.toNat
  | 0x1600, 3 => fwCode (fwShown s)
  | 0x1600, 4 => sc.fwResult
  | 0x1600, 5 => stagedVersion s
  | 0x1600, 6 => sc.rollback
  | 0x1600, 7 => sc.fwSvn
  | 0x1600, 8 => sc.bootCount.toNat
  | 0x1600, 9 => sc.lastRestart
  | 0x3500, 1 => b2n sc.linkA
  | 0x3500, 2 => b2n sc.linkB
  | 0x3500, 3 => b2n sc.bypass
  | _, _ => s.c k

def readDictionary (s : State) (v : Session) (fam sub i k : Nat) : Nat :=
  let sc := s.scribe
  match fam, sub with
  | 0x1000, 3 => if s.dumap.tfuse = 0 then 0x48 else 0x4D
  | 0x1000, 4 => Config.stepping.toNat
  | 0x1000, 7 => 1
  | 0x1001, 1 => sc.fwVer.toNat
  | 0x1001, 2 => Config.romVersion.toNat
  | 0x1100, 2 => b2n s.oprCred.isSome
  | 0x1100, 4 => s.sessions.length
  | 0x1120, 2 => b2n (s.part i).cred.isSome
  | 0x1200, 3 => v.events.length
  | 0x1200, 4 => v.lost.toNat
  | 0x1200, 6 => b2n v.notify
  | 0x1201, 1 => hrbState s 0
  | 0x1201, 2 => hrbCause s 0
  | 0x1201, 3 => hrbState s 1
  | 0x1201, 4 => hrbCause s 1
  | 0x1240, 3 => match sc.log with | r :: _ => r.ev.eseq.toNat | [] => sc.logNext.toNat
  | 0x1240, 4 => sc.logNext.toNat
  | 0x1240, 7 => match sc.plog with | r :: _ => r.pno.toNat | [] => sc.plogNext.toNat
  | 0x1240, 0xB => plogWear s
  | 0x1241, 1 => s.time
  | 0x1620, 0xA => sealedMask s
  | 0x2000, 1 => partCode s i
  | 0x2000, 3 => (s.part i).removeStep
  | 0x2003, 2 => (s.part i).reports.toNat
  | 0xB000, 1 => b2n (anySealed s)
  | _, _ => s.c k

/-- RW and RWS objects whose value lies elsewhere than under their key. -/
def readSet (s : State) (v : Session) (fam sub i k : Nat) : Nat :=
  match fam, sub with
  | 0x1200, 6 => b2n v.notify
  | 0x2001, 2 => hostsOf s i
  | 0x2001, 3 => (quillsOf s i).toNat
  | 0x3801, 2 => (s.routeSlot (i == 1)).rgen.toNat
  | 0x6000, 1 => leNat ((dirSliceList s).map (BitVec.ofNat 8 ·))
  | 0x9000, 1 => basisSliceNo s
  | _, _ => s.o k

/-- The number an RO object shows, by the chapter that defines it. -/
def readRo (s : State) (v : Session) (fam sub i k : Nat) : Nat :=
  if fam < 0x1400 ∨ fam = 0xB000 ∨ fam = 0x1620 ∨ (0x2000 ≤ fam ∧ fam < 0x3000) then readDictionary s v fam sub i k
  else if fam < 0x2000 ∨ fam = 0x3500 then readScribe s fam sub k
  else if fam < 0x3500 then readPorts s fam sub i k
  else if fam < 0x4300 then readRoutes s fam sub i k
  else if fam < 0x5300 ∨ (0x6000 ≤ fam ∧ fam < 0x7000) then readMemory s v fam sub i k
  else if fam < 0x6000 then readTiers s v fam sub i k
  else if fam < 0x8000 then readArithmetic s v fam sub i k
  else if fam < 0xA000 then readGather s v fam sub i k
  else readFaults s v fam sub i k

/-! ### Strings and BLOBs -/

/-- BASE_MAC as it stands on a wire, high byte first. -/
def macBytes (m : BitVec 48) : List Byte := beBytes 6 m.toNat

/-- KEY_SLOTS (0x2002.02): for a fabric port its key slots; for a host port the association sent under as slot 1, and an older one
still installed as slot 2. -/
def keySlots (s : State) (p port : Nat) : List Byte :=
  let one (st order : Nat) : List Byte := leBytes 1 st ++ leBytes 1 order ++ [0#8, 0#8]
  (if port < 128 then ([1, 2, 3].flatMap fun n => one (s.key port p n).st (s.key port p n).order)
   else
     let m := s.mac (port - 128)
     let mine := m.on && hostOwner s (port - 128) == p
     one (b2n mine) (b2n (mine && m.oldKey.isSome) + b2n mine) ++ one (if mine ∧ m.oldKey.isSome then 3 else 0) (b2n (mine && m.oldKey.isSome)) ++
       one 0 0) ++ List.replicate 4 0#8

/-- OBJ_READ: the descriptor with the device's fields (R306). -/
def objDescriptor (s : State) (o : Obj) : List Byte :=
  if o.st = .free then List.replicate 64 0#8
  else
    let code := match o.st with | .free => 0 | .home => 1 | .moving => 2 | .split => 3
    let place := if o.st = .home then 0 else o.dsta.toNat
    leBytes 64 (2 ^ 511 + o.owner.val * 2 ^ 506 + o.okind * 2 ^ 504 + homeTier s o * 2 ^ 501 + code * 2 ^ 498 + o.size * 2 ^ 448 + o.homea.toNat * 2 ^ 392 +
      place * 2 ^ 336 + (if o.st = .home then 0 else o.moved) * 2 ^ 304)

/-- The fields of a route entry, a ligature entry, a meter record and a folio record: all other bits read zero (R9, R110, R126, R150,
R204). -/
def routeFields : List (Nat × Nat) := [(127, 124), (122, 121), (119, 8)]
def ligFields : List (Nat × Nat) := [(255, 249), (127, 0)]
def meterFields : List (Nat × Nat) := [(191, 186), (159, 32)]
def folioFields : List (Nat × Nat) := [(255, 252), (249, 245), (239, 224), (191, 168), (159, 104), (75, 64)]

/-- POP_READ: the entries the caller may see, then zeros (R273, R274). -/
def popBytes (s : State) (c : Caller) (q : Nat) : List Byte :=
  let owner (t : Nat) : Nat := tableOwner (s.table t).word
  let seen := ((s.quill q).pop.filter fun e => if c.role = .prt then owner e.table == c.part.val else !isSealed s (owner e.table)).take 4096
  (seen.flatMap fun e => leBytes 8 (e.table * 2 ^ 40 + e.index % 2 ^ 40) ++ leBytes 4 e.count ++ List.replicate 4 0#8) ++
    List.replicate (16 * (4096 - seen.length)) 0#8

/-- GEN_STATE (0x9001.04). -/
def genState (b : BasisSlot) : List Byte :=
  b.entries.flatMap fun e => leBytes 1 e.gen.toNat ++ leBytes 1 (genCode e.st) ++ leBytes 1 e.rank ++ [0#8] ++ leBytes 4 e.refs

/-- Free spares of a tile among the units of a type (0xA200.02, .03). -/
def sparesFree (s : State) (typ per lo hi t : Nat) : Nat :=
  ((span lo hi).filter fun i => unitExists s (unitCode typ (per * t + i)) && unitState s (unitCode typ (per * t + i)) == 3).length

def words (ws : List (BitVec 32)) : List Byte := ws.flatMap fun w => leBytes 4 w.toNat

/-- The bytes of a STR or BLOB object. -/
def readBytes (s : State) (c : Caller) (v : Session) (fam sub i k : Nat) : List Byte :=
  let sc := s.scribe
  match fam, sub with
  | 0x1000, 1 => ascii "Niestyo"
  | 0x1000, 2 => ascii "CK-S1288"
  | 0x1000, 5 => Config.serial.take 16
  | 0x1000, 6 => macBytes Config.baseMac
  | 0x1008, 1 => reproKey s
  | 0x1100, 5 => sessionRecord v
  | 0x1100, 6 => s.sessions.flatMap sessionRecord
  | 0x1200, 1 => (v.events.take 32).flatMap Event.bytes
  | 0x1200, 5 => bytes32 v.mask
  | 0x1240, 2 => logFrom sc.log (fun r => r.ev.eseq) (selOf v (okey 0x1240 1))
  | 0x1240, 6 => logFrom sc.plog (fun r => r.pno) (selOf v (okey 0x1240 5))
  | 0x1400, 6 => words sc.diodes
  | 0x1400, 7 => words sc.stackT
  | 0x1400, 0xC => sc.rails.flatMap fun r => leBytes 4 r.1.toNat ++ leBytes 4 r.2.toNat
  | 0x1620, 1 => idPub
  | 0x1620, 2 => Config.idCerts.take 16384
  | 0x1620, 3 => measure0 ++ measure1 s ++ measure2 s
  | 0x1620, 7 => (s.part (selOf v (okey 0x1620 5))).report
  | 0x1620, 9 => (s.part (selOf v (okey 0x1620 5))).confirm
  | 0x2001, 1 => leBytes 16 (portsOf s i).toNat
  | 0x2001, 4 => (s.part i).slices
  | 0x2001, 7 => measure3 s i
  | 0x2002, 2 => keySlots s i (selOf v (partObj i 2 1))
  | 0x2002, 5 => (s.part i).peerAllow.flatMap bytes32
  | 0x2003, 1 => (List.range 1952).map (Config.dsaPub (reportKey s i))
  | 0x3801, 0xB => leBytes 16 (keepFields (Sparse.get reDefault (s.routeSlot (i == 1)).entries (selOf v (okey (0x3801 + i) 0xA))).toNat routeFields)
  | 0x3804, 3 => leBytes 32 (keepFields (Sparse.get (0 : BitVec 256) s.ligs (selOf v (okey 0x3804 2))).toNat ligFields)
  | 0x4300, 3 => leBytes 24 (keepFields (s.meter (selOf v (okey 0x4300 2))).word.toNat meterFields)
  | 0x5100, 3 => leBytes 32 (keepFields (s.folio (selOf v (okey 0x5100 2))).word.toNat folioFields)
  | 0x5200, 3 => ((s.region (selOf v (okey 0x5200 2))).map regionRecord).getD (List.replicate 32 0#8)
  | 0x5300, 3 => objDescriptor s (s.object (selOf v (okey 0x5300 2)))
  | 0x5300, 8 => (List.range 64).map fun q => BitVec.ofNat 8 (if quillOk s q then (unitsFree s q).length else 0)
  | 0x7200, 3 => leBytes 64 (cdKeep (s.ctx (selOf v (okey 0x7200 1))).desc).toNat
  | 0x7300, 1 => slice (s.b k) 0 24
  | 0x7300, 2 => leBytes 16 (s.c k)
  | 0x7400, 3 => (s.batch i).signed
  | 0x8000, 2 => (List.range 16).map fun t => BitVec.ofNat 8 (queueSliceOf s t)
  | 0x8100, 3 => leBytes 64 (tableRecord (s.table (selOf v (okey 0x8100 2)))).toNat
  | 0x8100, 0xC => (s.table (selOf v (okey 0x8100 2))).hits.flatMap (leBytes 8)
  | 0x8100, 0x12 => bytes32 (s.table (selOf v (okey 0x8100 2))).wdigest
  | 0x8200, 9 => popBytes s c i
  | 0x9001, 4 => genState (s.slot (selOf v (okey 0x9001 2)))
  | 0xA100, 1 => s.dumap.bytes
  | 0xA200, 1 => (List.range 64).map fun q => BitVec.ofNat 8 (if quillOk s q then activeNibs s q else 0)
  | 0xA200, 2 => (List.range 16).map fun t => BitVec.ofNat 8 (sparesFree s 2 128 88 91 t)
  | 0xA200, 3 => (List.range 16).map fun t => BitVec.ofNat 8 (sparesFree s 4 64 32 33 t)
  | 0xA400, 3 => words s.fences
  | 0xA500, 4 => words s.members
  | 0xA700, 3 => (Sparse.get (List.replicate 8 0) (s.strag i).hist (selOf v (okey (0xA700 + i) 2))).flatMap (leBytes 4)
  | _, _ => s.b k

/-! ### A read (R469, R477, R481) -/

/-- Bytes of a scalar type (R470). -/
def Ty.size : Ty → Nat
  | .bool | .u8 => 1
  | .u16 => 2
  | .u32 | .f32 => 4
  | .u64 => 8
  | .str | .blob => 0

/-- The value of an object that the caller may read. -/
def objValue (s : State) (c : Caller) (v : Session) (r : ObjRow) (i k : Nat) : List Byte :=
  match r.ty with
  | .str | .blob => readBytes s c v r.ix r.sub i k
  | t =>
    leBytes t.size (if isSelector r then selOf v k
      else match r.acc with
        | .ro => readRo s v r.ix r.sub i k
        | _ => readSet s v r.ix r.sub i k)

/-- "Lowest since last read": a read starts the next period (0x3806.04, 0xA000.03). -/
def afterRead (s : State) (r : ObjRow) : State :=
  if (r.ix == 0x3806 && r.sub == 4) || (r.ix == 0xA000 && r.sub == 3) then s.setC (okey r.ix r.sub) 0 else s

/-- The caller may read some object of an index (R469). -/
def mayReadSome (s : State) (c : Caller) (v : Session) (fam i : Nat) : Bool :=
  (objTable.filter fun r => r.ix == fam).any fun r => objPresent s r i && mayRead s c r (objPart s v r i)

/-- A read of INDEX.SUB (R481). -/
def readObject (s : State) (c : Caller) (index sub : Nat) : Ans :=
  let v := sessionOf s c
  let l := locate index
  if sub = 0 ∧ 0 < topSub l.1 then
    if mayReadSome s c v l.1 l.2 then { st := Ds.ok, auxr := 0, value := leBytes 1 (topSub l.1), s := s } else Ans.no s Ds.accessDenied
  else match findObj l.1 sub with
    | none => Ans.no s Ds.noObject
    | some r =>
      let part := objPart s v r l.2
      if !objPresent s r l.2 || !mayRead s c r part then Ans.no s Ds.accessDenied
      else if r.acc = .wo ∨ r.acc = .cmd then Ans.no s Ds.wrongAccess
      else { st := Ds.ok, auxr := 0, value := objValue (seenState s c r part) c v r l.2 (okey index sub), s := afterRead s r }

end Sys2Proof.Machine
end

