-- ==== Sys2Proof/Machine/Writes.lean ====
section
/-! DEFINITION. A dictionary write: the checks of R481 in their order, and what each object's write does (R471 to R475, R477, R479,
R492, R503, R504, R511, R512). -/

namespace Sys2Proof.Machine

/-! ### Credentials and sessions (R492, R494, R511) -/

/-- OPR_CRED: sets the credential and ends every other OPR session (R492, R494). A session under the unset credential may write
it, and stays so limited. -/
def setOprCred (s : State) (by_ : Caller) (cred : BitVec 256) : Ans :=
  guardRole s (by_.role == .opr) <|
  let kept := s.sessions.filter fun (v : Session) => v.role != Role.opr || v.sid == by_.sid
  Ans.ok (raise { s with oprCred := some cred, sessions := kept } 0x0A03 deviceWide [])

/-- OPR_CRED_CLEAR: VND only, while no partition but 0 is SEALING or SEALED (R492, R511). -/
def setCredClear (s : State) (by_ : Caller) (v : Nat) : Ans :=
  guardRole s (by_.role == .vnd) <|
  guardRange s (v == 1) <|
  guardValue s (!(List.range 32).any fun p => p != 0 && ((s.part p).st == .sealing || (s.part p).st == .sealed)) <|
  Ans.ok (raise { s with oprCred := none } 0x0A03 deviceWide [])

/-- SESSION_KILL: ends the session written (R494, R511). -/
def setKill (s : State) (by_ : Caller) (sid : Nat) : Ans :=
  guardRole s (isOpr s by_) <|
  guardRange s (decide (1 ≤ sid) && decide (sid < 65536)) <|
  guardValue s (s.session (BitVec.ofNat 16 sid)).isSome (Ans.ok (endSession s (BitVec.ofNat 16 sid)))

/-! ### Event queues (R503, R504, R512) -/

/-- The EVENTS_LOST record of a session that has lost records, entered once there is room (R504, R515). -/
def lostRecord (v : Session) (now : Nat) : Session :=
  if v.lostNew = 0 then v
  else enterQueue { v with lostNew := 0 }
    { eseq := 0, code := 0x0A02, epart := 0xFF, coarse := false, tstamp := BitVec.ofNat 64 now, edata := packItems [(4, v.lostNew)] }

/-- Frees the records up to `n`, and enters EVENTS_LOST in this session only; a count that leaves 0 by it is announced. The log takes
every event (R503 to R505, R508, R515). -/
def ackEvents (s : State) (v : Session) (n : BitVec 32) : State :=
  let v' := { v with events := (v.events.dropWhile fun e => e.eseq != n).drop 1 }
  let s := s.setSession v'
  let b0 := hostEventCount s 0
  let b1 := hostEventCount s 1
  let w := lostRecord v' s.time
  let s := s.setSession w
  let s := if v'.events.isEmpty && !w.events.isEmpty && w.notify then
      dictSend s w { DMsg.mk0 8 with auxr := BitVec.ofNat 32 w.events.length } else s
  let s := attend b1 (attend b0 s 0) 1
  if v'.lostNew = 0 then s else raiseTo s 0x0A02 deviceWide [(4, v'.lostNew)] fun _ => false

/-- EVT_ACK: an ESEQ that is not among the unacknowledged records is out of range (R503). -/
def setEvtAck (s : State) (by_ : Caller) (n : BitVec 32) : Ans :=
  guardRole s (by_.role != .att && !zeroCredCaller s by_) <|
  match s.session by_.sid with
  | none => Ans.no s Ds.outOfRange
  | some v => guardRange s (v.events.any fun e => e.eseq == n) (Ans.ok (ackEvents s v n))

/-! ### The Range column (R471) -/

/-- A value lies in a Range. -/
def Rng.admits (r : Rng) (v : Nat) : Bool :=
  match r with
  | .any | .len _ | .recs _ _ => true
  | .nat lo hi => decide (lo ≤ v) && decide (v ≤ hi)
  | .natOr lo hi one => (decide (lo ≤ v) && decide (v ≤ hi)) || v == one
  | .oneOf vs => v ∈ vs
  | .real lo hi =>
    (match f32Fix (BitVec.ofNat 32 v), f32Fix lo, f32Fix hi with
     | some x, some a, some b => decide (a ≤ x) && decide (x ≤ b)
     | _, _, _ => false)

/-- Ranges that depend on the part: unit codes, contexts and slices that exist. -/
def partRange (s : State) (r : ObjRow) (v : Nat) : Bool :=
  match r.ix, r.sub with
  | 0xA100, 7 => unitExists s v
  | 0x7200, 1 | 0xA600, 1 => quillOk s (ctxQuill v)
  | 0xA700, 1 => v == 0xFFFF || quillOk s (ctxQuill v)
  | 0x8000, 3 => [bits v 7 0, bits v 15 8, bits v 23 16, bits v 31 24].all fun n => n == 0xFF || sliceExists s n
  | _, _ => true

/-- The length a write must have (R471). -/
def lengthOk (r : ObjRow) (n : Nat) : Bool :=
  match r.ty with
  | .str | .blob =>
    (match r.rng with
     | .len m => n == m
     | .recs size max => n % size == 0 && decide (n ≤ size * max)
     | _ => true)
  | t => n == t.size

/-- QUEUE_SLICES names a slice of each enabled tile, and 0xFF for a disabled one (R290, R302). -/
def queueSlicesOk (s : State) (bs : List Byte) : Bool :=
  (List.range 16).all fun t =>
    let n := (bs.getD t 0xFF).toNat
    if tileOk s t then n / 8 == t else n == 0xFF

/-- The value lies in its range (R471, R481 step 5). -/
def valueOk (s : State) (r : ObjRow) (bs : List Byte) : Bool :=
  let v := leNat bs
  match r.ty with
  | .str => true
  | .blob => if r.ix = 0x8000 then queueSlicesOk s bs else true
  | .bool => decide (v < 2)
  | .f32 => (f32Fix (BitVec.ofNat 32 v)).isSome && r.rng.admits v
  | _ => r.rng.admits v && partRange s r v

/-- The unit of an RWS object is stopped (R473, R481 step 6). Objects whose own write decides it answer true here. -/
def unitStopped (s : State) (r : ObjRow) (inst : Nat) : Bool :=
  if r.acc != .rws then true
  else match r.ix with
    | 0x3000 => (s.port inst).st == .disabled
    | 0x3400 => s.o (hostObj inst 0 1) == 0
    | 0x3801 => slotWritable (s.routeSlot (inst == 1))
    | 0x6100 | 0x6101 | 0x6102 => (s.domain inst).st == .idle || (s.domain inst).st == .tornDown
    | 0x8000 => s.tables.all fun e => e.2.st == .free
    | 0x6000 | 0x7000 | 0x9000 => true
    | 0x3806 => allPortsDisabled s
    | _ => deviceStopped s

/-! ### Records of a BLOB (R479) -/

/-- The records of a BLOB. -/
def chop (n : Nat) (bs : List Byte) : List (List Byte) := (List.range (bs.length / n)).map fun i => slice bs (n * i) n

/-- Records of an index of `a` bytes and a value of `w` bits. -/
def pairs (a i w : Nat) (bs : List Byte) : List (BitVec i × BitVec w) :=
  (chop (a + w / 8) bs).map fun r => (BitVec.ofNat i (leAt r 0 a), BitVec.ofNat w (leAt r a (w / 8)))

/-- Records of `w` bits. -/
def words64 (bs : List Byte) : List (BitVec 64) := (chop 8 bs).map fun r => BitVec.ofNat 64 (leNat r)

/-! ### Writes with a meaning of their own -/

/-- A meter that an output's class may be bound to: none, or one of its own tile for a fabric port; a PRT binds meters of its
partition only (R151, R162). DESIGN CHOICE (notes/assumptions/77.md): OPR binds a port of any partition to a meter of any OWNER. -/
def meterBinds (s : State) (c : Caller) (o m : Nat) : Bool :=
  m == 0xFFFF ||
    (meterExists s m && (decide (128 ≤ o) || m / 256 == o / 8) && (isOpr s c || meterOwner (s.meter m).word == c.part.val))

/-- The thresholds of R551 stay in order. -/
def thresholdsOk (s : State) : Bool :=
  decide (objFix s (okey 0x1420 3) < objFix s (okey 0x1420 4)) && decide (objFix s (okey 0x1420 4) < objFix s (okey 0x1420 6))

/-- Sets a value where the chapter admits the state that it leaves. -/
def setIf (s : State) (k v : Nat) (ok : State → Bool) : Ans := guardValue s (ok (s.setO k v)) (Ans.ok (s.setO k v))

/-- RESET_LEVEL (R570, R571): a level, and its port or tile. A reset ordered so has no bring-up operand: its duration is a free
value. -/
def setResetLevel (s : State) (c : Caller) (v : Nat) : Ans :=
  match bits v 7 0 with
  | 1 => setPortReset s c (bits v 15 8)
  | 2 => setTileReset s c (bits v 15 8)
  | 3 => let f := s.takeFree 1; setDataPathReset f.2 c (f.1.setWidth 32) []
  | _ => Ans.no s Ds.valueRejected

/-- SPILL_SLICES, QUEUE_SLICES: slices that no partition holds and no other unit of the device works in. -/
def workSlicesFree (s : State) (ns others : List Nat) : Bool :=
  ns.all fun n => decide (128 ≤ n) || (!sliceGranted s n && !(n ∈ dirSliceList s) && n != basisSliceNo s && !(n ∈ others))

/-- A selector's value names a record that the caller's session may select: a PRT selects contexts, tables, objects, schedules and
basis slots of its own partition only (R261, R302, R335, R360). -/
def maySelect (s : State) (c : Caller) (r : ObjRow) (n : Nat) : Bool :=
  c.role != .prt || !(r.scope == .selector && r.ix ∈ [0x5300, 0x5400, 0x7200, 0x8100, 0x9001, 0xA600]) ||
    recordPart s r.ix n == c.part.val

/-- Selectors, the event settings of the session, and values held under their key. -/
def setPlain (s : State) (c : Caller) (r : ObjRow) (k : Nat) (bs : List Byte) : Ans :=
  let v := sessionOf s c
  if !maySelect s c r (leNat bs) then Ans.no s Ds.accessDenied
  else if isSelector r then Ans.ok (s.setSession { v with sel := Sparse.set (selDefault k) v.sel k (leNat bs) })
  else match r.ty with
    | .str | .blob => Ans.ok (s.setB k bs)
    | _ => Ans.ok (s.setO k (leNat bs))

def writeDictionary (s : State) (c : Caller) (r : ObjRow) (i k : Nat) (bs : List Byte) : Ans :=
  let n := leNat bs
  match r.ix, r.sub with
  | 0x1100, 1 => setOprCred s c (BitVec.ofNat 256 n)
  | 0x1100, 7 => setKill s c n
  | 0x1100, 0xA => setCredClear s c n
  | 0x1120, 1 => setPrtCred s c i (BitVec.ofNat 256 n)
  | 0x1200, 2 => setEvtAck s c (BitVec.ofNat 32 n)
  | 0x1200, 5 => Ans.ok (s.setSession { sessionOf s c with mask := BitVec.ofNat 256 n })
  | 0x1200, 6 => Ans.ok (s.setSession { sessionOf s c with notify := n == 1 })
  | 0x1240, 0xA => setPlogClear s c n
  | 0x1420, 3 | 0x1420, 4 | 0x1420, 6 => setIf s k n thresholdsOk
  | 0x1482, 1 => setResetLevel s c n
  | 0x1600, 1 => setFwStage s c bs
  | 0x1600, 2 =>
    (match n with
     | 1 => setFwVerify s c
     | 2 => setFwInstall s c
     | 3 => setFwActivate s c
     | _ => setFwDiscard s c)
  | 0x1620, 6 => setAttReq s c bs
  | 0x1620, 8 => setAttFinish s c bs
  | _, _ => setPlain s c r k bs

def writePartition (s : State) (c : Caller) (r : ObjRow) (i k : Nat) (bs : List Byte) : Ans :=
  let n := leNat bs
  match r.ix, r.sub with
  | 0x2000, 2 =>
    (match n with
     | 1 => setCreate s c i
     | 2 => setSeal s c i
     | _ => setRemove s c i)
  | 0x2001, 1 => setPorts s c i n
  | 0x2001, 2 => setHosts s c i n
  | 0x2001, 3 => setQuills s c i n
  | 0x2001, 4 => setSliceMap s c i bs
  | 0x2001, 5 => setHfid s c i 0 n
  | 0x2001, 6 => setHfid s c i 1 n
  | 0x2002, 3 => setKeyEstablish s c i n
  | 0x2002, 4 => setKeyRetire s c i n
  | 0x2002, 5 => setPeerAllow s c i ((chop 32 bs).map fun d => BitVec.ofNat 256 (leNat d))
  | 0x2002, 6 => setHostRekey s c i n
  | _, _ => setPlain s c r k bs

/-- The colour and field of subindices 03 to 0B of a drop profile (R163). -/
def profileOf (sub : Nat) : Colour × ProfField :=
  (match (sub - 3) / 3 with | 0 => .green | 1 => .yellow | _ => .red, match (sub - 3) % 3 with | 0 => .min | 1 => .max | _ => .maxp)

/-- A write of a meter binding; one that names a meter of a disabled tile raises QOS_CONFIG_REJECTED (R151, R155, R164). It binds at
once: DESIGN CHOICE (notes/assumptions/77.md). -/
def setMeterBinding (s : State) (c : Caller) (r : ObjRow) (i k : Nat) (bs : List Byte) : Ans :=
  let m := leNat bs
  if m < 4096 ∧ ¬ meterExists s m then Ans.no (raise s 0x020C (outOwner s i) [(1, 1), (2, m)]) Ds.valueRejected
  else guardValue s (meterBinds s c i m) (setPlain s c r k bs)

def writePorts (s : State) (c : Caller) (r : ObjRow) (i k : Nat) (bs : List Byte) : Ans :=
  let n := leNat bs
  match r.ix, r.sub with
  | 0x3000, 1 => setPortEnable s c i n
  | 0x3000, 5 => setRetrain s c i n
  | 0x3400, 1 => setHostEnable s c i n
  | 0x3800, 2 => setOrigEp s c n
  | 0x3800, 8 => setEpochNotify s c (BitVec.ofNat 32 n)
  | 0x3801, 2 => Ans.ok (s.setRouteSlot (i == 1) { s.routeSlot (i == 1) with rgen := BitVec.ofNat 32 n })
  | 0x3801, 3 => setEntries s c (i == 1) (pairs 4 32 128 bs)
  | 0x3801, 4 => setIlist s c (i == 1) (pairs 4 32 32 bs)
  | 0x3801, 5 => setCommit s c (i == 1) n
  | 0x3801, 6 => setRetire s c (i == 1) n
  | 0x3801, 7 => setClear s c (i == 1) n
  | 0x3804, 1 => setLigs s c (pairs 4 32 256 bs)
  | 0x4000, sub =>
    if sub = 1 then setStrictMask s c i n
    else if sub = 0x31 ∨ sub = 0x33 ∨ sub = 0x35 ∨ sub = 0x37 then setMeterBinding s c r i k bs
    else if sub = 2 ∨ sub = 3 ∨ 0x20 ≤ sub then setPlain (noteShaper s i k) c r k bs
    else setPlain s c r k bs
  | 0x4001, sub =>
    if 3 ≤ sub then setDropProfile s c i (profileOf sub).1 (profileOf sub).2 n else setPlain s c r k bs
  | 0x4300, 1 => setMeters s c (pairs 4 32 192 bs)
  | _, _ => setPlain s c r k bs

def writeMemory (s : State) (c : Caller) (r : ObjRow) (i k : Nat) (bs : List Byte) : Ans :=
  let n := leNat bs
  match r.ix, r.sub with
  | 0x5020, 1 => setTagReserve s c i n
  | 0x5020, 2 => guardValue s (resourcesOpen s i) (setPlain s c r k bs)
  | 0x5100, 1 => setFolios s c (pairs 4 32 256 bs)
  | 0x5100, 5 => setRevoke s c n
  | 0x5100, 6 => setFolioClear s c n
  | 0x5200, 1 => setRegions s c (words64 bs)
  | 0x5300, 1 => setObjects s c (pairs 2 16 512 bs)
  | 0x5300, 4 => setObjDelete s c n
  | 0x5400, 1 => setScheds s c (words64 bs)
  | 0x5400, 2 => setPfEntries s c (pairs 2 16 128 bs)
  | 0x5400, 3 =>
    (match bits n 15 8 with
     | 1 => setPfActivate s c (bits n 7 0)
     | 2 => setPfStop s c (bits n 7 0)
     | _ => Ans.no s Ds.valueRejected)
  | 0x6000, 1 => setDirSlices s c n
  | 0x6100, 3 =>
    (match n with
     | 1 => setActivate s c i
     | 2 => setTeardown s c i
     | _ => setDomainReset s c i)
  | _, _ => setPlain s c r k bs

def writeCompute (s : State) (c : Caller) (r : ObjRow) (i k : Nat) (bs : List Byte) : Ans :=
  let n := leNat bs
  match r.ix, r.sub with
  | 0x7000, 1 => setChunkSlots s c n
  | 0x7000, 2 => { setPlain s c r k bs with s := (enabledQuills s).foldl openChunks (setPlain s c r k bs).s }
  | 0x7200, 8 => setCtxAbort s c n
  | 0x7300, 1 =>
    let w (j : Nat) : BitVec 32 := BitVec.ofNat 32 (leAt bs (8 + 4 * j) 4)
    setCgInput s c (BitVec.ofNat 64 (leAt bs 0 8)) ⟨#[w 0, w 1, w 2, w 3], rfl⟩ []
  | 0x7400, 2 => setBatchSign s c i n
  | 0x8000, 2 => guardValue s (workSlicesFree s (bs.map (·.toNat)) (spillSliceList s)) (setPlain s c r k bs)
  | 0x8000, 3 =>
    guardValue s (workSlicesFree s [bits n 7 0, bits n 15 8, bits n 23 16, bits n 31 24] ((List.range 16).map (queueSliceOf s)))
      (setPlain s c r k bs)
  | 0x8100, 1 => setTables s c (pairs 2 16 512 bs)
  | 0x8100, 5 => setStages s c (pairs 2 16 512 bs)
  | 0x8100, 6 => setTableSwitch s c n
  | 0x8100, 7 => setTableDelete s c n
  | 0x8100, 8 => setTableSync s c n
  | 0x8100, 0x11 => setDigests s c (pairs 2 16 256 bs)
  | 0x9000, 1 => setBasisSlice s c n
  | 0x9001, 1 => setSlots s c (words64 bs)
  | 0x9001, 5 => setGenRetire s c n
  | _, _ => setPlain s c r k bs

def writeFaults (s : State) (c : Caller) (r : ObjRow) (i k : Nat) (bs : List Byte) : Ans :=
  let n := leNat bs
  match r.ix, r.sub with
  | 0xA100, 6 => setSelftestRun s c n
  | 0xA300, 1 => setHbWatch s c (words32 bs)
  | 0xA400, 1 => setFenceWrite s c ((chop 16 bs).map fun w => BitVec.ofNat 128 (leNat w))
  | 0xA500, 1 => setMemberStage s c bs
  | 0xA500, 5 => setMemberNow s c n
  | 0xA500, 6 => setMemberNotify s c n
  | 0xA600, 3 => setPromote s c n
  | 0xA600, 4 => setRetarget s c (leAt bs 0 2) (BitVec.ofNat 32 (leAt bs 4 4))
  | 0xA700, 6 => setStragClear s c i n
  | _, _ => setPlain s c r k bs

/-- What a write that has passed steps 1 to 6 does, by the chapter that defines the object (R481 step 7). -/
def applyWrite (s : State) (c : Caller) (r : ObjRow) (i k : Nat) (bs : List Byte) : Ans :=
  if r.ix < 0x2000 then writeDictionary s c r i k bs
  else if r.ix < 0x3000 then writePartition s c r i k bs
  else if r.ix < 0x5000 then writePorts s c r i k bs
  else if r.ix < 0x7000 then writeMemory s c r i k bs
  else if r.ix < 0xA000 then writeCompute s c r i k bs
  else writeFaults s c r i k bs

/-! ### A write (R481) -/

/-- A write of INDEX.SUB, checked in the order of R481. -/
def writeValue (s : State) (c : Caller) (index sub : Nat) (bs : List Byte) : Ans :=
  let v := sessionOf s c
  let l := locate index
  if sub = 0 ∧ 0 < topSub l.1 then Ans.no s (if isOpr s c && mayReadSome s c v l.1 l.2 then Ds.wrongAccess else Ds.accessDenied)
  else match findObj l.1 sub with
    | none => Ans.no s Ds.noObject
    | some r =>
      if !objPresent s r l.2 || !mayWrite s c r (objPart s v r l.2) then Ans.no s Ds.accessDenied
      else if r.acc = .ro then Ans.no s Ds.wrongAccess
      else if !lengthOk r bs.length then Ans.no s Ds.wrongLength
      else if !valueOk s r bs then Ans.no s Ds.outOfRange
      else if !unitStopped s r l.2 then Ans.no s Ds.unitNotStopped
      else applyWrite s c r l.2 (okey index sub) bs

end Sys2Proof.Machine
end

