-- ==== Sys2Proof/Machine/Dictionary.lean ====
section
/-! DEFINITION. Dictionary messages: sessions (R487 to R495), transfers (R496 to R500), notification and attention (R505, R508), and
the frames that carry them on host ports and the management ring (R407, R483, R484, R539, R550). -/

namespace Sys2Proof.Machine

/-- The number whose big-endian bytes are `bs` (R13). -/
def beNat (bs : List Byte) : Nat := leNat bs.reverse

/-! ### Answers -/

/-- The answer to a message: its type and XID, RESP set, a status. -/
def respond (m : DMsg) (d : BitVec 8) : DMsg := { DMsg.mk0 m.mtype with resp := true, dstat := d, sid := m.sid, xid := m.xid }

/-- Sends a message on a session, unless it has ended: then no answer is sent (R494). -/
def reply (s : State) (sid : BitVec 16) (m : DMsg) : State :=
  match s.session sid with
  | some v => dictSend s v m
  | none => s

/-- A message discarded and counted (R488, R491). -/
def discarded (s : State) : State := s.bump (okey 0x1100 9) 1

/-! ### Segments (R498, R499) -/

/-- Segments of a transfer. -/
def segCount (total : Nat) : Nat := (total + 1023) / 1024

/-- Contiguous segments of a WRITE held from 0. -/
def segsHeld (x : Transfer) : Nat := ((List.range (segCount x.total)).takeWhile fun i => x.segs.any fun e => e.1 == i).length

/-- The value whose segments are held. -/
def segsValue (x : Transfer) : List Byte :=
  (List.range (segCount x.total)).flatMap fun i => ((x.segs.find? fun e => e.1 == i).map (·.2)).getD []

/-- Segment `i` of a READ as it is sent: segment 0 is the answer to the READ. -/
def segMsg (x : Transfer) (i : Nat) : DMsg :=
  { DMsg.mk0 (if i = 0 then 3 else 5) with
    resp := true, more := decide (i + 1 < segCount x.total), xid := x.xid, segno := BitVec.ofNat 16 i
    total := if i = 0 then BitVec.ofNat 32 x.total else 0, payload := (x.value.drop (1024 * i)).take 1024 }

/-- Sends segments `a` to `b − 1` on a session. -/
def sendSegs (s : State) (sid : BitVec 16) (x : Transfer) (a b : Nat) : State :=
  ((List.range (b - a)).map (a + ·)).foldl (fun s i => reply s sid (segMsg x i)) s

/-- A WRITE that begins a segmented transfer, in form (R498). -/
def segmentedForm (m : DMsg) : Bool := m.more && m.segno == 0 && m.payload.length == 1024 && decide (1024 < m.total.toNat)
/-- A WRITE that carries its value, in form (R498). -/
def expeditedForm (m : DMsg) : Bool := !m.more && m.segno == 0 && m.total.toNat == m.payload.length

/-- A later segment, in form (R498). -/
def segmentForm (x : Transfer) (m : DMsg) : Bool :=
  let n := segCount x.total
  let i := m.segno.toNat
  decide (1 ≤ i) && decide (i < n) && m.more == decide (i + 1 < n) && m.payload.length == min 1024 (x.total - 1024 * i)

/-- The transfer with one more segment held. -/
def addSegment (x : Transfer) (m : DMsg) : Transfer :=
  if x.segs.any fun e => e.1 == m.segno.toNat then x else { x with segs := x.segs ++ [(m.segno.toNat, m.payload)] }

/-- A segmented WRITE with its first segment. -/
def newWrite (m : DMsg) : Transfer :=
  { write := true, xid := m.xid, index := m.index, sub := m.sub, total := m.total.toNat, segs := [(0, m.payload)], value := [], auxr := 0
    sent := 0 }

/-- The longest value of an object (R482); 4 MiB where there is none. -/
def longest (index sub : Nat) : Nat :=
  match findObj (locate index).1 sub with
  | some r =>
    (match r.ty, r.rng with
     | .str, _ => 256
     | .blob, .len n => n
     | .blob, .recs size n => size * n
     | .blob, _ => 4194304
     | t, _ => t.size)
  | none => 4194304

/-- SEG_ACK is due: a gap, or eight more contiguous segments than it last gave (R499). -/
def ackDue (x : Transfer) : Bool := x.write && (decide (segsHeld x < x.segs.length) || decide (x.auxr / 8 < segsHeld x / 8))

/-! ### Requests within a session (R496 to R500) -/

/-- The client of a session. -/
def Session.caller (v : Session) : Caller := { sid := v.sid, role := v.role, part := v.part }

/-- Sets a session's transfer. -/
def setXfer (s : State) (v : Session) (x : Option Transfer) : State := s.setSession { v with xfer := x }

/-- The answer that a WRITE had (R497). -/
def keptAnswer (k : Kept) : DMsg := { DMsg.mk0 4 with resp := true, dstat := k.dstat, xid := k.xid, auxr := k.auxr, payload := k.value }

/-- Applies a WRITE, keeps its answer among the last 8, and sends it. -/
def performWrite (s : State) (v : Session) (xid index : BitVec 16) (sub : BitVec 8) (bs : List Byte) : State :=
  let a := writeValue s v.caller index.toNat sub.toNat bs
  let k : Kept := { xid := xid, index := index, sub := sub, dstat := a.st, auxr := a.auxr, value := a.value }
  match a.s.session v.sid with
  | none => a.s
  | some w =>
    let w' := { w with kept := (w.kept ++ [k]).drop (w.kept.length - 7) }
    dictSend (a.s.setSession w') w' (keptAnswer k)

/-- A WRITE (R481, R497, R498). -/
def doWrite (s : State) (v : Session) (m : DMsg) : State :=
  if segmentedForm m then
    if 4194304 < m.total.toNat ∨ longest m.index.toNat m.sub.toNat < m.total.toNat then reply s v.sid (respond m Ds.tooLarge)
    else if v.xfer.isSome then s
    else setXfer s v (some (newWrite m))
  else if expeditedForm m ∧ v.xfer.isNone then performWrite s v m.xid m.index m.sub m.payload
  else reply s v.sid (respond m Ds.formatUnsupported)

/-- Bytes of READ captures held, but for one session's (R500). -/
def captured (s : State) (sid : BitVec 16) : Nat :=
  (s.sessions.map fun v => if v.sid = sid then 0 else match v.xfer with | some x => x.value.length | none => 0).foldl (· + ·) 0

/-- A READ: answered whole, or captured and sent in segments (R478, R498 to R500). -/
def doRead (s : State) (v : Session) (m : DMsg) : State :=
  let a := readObject s v.caller m.index.toNat m.sub.toNat
  if a.st ≠ Ds.ok then reply a.s v.sid (respond m a.st)
  else if a.value.length ≤ 1024 then
    let s := setXfer a.s v none
    reply s v.sid { respond m Ds.ok with total := BitVec.ofNat 32 a.value.length, payload := a.value }
  else if 8388608 < captured s v.sid + a.value.length then reply s v.sid (respond m Ds.busy)
  else
    let n := segCount a.value.length
    let x : Transfer := { write := false, xid := m.xid, index := m.index, sub := m.sub, total := a.value.length, segs := [], value := a.value
                          auxr := 0, sent := min 16 n }
    sendSegs (setXfer a.s v (some x)) v.sid x 0 (min 16 n)

/-- A SEGMENT of the WRITE in progress; the value is applied once all are held, and the answer follows (R478, R499). -/
def doSegment (s : State) (v : Session) (m : DMsg) : State :=
  match v.xfer with
  | none => s
  | some x =>
    if !x.write || m.xid != x.xid then s
    else if !segmentForm x m then reply s v.sid (respond m Ds.formatUnsupported)
    else
      let x' := addSegment x m
      if segsHeld x' = segCount x'.total then
        let v' := { v with xfer := none }
        performWrite (s.setSession v') v' x'.xid x'.index x'.sub (segsValue x')
      else setXfer s v (some x')

/-- A SEG_ACK of the READ in progress: ends it, or lets segments up to 16 beyond it go (R499). -/
def doSegAck (s : State) (v : Session) (m : DMsg) : State :=
  match v.xfer with
  | none => s
  | some x =>
    let k := m.auxr.toNat
    let n := segCount x.total
    if x.write || m.xid != x.xid then s
    else if k = n then setXfer s v none
    else if x.auxr < k ∧ k ≤ x.sent then
      let to_ := min n (k + 16)
      let x' := { x with auxr := k, sent := max x.sent to_ }
      sendSegs (setXfer s v (some x')) v.sid x' x.sent to_
    else s

/-- TRANSFER_ABORTED: at most once in any 1 ms (R515, R597). -/
def abortEvent (s : State) (sid xid : BitVec 16) : State :=
  raiseLimited s ms 0 0x0A04 deviceWide [(2, sid.toNat), (2, xid.toNat)]

/-- The ABORT message of the device. -/
def abortMsg (xid : BitVec 16) : DMsg := { DMsg.mk0 7 with resp := true, dstat := Ds.transferAborted, xid := xid }

/-- The transfer in progress ends without completion (R500). -/
def abortTransfer (s : State) (v : Session) (x : Transfer) : State :=
  reply (abortEvent (setXfer s v none) v.sid x.xid) v.sid (abortMsg x.xid)

def doAbort (s : State) (v : Session) (m : DMsg) : State :=
  match v.xfer with
  | some x => if m.xid = x.xid then abortTransfer s v x else s
  | none => s

/-- The message repeats the request in progress (R496). -/
def repeatsRequest (x : Transfer) (m : DMsg) : Bool :=
  m.xid == x.xid && m.index == x.index && m.sub == x.sub && (if x.write then m.mtype == 4 else m.mtype == 3)

/-- A request: refused BUSY while another is in progress (R496). -/
def request (s : State) (v : Session) (m : DMsg) (act : State) : State :=
  match v.xfer with
  | some x => if repeatsRequest x m then act else reply s v.sid (respond m Ds.busy)
  | none => act

/-- READ, SESS_CLOSE and KEEPALIVE carry nothing. -/
def bareForm (m : DMsg) : Bool := !m.more && m.segno == 0 && m.payload.isEmpty

/-- A kept answer to this very WRITE (R497). -/
def keptFor (v : Session) (m : DMsg) : Option Kept := v.kept.find? fun k => k.xid == m.xid && k.index == m.index && k.sub == m.sub

/-- A message accepted within an open session (R486, R496). -/
def inSession (s : State) (v : Session) (m : DMsg) : State :=
  let bad := reply s v.sid (respond m Ds.formatUnsupported)
  if m.resp || decide (1024 < m.payload.length) then bad
  else match m.mtype.toNat with
    | 2 => if bareForm m then request s v m (endSession (reply s v.sid (respond m Ds.ok)) v.sid) else bad
    | 3 => if bareForm m then request s v m (doRead s v m) else bad
    | 4 => (match keptFor v m with
            | some k => reply s v.sid (keptAnswer k)
            | none => request s v m (doWrite s v m))
    | 5 => doSegment s v m
    | 6 => doSegAck s v m
    | 7 => doAbort s v m
    | 9 => if bareForm m then request s v m (reply s v.sid (respond m Ds.ok)) else bad
    | _ => bad

/-! ### Authentication (R489 to R493) -/

/-- The role of a code. -/
def roleOf : Nat → Option Role
  | 0 => some .opr | 1 => some .prt | 2 => some .vnd | 3 => some .att | _ => none

/-- A source address as R493 refuses it: on a host port, whatever the UDP port. -/
def sourceOf : TAddr → TAddr
  | .host h ip _ => .host h ip 0
  | .ring mac => .ring mac

/-- The transport accepts the role (R488, R489, R492). -/
def roleAccepted (s : State) (a : TAddr) (r : Role) (p : Nat) : Bool :=
  (match a with
   | .host h _ _ =>
     let q := hostOwner s h.val
     (q == 0 || r == .att || (r == .prt && p == q)) && !(r == .opr && s.oprCred.isNone)
   | .ring _ => true) &&
  (match r with
   | .vnd => !(List.range 32).any fun q => (s.part q).st == .sealing || (s.part q).st == .sealed
   | .prt => decide (p < 32) && ((s.part p).st == .open_ || (s.part p).st == .sealed) && (s.part p).cred.isSome
   | _ => true)

/-- Sessions of a role are below their limit, and all of them below 32 (R487). -/
def sessionFree (s : State) (r : Role) (p : Nat) : Bool :=
  let same := (s.sessions.filter fun v => v.role == r && (r != .prt || v.part.val == p)).length
  decide (s.sessions.length < 32) &&
    decide (same < (match r with | .opr => 4 | .prt => 2 | .vnd => 1 | .att => 8))

/-- The first SID in use by no session, from a start that the spec leaves open. -/
def freshSid (s : State) (start : Nat) : BitVec 16 :=
  BitVec.ofNat 16 (((List.range 33).map fun i => (start + i) % 65535 + 1).find? (fun n => (s.session (BitVec.ofNat 16 n)).isNone) |>.getD 1)

/-- A session as it opens: EVT_MASK has bits 1 to 11 set, and a ring session has EVT_NOTIFY set (R505, R512). -/
def newSession (a : TAddr) (r : Role) (p : Part) (sid : BitVec 16) (nc nd : BitVec 256) : Session :=
  { sid := sid, role := r, part := p, addr := a, nc := nc, nd := nd, authed := r == .att, zeroCred := false, ckey := 0, csalt := 0, dkey := 0
    dsalt := 0, rxHi := 0, rxSeen := [], txSeq := 0, sel := [], xfer := none, kept := [], events := [], eseq := 1, lost := 0, lostNew := 0
    mask := 0xFFE, notify := match a with | .ring _ => true | .host _ _ _ => false }

/-- SESS_OPEN (R489). A payload of another length is discarded: no session exists to answer in. -/
def sessOpen (s : State) (a : TAddr) (m : DMsg) : Bool × State :=
  let refuse (d : BitVec 8) : Bool × State := (true, s.emit (.dict a (respond m d)))
  if m.resp || m.prot || m.payload.length != 48 then (false, s)
  else
    let p := (m.payload.getD 1 0).toNat
    match roleOf (m.payload.getD 0 0).toNat with
    | none => refuse Ds.formatUnsupported
    | some r =>
      if r != .prt && p != 0 then refuse Ds.formatUnsupported
      else if sourceOf a ∈ s.refused || !roleAccepted s a r p then refuse Ds.accessDenied
      else if !sessionFree s r p then refuse Ds.busy
      else
        let f := s.takeFree 3
        let n := f.2.draw
        let nd := BitVec.ofNat 256 (leNat (drbg n.1 32))
        let sid := freshSid s f.1.toNat
        let s := if r = .att then f.2 else n.2
        let v := newSession a r ⟨p % 32, by omega⟩ sid (BitVec.ofNat 256 (leNat (m.payload.drop 16))) nd
        let s := { s with sessions := s.sessions ++ [v] }
        (true, s.emit (.dict a { respond m Ds.ok with sid := sid, payload := if r = .att then [] else bytes32 nd }))

/-- CRED of a session's role; none refuses every proof (R490, R492). -/
def credOf (s : State) (v : Session) : Option (BitVec 256) :=
  match v.role with
  | .opr =>
    (match s.oprCred, v.addr with
     | some k, _ => some k
     | none, .ring _ => some 0
     | none, .host _ _ _ => none)
  | .prt => (s.part v.part.val).cred
  | .vnd => some Config.vndCred
  | .att => none

/-- NC ‖ ND ‖ SID ‖ ROLE ‖ PART (R490). -/
def proofMsg (v : Session) : List Byte :=
  bytes32 v.nc ++ bytes32 v.nd ++ beBytes 2 v.sid.toNat ++ leBytes 1 (roleCode v.role) ++ leBytes 1 v.part.val

/-- A proof of R490 under a customisation string. -/
def proof (cred : BitVec 256) (v : Session) (custom : String) : BitVec 256 := Config.kmac256 (bytes32 cred) (ascii custom) (proofMsg v)

/-- A session that has proved its credential, with its keys (R490). -/
def keyed (s : State) (cred : BitVec 256) (v : Session) : Session :=
  let k := shake 72 (ascii "SKOMIRD1" ++ bytes32 cred ++ proofMsg v)
  { v with authed := true, zeroCred := v.role == .opr && s.oprCred.isNone, ckey := BitVec.ofNat 256 (leAt k 0 32)
           dkey := BitVec.ofNat 256 (leAt k 32 32), csalt := BitVec.ofNat 32 (beNat (slice k 64 4)), dsalt := BitVec.ofNat 32 (beNat (slice k 68 4)) }

/-- A failed SESS_AUTH (R493). -/
def authFailed (s : State) (v : Session) (m : DMsg) : State :=
  let s := endSession (s.emit (.dict v.addr (respond m Ds.authFailed))) v.sid
  let s := { s with refused := s.refused ++ [sourceOf v.addr] }.bump (okey 0x1100 8) 1
  raise s 0x0A01 deviceWide [(1, transportCode v.addr), (1, roleCode v.role)]

/-- A message of a session that has not been authenticated: only SESS_AUTH is served (R490). -/
def beforeAuth (s : State) (v : Session) (m : DMsg) : State :=
  if m.mtype ≠ 1 then s.emit (.dict v.addr (respond m Ds.sessionInvalid))
  else if m.resp || m.prot || m.seq != 0 || m.payload.length != 32 then s.emit (.dict v.addr (respond m Ds.formatUnsupported))
  else match credOf s v with
    | none => authFailed s v m
    | some cred =>
      if bytes32 (proof cred v "SKOMIR SESSION C") = m.payload then
        (s.emit (.dict v.addr { respond m Ds.ok with payload := bytes32 (proof cred v "SKOMIR SESSION D") })).setSession (keyed s cred v)
      else authFailed s v m

/-! ### Arrival of a message (R485 to R495) -/

/-- The SEQ is above the highest accepted, or one of the 64 below that has not arrived (R491). -/
def seqFresh (v : Session) (q : BitVec 32) : Bool :=
  decide (v.rxHi.toNat < q.toNat) ||
    (decide (1 ≤ q.toNat) && decide (v.rxHi.toNat ≤ q.toNat + 64) && q != v.rxHi && !(q.toNat ∈ v.rxSeen))

/-- The session with the SEQ accepted. -/
def seqTaken (v : Session) (q : BitVec 32) : Session :=
  let hi := max v.rxHi.toNat q.toNat
  { v with rxHi := BitVec.ofNat 32 hi, rxSeen := (q.toNat :: v.rxSeen).filter fun n => decide (hi ≤ n + 64) }

/-- A message of an authenticated session (R491, R494). -/
def protectedMsg (s : State) (v : Session) (m : DMsg) : Bool × State :=
  if !m.prot then (true, s.emit (.dict v.addr (respond m Ds.sessionInvalid)))
  else if !seqFresh v m.seq then (false, discarded s)
  else match DMsg.unprotect v.ckey v.csalt m with
    | none => (false, discarded s)
    | some c =>
      if m.seq = 0xFFFFFFFF#32 then (true, endSession s v.sid)
      else
        let v' := seqTaken v m.seq
        (true, inSession (s.setSession v') v' c)

/-- Objects that are read without a session (R495). -/
def openIndex (ix : Nat) : Bool := decide (0x1000 ≤ ix) && decide (ix ≤ 0x1008)

/-- A client without a session reads as ATT does: the identity objects only. -/
def noCaller : Caller := { sid := 0, role := .att, part := 0 }

/-- A message with SID 0 (R495). -/
def withoutSession (s : State) (a : TAddr) (m : DMsg) : Bool × State :=
  if m.mtype = 0 then sessOpen s a m
  else if m.mtype = 3 ∧ openIndex m.index.toNat ∧ bareForm m ∧ m.resp = false ∧ m.prot = false then
    let r := readObject s noCaller m.index.toNat m.sub.toNat
    (true, r.s.emit (.dict a { respond m r.st with total := BitVec.ofNat 32 r.value.length, payload := r.value }))
  else (false, s)

/-- A message for a SID (R488, R491, R494). -/
def forSession (s : State) (a : TAddr) (m : DMsg) : Bool × State :=
  match s.session m.sid with
  | none => if 10 ≤ m.mtype.toNat then (false, s) else (true, s.emit (.dict a (respond m Ds.sessionInvalid)))
  | some v =>
    if v.addr ≠ a then (false, discarded s)
    else if !v.authed then (true, beforeAuth s v m)
    else if v.role = .att then
      (true, if m.prot then s.emit (.dict a (respond m Ds.formatUnsupported)) else inSession s v m)
    else protectedMsg s v m

/-! ### The recovery loader (R550) -/

/-- Objects that the loader reads. -/
def loaderReads (ix sub : Nat) : Bool := openIndex ix || (ix == 0x1600 && decide (3 ≤ sub) && decide (sub ≤ 7))

/-- The loader's client: it needs no credential. -/
def loaderCaller : Caller := { sid := 0, role := .opr, part := 0 }

/-- The loader answers on the ring, unprotected. -/
def loaderSend (s : State) (mac : BitVec 48) (m : DMsg) : State := s.emit (.dict (.ring mac) m)

/-- The answer to a write with the loader. -/
def loaderAnswer (mac : BitVec 48) (xid : BitVec 16) (a : Ans) : State :=
  loaderSend a.s mac { DMsg.mk0 4 with resp := true, dstat := a.st, xid := xid, auxr := a.auxr, payload := a.value }

/-- A write of FW_CONTROL with the loader: VERIFY and INSTALL. -/
def loaderControl (s : State) (bs : List Byte) : Ans :=
  if bs.length ≠ 1 then Ans.no s Ds.wrongLength
  else match leNat bs with
    | 1 => setFwVerify s loaderCaller
    | 2 => setFwInstall s loaderCaller
    | 3 | 4 => Ans.no s Ds.accessDenied
    | _ => Ans.no s Ds.outOfRange

/-- A WRITE with the loader. -/
def loaderWrite (s : State) (mac : BitVec 48) (m : DMsg) : State :=
  let bad := loaderSend s mac (respond m Ds.formatUnsupported)
  if m.sub = 1 ∧ segmentedForm m then
    if 4194304 < m.total.toNat then loaderSend s mac (respond m Ds.tooLarge) else { s with loader := some (mac, newWrite m) }
  else if expeditedForm m then
    loaderAnswer mac m.xid (if m.sub = 1 then setFwStage s loaderCaller m.payload else loaderControl s m.payload)
  else bad

/-- A segment of the loader's transfer. -/
def loaderSegment (s : State) (mac : BitVec 48) (x : Transfer) (m : DMsg) : State :=
  if !segmentForm x m then loaderSend s mac (respond m Ds.formatUnsupported)
  else
    let x' := addSegment x m
    if segsHeld x' = segCount x'.total then
      loaderAnswer mac x'.xid (setFwStage { s with loader := none } loaderCaller (segsValue x'))
    else { s with loader := some (mac, x') }

/-- The loader's transfer ends without completion. -/
def loaderAbort (s : State) (mac : BitVec 48) (x : Transfer) : State := loaderSend { s with loader := none } mac (abortMsg x.xid)

/-- A message to the recovery loader: on the ring only, with SID 0. -/
def loaderReceive (s : State) (a : TAddr) (m : DMsg) : Bool × State :=
  match a with
  | .host _ _ _ => (false, s)
  | .ring mac =>
    let own := match s.loader with | some (k, x) => k == mac && x.xid == m.xid | none => false
    let idle := s.loader.isNone
    if m.sid ≠ 0 ∨ m.resp ∨ m.prot ∨ 1024 < m.payload.length then (false, s)
    else match m.mtype.toNat with
      | 3 =>
        if bareForm m ∧ loaderReads m.index.toNat m.sub.toNat then
          let r := readObject s loaderCaller m.index.toNat m.sub.toNat
          (true, loaderSend r.s mac { respond m r.st with total := BitVec.ofNat 32 r.value.length, payload := r.value })
        else (false, s)
      | 4 =>
        if m.index = 0x1600 ∧ (m.sub = 1 ∨ m.sub = 2) then
          (true, if idle then loaderWrite s mac m else if own then s else loaderSend s mac (respond m Ds.busy))
        else (false, s)
      | 5 => (match s.loader with | some (_, x) => (own, if own then loaderSegment s mac x m else s) | none => (false, s))
      | 7 => (match s.loader with | some (_, x) => (own, if own then loaderAbort s mac x else s) | none => (false, s))
      | _ => (false, s)

/-! ### The message commands -/

/-- A dictionary message arrives from a transport address; whether it was accepted (R485 to R495). -/
def receive (s : State) (a : TAddr) (m : DMsg) : Bool × State :=
  if m.mver ≠ 1 then (false, s)
  else match s.scribe.st with
    | .off => (false, s)
    | .recovery => loaderReceive s a m
    | .running => if m.sid = 0 then withoutSession s a m else forSession s a m

/-- Takes a message and counts it on its host port if it is accepted (0x3401.03). -/
def takeMsg (s : State) (a : TAddr) (m : DMsg) : State :=
  let r := receive s a m
  match a with
  | .host h _ _ => if r.1 then r.2.bump (hostObj h.val 1 3) 1 else r.2
  | .ring _ => r.2

def execSessOpen (a : TAddr) (m : DMsg) (s : State) : Host.Outcome State Fault Refusal := .next (takeMsg s a m)
def execSessAuth (a : TAddr) (m : DMsg) (s : State) : Host.Outcome State Fault Refusal := .next (takeMsg s a m)
def execSessClose (a : TAddr) (m : DMsg) (s : State) : Host.Outcome State Fault Refusal := .next (takeMsg s a m)
def execRead (a : TAddr) (m : DMsg) (s : State) : Host.Outcome State Fault Refusal := .next (takeMsg s a m)
def execWrite (a : TAddr) (m : DMsg) (s : State) : Host.Outcome State Fault Refusal := .next (takeMsg s a m)
def execSegment (a : TAddr) (m : DMsg) (s : State) : Host.Outcome State Fault Refusal := .next (takeMsg s a m)
def execSegAck (a : TAddr) (m : DMsg) (s : State) : Host.Outcome State Fault Refusal := .next (takeMsg s a m)
def execDictAbort (a : TAddr) (m : DMsg) (s : State) : Host.Outcome State Fault Refusal := .next (takeMsg s a m)
def execKeepalive (a : TAddr) (m : DMsg) (s : State) : Host.Outcome State Fault Refusal := .next (takeMsg s a m)

/-! ### Timers of sessions and transfers -/

/-- 1 s without SESS_AUTH frees a session (R490). -/
def execSessAuthTimeout (sid : BitVec 16) (s : State) : Host.Outcome State Fault Refusal :=
  .next (match s.session sid with
    | some v => if v.authed then s else endSession s sid
    | none => s)

/-- SESSION_IDLE without a valid message ends a session (R494). -/
def execSessionIdleTimeout (sid : BitVec 16) (s : State) : Host.Outcome State Fault Refusal := .next (endSession s sid)

/-- 1 s after a failed authentication its source address may open sessions again (R493). -/
def execAuthRefusalEnd (a : TAddr) (s : State) : Host.Outcome State Fault Refusal :=
  .next { s with refused := s.refused.erase (sourceOf a) }

/-- SEG_ACK of the device: the contiguous segments held (R486, R499). -/
def segAckMsg (x : Transfer) : DMsg :=
  { DMsg.mk0 6 with resp := true, xid := x.xid, auxr := BitVec.ofNat 32 (segsHeld x) }

/-- A SEG_ACK that is due is sent (R499). SID 0 names the recovery loader's transfer. -/
def execSegAckTimer (sid : BitVec 16) (s : State) : Host.Outcome State Fault Refusal :=
  .next (match s.session sid, s.loader with
    | some v, _ =>
      (match v.xfer with
       | some x => if ackDue x then reply (setXfer s v (some { x with auxr := segsHeld x })) sid (segAckMsg x) else s
       | none => s)
    | none, some (mac, x) =>
      if sid = 0 ∧ ackDue x then loaderSend { s with loader := some (mac, { x with auxr := segsHeld x }) } mac (segAckMsg x) else s
    | none, none => s)

/-- 2 ms without an advance of AUXR: the segments of a READ are sent again from it (R499). -/
def execSegmentResendTimer (sid : BitVec 16) (s : State) : Host.Outcome State Fault Refusal :=
  .next (match s.session sid with
    | some v =>
      (match v.xfer with
       | some x => if x.write then s else sendSegs s sid x x.auxr (min (segCount x.total) (x.auxr + 16))
       | none => s)
    | none => s)

/-- 20 ms without progress end a transfer (R500). SID 0 names the recovery loader's transfer. -/
def execTransferTimeout (sid : BitVec 16) (s : State) : Host.Outcome State Fault Refusal :=
  .next (match s.session sid, s.loader with
    | some v, _ =>
      (match v.xfer with
       | some x => abortTransfer s v x
       | none => s)
    | none, some (mac, x) => if sid = 0 then loaderAbort s mac x else s
    | none, none => s)

/-! ### Objects of this chapter written directly -/

def execSessionKill (by_ : Caller) (sid : BitVec 16) (s : State) : Host.Outcome State Fault Refusal := (setKill s by_ sid.toNat).out by_
def execEvtAck (by_ : Caller) (n : BitVec 32) (s : State) : Host.Outcome State Fault Refusal := (setEvtAck s by_ n).out by_
def execOprCred (by_ : Caller) (cred : BitVec 256) (s : State) : Host.Outcome State Fault Refusal := (setOprCred s by_ cred).out by_
def execOprCredClear (by_ : Caller) (v : BitVec 8) (s : State) : Host.Outcome State Fault Refusal := (setCredClear s by_ v.toNat).out by_

/-- OBJECT_WRITE: a write of any object (R472, R481). -/
def execObjectWrite (by_ : Caller) (index : BitVec 16) (sub : BitVec 8) (value : List Byte) (s : State) : Host.Outcome State Fault Refusal :=
  (writeValue s by_ index.toNat sub.toNat value).out by_

/-! ### NOTIFY and HRB (R505, R508) -/

/-- Each 1 s while records are pending, NOTIFY is sent again (R505). -/
def execEvtNotifyRepeat (sid : BitVec 16) (s : State) : Host.Outcome State Fault Refusal :=
  .next (match s.session sid with
    | some v =>
      if v.notify && !v.events.isEmpty then dictSend s v { DMsg.mk0 8 with auxr := BitVec.ofNat 32 v.events.length } else s
    | none => s)

/-- The attention pulse ends: the pin is high again unless a busy cause holds (R507, R508). -/
def execHrbPulseEnd (h : HostPort) (s : State) : Host.Outcome State Fault Refusal :=
  .next (let v := s.hrb h.val
    if v.pulse then
      let s := s.setHrb h.val { v with pulse := false }
      if hrbReady s h.val then s.emit (.hrb h true) else s
    else s)

/-- 10 µs after the start of a pulse: a transition that fell inside them is served if records are still pending (R508). -/
def execHrbPulseSpacingExpire (h : HostPort) (s : State) : Host.Outcome State Fault Refusal :=
  .next (let v := s.hrb h.val
    let s := s.setHrb h.val { v with spacing := false, deferred := false }
    if v.deferred ∧ 0 < hostEventCount s h.val then hrbAttention s h.val else s)

/-! ### Frames on a host port (R407, R483) -/

/-- The MAC address of HOST_h, and of the ring as 2 (R510). -/
def macOf (h : Nat) : BitVec 48 := Config.baseMac + BitVec.ofNat 48 h

/-- The IPv6 link-local address formed from a MAC address by EUI-64 (R483). -/
def linkLocal (m : BitVec 48) : BitVec 128 :=
  let b := (beBytes 6 m.toNat)
  BitVec.ofNat 128 (beNat ([0xFE#8, 0x80#8] ++ List.replicate 6 0#8 ++ [b.getD 0 0 ^^^ 2#8, b.getD 1 0, b.getD 2 0, 0xFF#8, 0xFE#8, b.getD 3 0, b.getD 4 0,
    b.getD 5 0]))

/-- The port's configured IPv4 address. -/
def hasIp4 (s : State) (h : Nat) (a : BitVec 32) : Bool := a != 0 && a.toNat == s.o (hostObj h 0 3)
/-- The port's configured or link-local IPv6 address. -/
def hasIp6 (s : State) (h : Nat) (a : BitVec 128) : Bool :=
  (a != 0 && beBytes 16 a.toNat == s.b (hostObj h 0 5)) || a == linkLocal (macOf h)

/-- A frame discarded under R483. -/
def frameDiscard (s : State) (h : HostPort) : State := s.bump (hostObj h.val 1 4) 1

/-- What a frame in clear form carries (R483). -/
def frameBody (s : State) (h : HostPort) (b : FrameBody) : State :=
  match b with
  | .arp t => if hasIp4 s h.val t then s.emit (.arpReply h) else frameDiscard s h
  | .nd t => if hasIp6 s h.val t then s.emit (.ndReply h) else frameDiscard s h
  | .icmpEcho d => if hasIp4 s h.val d then s.emit (.echoReply h) else frameDiscard s h
  | .icmp6Echo d => if hasIp6 s h.val d then s.emit (.echoReply h) else frameDiscard s h
  | .dictUdp ip udp m => takeMsg s (.host h ip udp) m
  | .encapUdp d => hostDatagram1 s h d
  | .macControl => s
  | .fragment | .other => frameDiscard s h

/-- The frame bears the port's VLAN (0x3400.06), or no tag where the port is untagged (R513). -/
def vlanOk (s : State) (h : HostPort) (f : HostFrame) : Bool :=
  s.o (hostObj h.val 0 6) == (match f.vlan with | some v => v.toNat | none => 0xFFFF)

/-- A frame in clear form; one of another VLAN is discarded: DEDUCED from R483 and R513 (notes/assumptions/63.md). -/
def clearFrame (s : State) (h : HostPort) (f : HostFrame) : State :=
  if f.body = .macControl ∨ vlanOk s h f then frameBody s h f.body else frameDiscard s h

/-- A packet number within the replay window of 64 below the highest accepted. -/
def inWindow (hi : Nat) (pn : BitVec 64) : Bool := decide (hi < pn.toNat + 64)

/-- A protected frame on a port that applies MACsec: accepted under the association in force or the older one still installed; the
first one under a new association moves the transmitter to it (R407, R408). -/
def macAccept (s : State) (h : HostPort) (t : SecTag) : Option State :=
  let m := s.mac h.val
  if !t.icvOk then none
  else if t.an = m.rxAn then
    if inWindow m.rxHi t.pn then some (s.setMac h.val { m with rxHi := max m.rxHi t.pn.toNat, txAn := m.rxAn }) else none
  else if m.oldKey.isSome ∧ t.an = m.rxAn - 1 ∧ inWindow m.oldHi t.pn then some (s.setMac h.val { m with oldHi := max m.oldHi t.pn.toNat })
  else none

/-- A frame on a host port. -/
def hostFrame (s : State) (h : HostPort) (f : HostFrame) : State :=
  if !(s.hostP h.val).up then s
  else if (s.mac h.val).on then
    match f.sec with
    | none => if f.body = .macControl then s else macDrop s h
    | some t => (match macAccept s h t with | some s => clearFrame s h f | none => macDrop s h)
  else if f.sec.isSome then frameDiscard s h
  else clearFrame s h f

def execHostFrame (h : HostPort) (f : HostFrame) (s : State) : Host.Outcome State Fault Refusal := .next (hostFrame s h f)

/-! ### Frames on the management ring (R484, R539) -/

/-- The link of a ring port. -/
def ringUp (s : State) (portB : Bool) : Bool := if portB then s.scribe.linkB else s.scribe.linkA

/-- Forwards a frame out of the other ring port. -/
def ringForward (s : State) (portB : Bool) (f : RingFrame) : State :=
  if ringUp s !portB then (s.bump (okey 0x3500 5) 1).emit (.ringForward (!portB) f) else s

/-- Consumes a frame: it is counted, and a dictionary message in it is taken. -/
def ringConsume (s : State) (f : RingFrame) : State :=
  let s := s.bump (okey 0x3500 4) 1
  if f.etype = 0x88B5 then takeMsg s (.ring f.src) f.msg else s

/-- A frame that arrives on a ring port (R539). While the bypass is closed, or the port's link is down, none arrives. -/
def ringFrame (s : State) (portB : Bool) (f : RingFrame) : State :=
  if s.scribe.bypass || !ringUp s portB || s.scribe.st == .off then s
  else if !f.fcsOk then s.bump (okey 0x3500 6) 1
  else if f.dst = macOf 2 then ringConsume s f
  else if f.dst = 0xFFFFFFFFFFFF#48 then ringForward (ringConsume s f) portB f
  else ringForward s portB f

def execRingFrame (portB : Bool) (f : RingFrame) (s : State) : Host.Outcome State Fault Refusal := .next (ringFrame s portB f)

end Sys2Proof.Machine
end

