-- ==== Sys2Proof/Machine/Clock.lean ====
section
/-! DEFINITION. What time alone does, between commands: Scribe time and the timebase advance by 10 ns (R27, R521), and what the spec
places at an instant of them and no row of the table names happens (R392, R398, R410). DESIGN CHOICE (notes/assumptions/4.md): one such
interval is what a step does while no command waits. -/

namespace Sys2Proof.Machine

/-- 10 ms and 100 ms in 10 ns units (R392). -/
abbrev snapSpan : Nat := 1000000
abbrev holdSpan : Nat := 10000000

/-- Takes the counters' snapshot at a 10 ms boundary of the timebase; it is numbered while a partition is SEALED (R392, R514). -/
def takeSnapshot (s : State) : State :=
  let s := { s with snap := { ctr := s.ctr, tables := s.tables, meters := s.meters, strags := s.strags } }
  if anySealed s then (s.bump (okey 0xB000 2) 1).setC (okey 0xB000 3) s.time else s

/-- Partitions whose work in flight ends 200 µs after SEAL (R398 step 1). -/
def sealDue (s : State) : List Nat :=
  (List.range 32).filter fun p => match (s.part p).sealAt with | some t => decide (t + 20000 ≤ s.time) | none => false

/-- Partitions whose removal has drained: nothing of theirs is in flight, or 200 µs have passed (R410 step 3). -/
def drainDue (s : State) : List Nat :=
  (List.range 32).filter fun p => match (s.part p).removeAt with | some t => drained s p || decide (t + 20000 ≤ s.time) | none => false

/-- Removals whose units can return: no fill is out, and no KX_RETIRE waits at a port that returns, or 1 ms, the bound of step 7, has
passed (R410). -/
def releaseDue (s : State) : List Nat :=
  (List.range 32).filter fun p =>
    match (s.part p).releaseAt with
    | some t => !fillsOut s p && (!retireOut s p || decide (t + 100000 ≤ s.time))
    | none => false

/-- 10 ns pass. Scribe time runs from VSTBY, the timebase while the root PLL runs (R521). -/
def tick (s : State) : State :=
  if !s.power.vstby then s
  else
    let s := { s with time := (s.time + 1) % 2 ^ 64 }
    let s := if s.time % holdSpan = 0 then { s with scribe := { s.scribe with pHeld := s.scribe.pIn, tHeld := s.scribe.tHot } } else s
    let s := if s.power.refclkOk then { s with timebase := (s.timebase + 1) % 2 ^ 64 } else s
    let s := if s.power.refclkOk ∧ s.timebase % snapSpan = 0 then takeSnapshot s else s
    let s := (sealDue s).foldl flushSealing s
    let s := (releaseDue s).foldl release s
    (drainDue s).foldl endRemoval s

end Sys2Proof.Machine
end

