-- ==== Sys2Proof/Machine/Dispatch.lean ====
section
/-! DEFINITION. The dispatch of commands to their meanings: one arm per constructor of `Instr`. -/

namespace Sys2Proof.Machine

def exec (i : Instr) (s : State) : Host.Outcome State Fault Refusal :=
  match i with
  | .portEnable by_ p v => Sys2Proof.Machine.execPortEnable by_ p v s
  | .signalDetect p => Sys2Proof.Machine.execSignalDetect p s
  | .trainComplete p => Sys2Proof.Machine.execTrainComplete p s
  | .trainTimeout p => Sys2Proof.Machine.execTrainTimeout p s
  | .blockLock p => Sys2Proof.Machine.execBlockLock p s
  | .alignTimeout p => Sys2Proof.Machine.execAlignTimeout p s
  | .capxSendTick p => Sys2Proof.Machine.execCapxSendTick p s
  | .capx p k c => Sys2Proof.Machine.execCapx p k c s
  | .exchangeTimeout p => Sys2Proof.Machine.execExchangeTimeout p s
  | .uncorrectableLimit p => Sys2Proof.Machine.execUncorrectableLimit p s
  | .rtrn p k => Sys2Proof.Machine.execRtrn p k s
  | .retrain by_ p v => Sys2Proof.Machine.execRetrain by_ p v s
  | .retrainTimeout p => Sys2Proof.Machine.execRetrainTimeout p s
  | .down p k => Sys2Proof.Machine.execDown p k s
  | .lossOfSignal p => Sys2Proof.Machine.execLossOfSignal p s
  | .blockLockLoss p => Sys2Proof.Machine.execBlockLockLoss p s
  | .packetReceive p r => Sys2Proof.Machine.execPacketReceive p r s
  | .lstat p k => Sys2Proof.Machine.execLstat p k s
  | .nak p k nakseq => Sys2Proof.Machine.execNak p k nakseq s
  | .hbeat p k count => Sys2Proof.Machine.execHbeat p k count s
  | .hbeatSend p => Sys2Proof.Machine.execHbeatSend p s
  | .ackSend p => Sys2Proof.Machine.execAckSend p s
  | .linkReplayTimeout p => Sys2Proof.Machine.execLinkReplayTimeout p s
  | .msgAssemblyTimeout k => Sys2Proof.Machine.execMsgAssemblyTimeout k s
  | .hostDatagram h d => Sys2Proof.Machine.execHostDatagram h d s
  | .hostLinkChange h up rate => Sys2Proof.Machine.execHostLinkChange h up rate s
  | .hostEnable by_ h v => Sys2Proof.Machine.execHostEnable by_ h v s
  | .forwardingDecision ingress => Sys2Proof.Machine.execForwardingDecision ingress s
  | .spineTransfer src dst => Sys2Proof.Machine.execSpineTransfer src dst s
  | .entryWrite by_ slot recs => Sys2Proof.Machine.execEntryWrite by_ slot recs s
  | .ilistWrite by_ slot recs => Sys2Proof.Machine.execIlistWrite by_ slot recs s
  | .commit by_ slot v => Sys2Proof.Machine.execCommit by_ slot v s
  | .retire by_ slot v => Sys2Proof.Machine.execRetire by_ slot v s
  | .clear by_ slot v => Sys2Proof.Machine.execClear by_ slot v s
  | .drainTimerExpire slot => Sys2Proof.Machine.execDrainTimerExpire slot s
  | .slotDrained slot => Sys2Proof.Machine.execSlotDrained slot s
  | .origEp by_ v => Sys2Proof.Machine.execOrigEp by_ v s
  | .epochNotify by_ rgen => Sys2Proof.Machine.execEpochNotify by_ rgen s
  | .epochNoticeTimeout p => Sys2Proof.Machine.execEpochNoticeTimeout p s
  | .ligWrite by_ recs => Sys2Proof.Machine.execLigWrite by_ recs s
  | .ligRecordTimeout k => Sys2Proof.Machine.execLigRecordTimeout k s
  | .outputSelect o => Sys2Proof.Machine.execOutputSelect o s
  | .dwrrStarveTimeout o c => Sys2Proof.Machine.execDwrrStarveTimeout o c s
  | .refillBoundary => Sys2Proof.Machine.execRefillBoundary s
  | .strictMask by_ o v => Sys2Proof.Machine.execStrictMask by_ o v s
  | .dropProfileWrite by_ o c f v => Sys2Proof.Machine.execDropProfileWrite by_ o c f v s
  | .meterWrite by_ recs => Sys2Proof.Machine.execMeterWrite by_ recs s
  | .load m => Sys2Proof.Machine.execLoad m s
  | .store m => Sys2Proof.Machine.execStore m s
  | .atomic m => Sys2Proof.Machine.execAtomic m s
  | .bulkLoad m => Sys2Proof.Machine.execBulkLoad m s
  | .bulkStore m => Sys2Proof.Machine.execBulkStore m s
  | .tgtDeadTimeout k => Sys2Proof.Machine.execTgtDeadTimeout k s
  | .completion ingress p => Sys2Proof.Machine.execCompletion ingress p s
  | .rdShared m => Sys2Proof.Machine.execRdShared m s
  | .rdOwn m => Sys2Proof.Machine.execRdOwn m s
  | .upgrade m => Sys2Proof.Machine.execUpgrade m s
  | .writeback m => Sys2Proof.Machine.execWriteback m s
  | .evict m => Sys2Proof.Machine.execEvict m s
  | .homeAtomic m => Sys2Proof.Machine.execHomeAtomic m s
  | .cohStore m => Sys2Proof.Machine.execCohStore m s
  | .snoopResp p => Sys2Proof.Machine.execSnoopResp p s
  | .dataFwd p => Sys2Proof.Machine.execDataFwd p s
  | .snoopWaitTimeout d agent => Sys2Proof.Machine.execSnoopWaitTimeout d agent s
  | .domainActivate by_ d => Sys2Proof.Machine.execDomainActivate by_ d s
  | .teardown by_ d => Sys2Proof.Machine.execTeardown by_ d s
  | .domainReset by_ d => Sys2Proof.Machine.execDomainReset by_ d s
  | .dirSlices by_ v => Sys2Proof.Machine.execDirSlices by_ v s
  | .folioWrite by_ recs => Sys2Proof.Machine.execFolioWrite by_ recs s
  | .folioRevoke by_ k => Sys2Proof.Machine.execFolioRevoke by_ k s
  | .folioDrained k => Sys2Proof.Machine.execFolioDrained k s
  | .revokeBoundExpire k => Sys2Proof.Machine.execRevokeBoundExpire k s
  | .folioScrubDone k status => Sys2Proof.Machine.execFolioScrubDone k status s
  | .folioClear by_ k => Sys2Proof.Machine.execFolioClear by_ k s
  | .regionWrite by_ recs => Sys2Proof.Machine.execRegionWrite by_ recs s
  | .publish m => Sys2Proof.Machine.execPublish m s
  | .publishRelease region => Sys2Proof.Machine.execPublishRelease region s
  | .tagReserve by_ p v => Sys2Proof.Machine.execTagReserve by_ p v s
  | .open_ m => Sys2Proof.Machine.execOpen m s
  | .mirrorOpen m => Sys2Proof.Machine.execMirrorOpen m s
  | .join m => Sys2Proof.Machine.execJoin m s
  | .close m => Sys2Proof.Machine.execClose m s
  | .abort m => Sys2Proof.Machine.execAbort m s
  | .contrib m => Sys2Proof.Machine.execContrib m s
  | .creditRefresh => Sys2Proof.Machine.execCreditRefresh s
  | .credit m => Sys2Proof.Machine.execCredit m s
  | .ctxAbort by_ ctx => Sys2Proof.Machine.execCtxAbort by_ ctx s
  | .chunkSlots by_ v => Sys2Proof.Machine.execChunkSlots by_ v s
  | .tableWrite by_ recs => Sys2Proof.Machine.execTableWrite by_ recs s
  | .tableStage by_ recs => Sys2Proof.Machine.execTableStage by_ recs s
  | .tableSwitch by_ t => Sys2Proof.Machine.execTableSwitch by_ t s
  | .tableDelete by_ t => Sys2Proof.Machine.execTableDelete by_ t s
  | .tableSync by_ t => Sys2Proof.Machine.execTableSync by_ t s
  | .bag m => Sys2Proof.Machine.execBag m s
  | .scatterAdd m => Sys2Proof.Machine.execScatterAdd m s
  | .filter m => Sys2Proof.Machine.execFilter m s
  | .winTimeout q k => Sys2Proof.Machine.execWinTimeout q k s
  | .passStart q => Sys2Proof.Machine.execPassStart q s
  | .gatherRequestDone q => Sys2Proof.Machine.execGatherRequestDone q s
  | .popHalving => Sys2Proof.Machine.execPopHalving s
  | .wdigestStage by_ recs => Sys2Proof.Machine.execWdigestStage by_ recs s
  | .objWrite by_ recs => Sys2Proof.Machine.execObjWrite by_ recs s
  | .objMove m => Sys2Proof.Machine.execObjMove m s
  | .moveStart engine => Sys2Proof.Machine.execMoveStart engine s
  | .pieceLanded engine status => Sys2Proof.Machine.execPieceLanded engine status s
  | .objDelete by_ o => Sys2Proof.Machine.execObjDelete by_ o s
  | .pfSchedWrite by_ recs => Sys2Proof.Machine.execPfSchedWrite by_ recs s
  | .pfEntryWrite by_ recs => Sys2Proof.Machine.execPfEntryWrite by_ recs s
  | .pfActivate by_ n => Sys2Proof.Machine.execPfActivate by_ n s
  | .pfStop by_ n => Sys2Proof.Machine.execPfStop by_ n s
  | .trigger m => Sys2Proof.Machine.execTrigger m s
  | .fill m => Sys2Proof.Machine.execFill m s
  | .copy m => Sys2Proof.Machine.execCopy m s
  | .compare m => Sys2Proof.Machine.execCompare m s
  | .memReduce m => Sys2Proof.Machine.execMemReduce m s
  | .build m => Sys2Proof.Machine.execBuild m s
  | .encode m => Sys2Proof.Machine.execEncode m s
  | .basisLoad m => Sys2Proof.Machine.execBasisLoad m s
  | .basisRetire m => Sys2Proof.Machine.execBasisRetire m s
  | .basisWritten slot entry => Sys2Proof.Machine.execBasisWritten slot entry s
  | .encodeDone k => Sys2Proof.Machine.execEncodeDone k s
  | .genWaitTimeout k => Sys2Proof.Machine.execGenWaitTimeout k s
  | .expand m => Sys2Proof.Machine.execExpand m s
  | .expandBlockDone stack => Sys2Proof.Machine.execExpandBlockDone stack s
  | .slotWrite by_ recs => Sys2Proof.Machine.execSlotWrite by_ recs s
  | .basisSlice by_ v => Sys2Proof.Machine.execBasisSlice by_ v s
  | .genRetire by_ v => Sys2Proof.Machine.execGenRetire by_ v s
  | .cgInput by_ key cw bad => Sys2Proof.Machine.execCgInput by_ key cw bad s
  | .batchSign by_ p v => Sys2Proof.Machine.execBatchSign by_ p v s
  | .batchSigned p => Sys2Proof.Machine.execBatchSigned p s
  | .create by_ p => Sys2Proof.Machine.execCreate by_ p s
  | .seal by_ p => Sys2Proof.Machine.execSeal by_ p s
  | .sealTimeout p => Sys2Proof.Machine.execSealTimeout p s
  | .remove by_ p => Sys2Proof.Machine.execRemove by_ p s
  | .atReq m => Sys2Proof.Machine.execAtReq m s
  | .atFinish m => Sys2Proof.Machine.execAtFinish m s
  | .attReq by_ nonce => Sys2Proof.Machine.execAttReq by_ nonce s
  | .attFinish by_ payload => Sys2Proof.Machine.execAttFinish by_ payload s
  | .ports by_ p v => Sys2Proof.Machine.execPorts by_ p v s
  | .hosts by_ p v => Sys2Proof.Machine.execHosts by_ p v s
  | .quills by_ p v => Sys2Proof.Machine.execQuills by_ p v s
  | .sliceMap by_ p v => Sys2Proof.Machine.execSliceMap by_ p v s
  | .hfid by_ p h v => Sys2Proof.Machine.execHfid by_ p h v s
  | .kxInit port m => Sys2Proof.Machine.execKxInit port m s
  | .kxResp port m => Sys2Proof.Machine.execKxResp port m s
  | .kxActive port m => Sys2Proof.Machine.execKxActive port m s
  | .kxRetire port m => Sys2Proof.Machine.execKxRetire port m s
  | .keyEstablish by_ p v => Sys2Proof.Machine.execKeyEstablish by_ p v s
  | .keyRetire by_ p v => Sys2Proof.Machine.execKeyRetire by_ p v s
  | .receiveKeyErase port p slot => Sys2Proof.Machine.execReceiveKeyErase port p slot s
  | .keyxTimeout port p slot => Sys2Proof.Machine.execKeyxTimeout port p slot s
  | .hostRekey by_ p v => Sys2Proof.Machine.execHostRekey by_ p v s
  | .peerAllow by_ p digests => Sys2Proof.Machine.execPeerAllow by_ p digests s
  | .prtCred by_ p cred => Sys2Proof.Machine.execPrtCred by_ p cred s
  | .replayTimeExpire k => Sys2Proof.Machine.execReplayTimeExpire k s
  | .orphanTimeExpire k => Sys2Proof.Machine.execOrphanTimeExpire k s
  | .opRecordExpire src part opid => Sys2Proof.Machine.execOpRecordExpire src part opid s
  | .unitError u lost => Sys2Proof.Machine.execUnitError u lost s
  | .selftestDone u pass repairable => Sys2Proof.Machine.execSelftestDone u pass repairable s
  | .selftestRun by_ u => Sys2Proof.Machine.execSelftestRun by_ u s
  | .mirrorOpenTimeout ctx => Sys2Proof.Machine.execMirrorOpenTimeout ctx s
  | .mirrorPromote by_ ctx => Sys2Proof.Machine.execMirrorPromote by_ ctx s
  | .mirrorRetarget by_ ctx partner => Sys2Proof.Machine.execMirrorRetarget by_ ctx partner s
  | .peerSilenceTimeout f => Sys2Proof.Machine.execPeerSilenceTimeout f s
  | .heartbeatTick => Sys2Proof.Machine.execHeartbeatTick s
  | .heartbeat p => Sys2Proof.Machine.execHeartbeat p s
  | .hbWatchExpire w => Sys2Proof.Machine.execHbWatchExpire w s
  | .hbWatch by_ recs => Sys2Proof.Machine.execHbWatch by_ recs s
  | .fence m => Sys2Proof.Machine.execFence m s
  | .fenceWrite by_ recs => Sys2Proof.Machine.execFenceWrite by_ recs s
  | .memberStage by_ bytes => Sys2Proof.Machine.execMemberStage by_ bytes s
  | .memberNow by_ v => Sys2Proof.Machine.execMemberNow by_ v s
  | .memberNotify by_ v => Sys2Proof.Machine.execMemberNotify by_ v s
  | .stragClear by_ mon v => Sys2Proof.Machine.execStragClear by_ mon v s
  | .sessOpen a m => Sys2Proof.Machine.execSessOpen a m s
  | .sessAuth a m => Sys2Proof.Machine.execSessAuth a m s
  | .sessClose a m => Sys2Proof.Machine.execSessClose a m s
  | .read a m => Sys2Proof.Machine.execRead a m s
  | .write a m => Sys2Proof.Machine.execWrite a m s
  | .segment a m => Sys2Proof.Machine.execSegment a m s
  | .segAck a m => Sys2Proof.Machine.execSegAck a m s
  | .dictAbort a m => Sys2Proof.Machine.execDictAbort a m s
  | .keepalive a m => Sys2Proof.Machine.execKeepalive a m s
  | .sessAuthTimeout sid => Sys2Proof.Machine.execSessAuthTimeout sid s
  | .sessionIdleTimeout sid => Sys2Proof.Machine.execSessionIdleTimeout sid s
  | .authRefusalEnd a => Sys2Proof.Machine.execAuthRefusalEnd a s
  | .segAckTimer sid => Sys2Proof.Machine.execSegAckTimer sid s
  | .segmentResendTimer sid => Sys2Proof.Machine.execSegmentResendTimer sid s
  | .transferTimeout sid => Sys2Proof.Machine.execTransferTimeout sid s
  | .sessionKill by_ sid => Sys2Proof.Machine.execSessionKill by_ sid s
  | .evtAck by_ n => Sys2Proof.Machine.execEvtAck by_ n s
  | .evtNotifyRepeat sid => Sys2Proof.Machine.execEvtNotifyRepeat sid s
  | .oprCred by_ cred => Sys2Proof.Machine.execOprCred by_ cred s
  | .oprCredClear by_ v => Sys2Proof.Machine.execOprCredClear by_ v s
  | .hrbPulseEnd h => Sys2Proof.Machine.execHrbPulseEnd h s
  | .hrbPulseSpacingExpire h => Sys2Proof.Machine.execHrbPulseSpacingExpire h s
  | .hostFrame h f => Sys2Proof.Machine.execHostFrame h f s
  | .ringFrame portB f => Sys2Proof.Machine.execRingFrame portB f s
  | .objectWrite by_ index sub value => Sys2Proof.Machine.execObjectWrite by_ index sub value s
  | .vstbyApply => Sys2Proof.Machine.execVstbyApply s
  | .vstbyLoss => Sys2Proof.Machine.execVstbyLoss s
  | .watchdogExpire core => Sys2Proof.Machine.execWatchdogExpire core s
  | .sensorSample r => Sys2Proof.Machine.execSensorSample r s
  | .hwThermalTrip diode => Sys2Proof.Machine.execHwThermalTrip diode s
  | .loopUpdate => Sys2Proof.Machine.execLoopUpdate s
  | .throttleReleaseTimer power => Sys2Proof.Machine.execThrottleReleaseTimer power s
  | .powerLimitCount => Sys2Proof.Machine.execPowerLimitCount s
  | .coolantInletTimer => Sys2Proof.Machine.execCoolantInletTimer s
  | .pumpTachTimer low => Sys2Proof.Machine.execPumpTachTimer low s
  | .loopSaturationTimer => Sys2Proof.Machine.execLoopSaturationTimer s
  | .vinLost => Sys2Proof.Machine.execVinLost s
  | .ringLinkChange portB up => Sys2Proof.Machine.execRingLinkChange portB up s
  | .plogPersist logno => Sys2Proof.Machine.execPlogPersist logno s
  | .fwStage by_ image => Sys2Proof.Machine.execFwStage by_ image s
  | .fwVerify by_ => Sys2Proof.Machine.execFwVerify by_ s
  | .fwVerifyDone => Sys2Proof.Machine.execFwVerifyDone s
  | .fwInstall by_ => Sys2Proof.Machine.execFwInstall by_ s
  | .fwInstallDone match_ => Sys2Proof.Machine.execFwInstallDone match_ s
  | .fwActivate by_ => Sys2Proof.Machine.execFwActivate by_ s
  | .fwDiscard by_ => Sys2Proof.Machine.execFwDiscard by_ s
  | .plogClear by_ v => Sys2Proof.Machine.execPlogClear by_ v s
  | .powerStageStart durationMs failedChannels => Sys2Proof.Machine.execPowerStageStart durationMs failedChannels s
  | .railFault rail => Sys2Proof.Machine.execRailFault rail s
  | .pwrEnLow => Sys2Proof.Machine.execPwrEnLow s
  | .vinUndervoltage => Sys2Proof.Machine.execVinUndervoltage s
  | .refclkLost standby => Sys2Proof.Machine.execRefclkLost standby s
  | .refclkRestored durationMs failedChannels => Sys2Proof.Machine.execRefclkRestored durationMs failedChannels s
  | .resetNAssert => Sys2Proof.Machine.execResetNAssert s
  | .resetNRelease durationMs failedChannels => Sys2Proof.Machine.execResetNRelease durationMs failedChannels s
  | .portReset by_ o => Sys2Proof.Machine.execPortReset by_ o s
  | .tileReset by_ t => Sys2Proof.Machine.execTileReset by_ t s
  | .dataPathReset by_ durationMs failedChannels => Sys2Proof.Machine.execDataPathReset by_ durationMs failedChannels s
  | .tileResetWindowEnd t => Sys2Proof.Machine.execTileResetWindowEnd t s
  | .throttleNChange active => Sys2Proof.Machine.execThrottleNChange active s
  | .faultInNChange active => Sys2Proof.Machine.execFaultInNChange active s
  | .stuckTimer k => Sys2Proof.Machine.execStuckTimer k s
  | .inputChatter k => Sys2Proof.Machine.execInputChatter k s
  | .inputQuiet k raw => Sys2Proof.Machine.execInputQuiet k raw s
  | .tachGate fan edges => Sys2Proof.Machine.execTachGate fan edges s
  | .vioLoss => Sys2Proof.Machine.execVioLoss s
  | .vioApply levels => Sys2Proof.Machine.execVioApply levels s
  | .pwrEnHigh => Sys2Proof.Machine.execPwrEnHigh s
  | .resetZeroingDone => Sys2Proof.Machine.execResetZeroingDone s
  | .macsecOldSaErase h => Sys2Proof.Machine.execMacsecOldSaErase h s
  | .msgDiscardEnd k => Sys2Proof.Machine.execMsgDiscardEnd k s
  | .windowKeyServedEnd q k => Sys2Proof.Machine.execWindowKeyServedEnd q k s

end Sys2Proof.Machine
end

