-- ==== Sys2Proof/WellFormed.lean ====
section
/-! DEFINITION. Commands that can occur: a packet's payload and tag have the lengths its header gives (R67), a message is whole
(R73 to R76), and a message stands in the row of its opcode (R71) or dictionary type (R486). The meanings do not rest on it. -/

namespace Sys2Proof

open Machine

/-- The payload fills 16 × PLEN bytes (R67). -/
def Packet.wf (p : Packet) : Bool := p.payload.length == 16 * p.hdr.plen.toNat

/-- The payload fills 16 × PLEN bytes, and a tag stands where KS is not 0 (R67). -/
def WirePacket.wf (w : WirePacket) : Bool :=
  w.payload.length == 16 * w.hdr.plen.toNat && w.tag.length == (if w.hdr.ks = 0 then 0 else 16)

/-- A packet as its header gives it, and a block of 514 bytes; an uncorrectable codeword spoils what it carried (R43, R53). -/
def Rx.wf : Rx → Bool
  | .packet _ f w => w.wf && (!w.codewordsOk || f.uncorr == 0)
  | .badFrame => true
  | .block f b => b.bytes.length == 514 && (b.bad != 0 || f.uncorr == 0)

/-- A message of an opcode, its payload whole 16-byte units of at most 4,096 packets, and of one packet where the opcode is
not marked M (R71, R73, R75). -/
def Msg.wfAs (m : Msg) (op : BitVec 8) : Bool :=
  m.hdr.op == op && m.body.length % 16 == 0 && decide (m.body.length ≤ (if isMulti op then 4096 else 1) * 2048)

/-- A dictionary message in form: at most 1,024 bytes of payload, and a tag where PROT is set (R485). -/
def DMsg.wf (m : DMsg) : Bool := decide (m.payload.length ≤ 1024) && m.tag.length == (if m.prot then 16 else 0)

/-- A dictionary message of a type (R486). -/
def DMsg.wfAs (m : DMsg) (mtype : BitVec 4) : Bool := m.mtype == mtype && m.wf

def FrameBody.wf : FrameBody → Bool
  | .dictUdp _ _ m => m.wf
  | .encapUdp d => d.pkt.wf
  | _ => true

/-- An ingress code of R116: a fabric port, a host port, the memory path, the Scribe or a quill. -/
def ingressOk (c : BitVec 8) : Bool := decide (c.toNat < 130) || c == 190 || c == 160 || decide (192 ≤ c.toNat)

/-- A command that can occur. -/
def Instr.wf : Instr → Bool
  | .packetReceive _ r => r.wf
  | .hostDatagram _ d => d.pkt.wf
  | .hostLinkChange _ up r => decide (1 ≤ r.toNat) && decide (r.toNat ≤ 2) || !up
  | .forwardingDecision c => ingressOk c
  | .completion c p => ingressOk c && isCmplOp p.hdr.op && p.wf
  | .load m => m.wfAs Op.load
  | .store m => m.wfAs Op.store
  | .atomic m => m.wfAs Op.atomic
  | .bulkLoad m => m.wfAs Op.bulkLoad
  | .bulkStore m => m.wfAs Op.bulkStore
  | .rdShared m => m.wfAs Op.rdShared
  | .rdOwn m => m.wfAs Op.rdOwn
  | .upgrade m => m.wfAs Op.upgrade
  | .writeback m => m.wfAs Op.writeback
  | .evict m => m.wfAs Op.evict
  | .homeAtomic m => m.wfAs Op.homeAtomic
  | .cohStore m => m.wfAs Op.cohStore
  | .snoopResp p => p.hdr.op == Op.snoopResp && p.wf
  | .dataFwd p => p.hdr.op == Op.dataFwd && p.wf
  | .publish m => m.wfAs Op.publish
  | .open_ m | .mirrorOpen m | .join m | .close m | .abort m => m.wfAs Op.collCtl
  | .contrib m => m.wfAs Op.contrib
  | .credit m => m.wfAs Op.credit
  | .bag m => m.wfAs Op.bag
  | .scatterAdd m => m.wfAs Op.scatterAdd
  | .filter m => m.wfAs Op.filter
  | .objMove m => m.wfAs Op.objMove
  | .trigger m => m.wfAs Op.trigger
  | .fill m => m.wfAs Op.fill
  | .copy m => m.wfAs Op.copy
  | .compare m => m.wfAs Op.compare
  | .memReduce m => m.wfAs Op.memReduce
  | .build m | .encode m | .basisLoad m | .basisRetire m => m.wfAs Op.encode
  | .expand m => m.wfAs Op.expand
  | .atReq m | .atFinish m => m.wfAs Op.attest
  | .kxInit _ m | .kxResp _ m | .kxActive _ m | .kxRetire _ m => m.wfAs Op.keyx
  | .heartbeat p => p.hdr.op == Op.heartbeat && p.wf
  | .fence m => m.wfAs Op.fence
  | .sessOpen _ m => m.wfAs 0
  | .sessAuth _ m => m.wfAs 1
  | .sessClose _ m => m.wfAs 2
  | .read _ m => m.wfAs 3
  | .write _ m => m.wfAs 4
  | .segment _ m => m.wfAs 5
  | .segAck _ m => m.wfAs 6
  | .dictAbort _ m => m.wfAs 7
  | .keepalive _ m => m.wfAs 9
  | .hostFrame _ f => f.body.wf
  | .ringFrame _ f => f.msg.wf
  | _ => true

end Sys2Proof
end

