-- ==== Sys2Proof/Safety.lean ====
section
/-! DEFINITION. What counts as a safe run: a step that ends in a next state, from a state whose memory and queue are in form. -/

namespace Sys2Proof

/-- What a command can store to memory. -/
inductive Storing where
  /-- Nothing. -/
  | never
  /-- What the requests store that waited for a window line and may now go on: it ends transactions of a HELD domain (R200). -/
  | wakes
  /-- What its own meaning stores. -/
  | stores
  deriving DecidableEq, Repr

/-- Which commands store to memory. -/
def Instr.storing : Instr → Storing
  | .signalDetect .. | .trainComplete .. | .trainTimeout .. | .blockLock .. | .capxSendTick .. | .capx .. | .exchangeTimeout ..
  | .uncorrectableLimit .. | .rtrn .. | .retrain .. | .lstat .. | .nak .. | .hbeat .. | .hbeatSend .. | .ackSend ..
  | .linkReplayTimeout .. | .msgAssemblyTimeout .. | .hostDatagram .. | .hostLinkChange .. | .hostEnable .. | .spineTransfer ..
  | .entryWrite .. | .ilistWrite .. | .retire .. | .clear .. | .drainTimerExpire .. | .slotDrained .. | .epochNotify ..
  | .epochNoticeTimeout .. | .ligWrite .. | .ligRecordTimeout .. | .outputSelect .. | .dwrrStarveTimeout .. | .refillBoundary
  | .strictMask .. | .dropProfileWrite .. | .meterWrite .. | .tgtDeadTimeout .. | .domainReset .. | .dirSlices ..
  | .folioWrite .. | .folioRevoke .. | .folioDrained .. | .folioClear .. | .regionWrite .. | .publish .. | .publishRelease ..
  | .tagReserve .. | .open_ .. | .mirrorOpen .. | .join .. | .close .. | .abort .. | .contrib .. | .creditRefresh | .credit ..
  | .ctxAbort .. | .chunkSlots .. | .tableWrite .. | .tableStage .. | .tableSync .. | .winTimeout .. | .popHalving
  | .wdigestStage .. | .objDelete .. | .pfSchedWrite .. | .pfEntryWrite .. | .pfActivate .. | .pfStop .. | .genWaitTimeout ..
  | .expand .. | .slotWrite .. | .basisSlice .. | .genRetire .. | .batchSign .. | .batchSigned .. | .create .. | .seal ..
  | .sealTimeout .. | .attReq .. | .ports .. | .hosts .. | .hfid .. | .kxInit .. | .kxResp .. | .kxActive .. | .kxRetire ..
  | .keyEstablish .. | .keyRetire .. | .receiveKeyErase .. | .keyxTimeout .. | .hostRekey .. | .peerAllow .. | .prtCred ..
  | .replayTimeExpire .. | .orphanTimeExpire .. | .opRecordExpire .. | .mirrorOpenTimeout .. | .mirrorPromote ..
  | .mirrorRetarget .. | .heartbeatTick | .heartbeat .. | .hbWatch .. | .memberStage .. | .memberNow .. | .memberNotify ..
  | .stragClear .. | .sessAuthTimeout .. | .sessionIdleTimeout .. | .authRefusalEnd .. | .segAckTimer ..
  | .segmentResendTimer .. | .transferTimeout .. | .sessionKill .. | .evtAck .. | .evtNotifyRepeat .. | .oprCred ..
  | .oprCredClear .. | .hrbPulseEnd .. | .hrbPulseSpacingExpire .. | .watchdogExpire .. | .sensorSample .. | .hwThermalTrip ..
  | .loopUpdate | .throttleReleaseTimer .. | .powerLimitCount | .coolantInletTimer | .pumpTachTimer .. | .loopSaturationTimer
  | .vinLost | .ringLinkChange .. | .plogPersist .. | .fwStage .. | .fwVerify .. | .fwVerifyDone | .fwInstall ..
  | .fwInstallDone .. | .fwDiscard .. | .plogClear .. | .railFault .. | .pwrEnLow | .vinUndervoltage | .refclkLost ..
  | .resetNAssert | .tileResetWindowEnd .. | .throttleNChange .. | .faultInNChange .. | .stuckTimer .. | .inputChatter ..
  | .tachGate .. | .vioLoss | .vioApply .. | .pwrEnHigh | .macsecOldSaErase .. | .msgDiscardEnd .. | .windowKeyServedEnd .. => .never
  | .portEnable .. | .alignTimeout .. | .retrainTimeout .. | .down .. | .lossOfSignal .. | .blockLockLoss ..
  | .packetReceive .. | .commit .. | .origEp .. | .snoopWaitTimeout .. | .domainActivate .. | .selftestDone ..
  | .peerSilenceTimeout .. | .hbWatchExpire .. | .fence .. | .fenceWrite .. | .fwActivate .. | .powerStageStart ..
  | .refclkRestored .. | .resetNRelease .. | .portReset .. | .dataPathReset .. | .inputQuiet .. => .wakes
  | .forwardingDecision .. | .load .. | .store .. | .atomic .. | .bulkLoad .. | .bulkStore .. | .completion .. | .rdShared ..
  | .rdOwn .. | .upgrade .. | .writeback .. | .evict .. | .homeAtomic .. | .cohStore .. | .snoopResp .. | .dataFwd ..
  | .teardown .. | .revokeBoundExpire .. | .folioScrubDone .. | .tableSwitch .. | .tableDelete .. | .bag .. | .scatterAdd ..
  | .filter .. | .passStart .. | .gatherRequestDone .. | .objWrite .. | .objMove .. | .moveStart .. | .pieceLanded ..
  | .trigger .. | .fill .. | .copy .. | .compare .. | .memReduce .. | .build .. | .encode .. | .basisLoad .. | .basisRetire ..
  | .basisWritten .. | .encodeDone .. | .expandBlockDone .. | .cgInput .. | .remove .. | .atReq .. | .atFinish ..
  | .attFinish .. | .quills .. | .sliceMap .. | .unitError .. | .selftestRun .. | .sessOpen .. | .sessAuth .. | .sessClose ..
  | .read .. | .write .. | .segment .. | .segAck .. | .dictAbort .. | .keepalive .. | .hostFrame .. | .ringFrame ..
  | .objectWrite .. | .vstbyApply | .vstbyLoss | .tileReset .. | .resetZeroingDone => .stores

end Sys2Proof

namespace Sys2Proof.Machine

/-- The step answers a next state: the spec gives the device no stop. -/
def Runs (s : State) : Prop := ∃ t, step s = .next t

/-- Memory has its canonical form. -/
def State.memOk (s : State) : Prop := Memory.wf s.mem = true

/-- Every waiting command can occur. -/
def State.queueOk (s : State) : Prop := ∀ c ∈ s.pending, c.wf = true

/-- The command answers a next state, and `P` holds of it. -/
def Answers (c : Instr) (s : State) (P : State → Prop) : Prop := ∃ t, exec c s = .next t ∧ P t

/-- The caller's write is answered OK, with nothing more to tell (R481). -/
def WriteOk (by_ : Caller) (t : State) : Prop := t.out.getLast? = some (.answer by_ Ds.ok 0 [])

/-- A state without what raising an event may write: sessions, output, counters, limits, the log, the HRB pins. -/
def State.noEvents (s : State) : State :=
  { s with
    sessions := [], out := [], ctr := [], limits := [], hrbs := []
    scribe := { s.scribe with log := [], logNext := 0, toPersist := [], persistIv := 0, persistN := 0 } }

/-- A state without what raising an event or originating a packet may write. -/
def State.noTraffic (s : State) : State := { s.noEvents with inq := [], serial := 0 }

/-- A state without what those and recomputing XOFF may write. -/
def State.noWire (s : State) : State := { s.noTraffic with ports := [] }

/-- The command answers a next state that is `x` but for what raising events writes. -/
def LeadsTo (c : Instr) (s x : State) : Prop := Answers c s fun t => t.noEvents = x.noEvents

/-- The write is answered OK and leads to `x` but for what raising events writes. -/
def Performs (c : Instr) (by_ : Caller) (s x : State) : Prop := Answers c s fun t => WriteOk by_ t ∧ t.noEvents = x.noEvents

/-- The write is answered with this status and changes nothing but what raising events writes. -/
def Rejects (c : Instr) (by_ : Caller) (s : State) (d : BitVec 8) : Prop :=
  Answers c s fun t => t.out.getLast? = some (.answer by_ d 0 []) ∧ t.noEvents = s.noEvents

/-- Between the two states the log took a record of this event code, next after those of `s`. -/
def Logs (s t : State) (code : Nat) : Prop :=
  ∃ r ∈ t.scribe.log, r.ev.eseq = s.scribe.logNext ∧ r.ev.code = BitVec.ofNat 16 code

/-- The packets that wait at an ingress are those of before and then these. -/
def Sends (s t : State) (ing : Nat) (ps : List Packet) : Prop :=
  (t.inputQ ing).map (·.pkt) = (s.inputQ ing).map (·.pkt) ++ ps

/-- A port that differs from another at most in its XOFF bits and the acknowledgements owed. -/
def SameLink (v w : PortSt) : Prop := ∃ b x a, w = { v with xoffBuf := b, xoffTx := x, ackOwed := a }

/-- Agent `a` of domain `d` is fenced, or the routes in use at origination have no live port toward it (R202, cause 2). -/
def LostAgent (s : State) (d a : Nat) : Prop :=
  agentFid s d a ≠ 0 ∧ (fenced s (agentFid s d a).toNat = true ∨ routeDead (origEp s) s (domainPart s d) (agentFid s d a) = true)

/-- Every byte of memory reads as before. -/
def SameMemory (s t : State) : Prop := ∀ a, Memory.read t.mem a = Memory.read s.mem a

/-- Of all memory, the bytes from `x` hold `bs` and every other byte reads as before. -/
def Stored (s t : State) (x : Nat) (bs : List Byte) : Prop :=
  ∀ b, Memory.read t.mem b = if x ≤ b ∧ b < x + bs.length then bs.getD (b - x) 0 else Memory.read s.mem b

/-- A range of a partition in SPACE 0x00 or 0x01 that it may reach, held here at `x` in one run, outside every window of a coherence domain and without an
uncorrectable word. -/
def PlainRun (s : State) (p a len x : Nat) (write : Bool) : Prop :=
  spaceOf a < 2 ∧ firstDead s x len = none ∧
    ∃ g, resolveOwn s p a len write = .segs [g] ∧ g.loc = .phys x ∧ g.dom = none ∧ g.len = len

/-- No request, pass, move or packet is under way in the device. -/
def State.atRest (s : State) : Prop :=
  s.inq = [] ∧ s.spine = [] ∧ s.outs = [] ∧ s.delivered = [] ∧ s.tags = [] ∧ s.cohWait = [] ∧ s.txns = [] ∧ s.reissues = [] ∧ s.vloads = [] ∧
    s.waitPubs = [] ∧ s.transitWait = [] ∧ s.moves = [] ∧ s.moveQ = [] ∧ s.quills = [] ∧ s.basisJobs = [] ∧ s.encJobs = [] ∧
    s.expanders = [] ∧ s.expResps = [] ∧ s.ctxs = []

/-- The request of a message that was not performed before: no completed-operation record answers for it (R427, R571). -/
def FirstTime (s : State) (h : Hdr) : Prop := findOp s h = none ∧ inTileWindow s h = false

/-- A message reaches its open session and is accepted there (R488, R491): `c` is its clear form, and `w` the session once its SEQ is taken. -/
def Arrives (s : State) (a : TAddr) (m : DMsg) (v w : Session) (c : DMsg) : Prop :=
  s.scribe.st = .running ∧ m.mver = 1 ∧ m.sid ≠ 0 ∧ s.session m.sid = some v ∧ v.addr = a ∧ v.authed = true ∧ c.resp = false ∧
    c.payload.length ≤ 1024 ∧ v.txSeq + 1 ≠ 0xFFFFFFFF#32 ∧
    ((v.role ≠ .att ∧ m.prot = true ∧ seqFresh v m.seq = true ∧ DMsg.unprotect v.ckey v.csalt m = some c ∧ m.seq ≠ 0xFFFFFFFF#32 ∧
        w = seqTaken v m.seq) ∨
      (v.role = .att ∧ m.prot = false ∧ c = m ∧ w = v ∧ s.setSession v = s))

/-- The next message of a session as it leaves: protected under the next SEQ, but for an ATT session (R491). -/
def Session.sends (v : Session) (m : DMsg) : Out :=
  if v.role = .att then .dict v.addr { m with sid := v.sid }
  else .dict v.addr (DMsg.protect v.dkey v.dsalt { m with sid := v.sid, seq := v.txSeq + 1 })

/-- No session but this one is touched. -/
def OtherSessions (s t : State) (sid : BitVec 16) : Prop := ∀ x, x ≠ sid → t.session x = s.session x

/-- A packet in transit, not two-phase and not for this device: the decision of R97 forwards it to `o`. -/
def RoutedTo (s : State) (h : Hdr) (o : Nat) : Prop :=
  h.mcast = false ∧ h.val = false ∧ h.hop ≠ 0 ∧ h.dst ≠ devFid s ∧ (s.routeSlot h.ep).st = .serving ∧ fenced s h.dst.toNat = false ∧
    ∃ e, longestMatch (s.routeSlot h.ep) h.dst.toNat 3 = some e ∧ bit (rePmask e) h.part.toNat = true ∧
      h.hop.toNat < s.o (okey 0x3800 3) ∧ choosePort s h e = some o

end Sys2Proof.Machine
end

