-- ==== Sys2Proof/Certificates/Slice0/Obligations.lean ====
section
/-! DEFINITION. The statements about the model: what each family of commands does, over all states. -/

open Sys2Proof Sys2Proof.Machine

/-- R39, R40, R49, R52, R96: The states of link training, and what a failed training counts. The end of EXCHANGE. After three identical CAPX items a port
whose peer shares a version enters ACTIVE with LSEQ 0 and an empty replay buffer, and one whose peer shares none enters HALTED; while it waits it
sends CAPX items. A port in RETRAIN trains and aligns again: it returns to ACTIVE with its replay buffer, or, when ALIGN takes too long, goes to DETECT
at its first rate. -/
def Obligations.LinkTraining : Prop :=
  (∀ (s : State) (p : Port),
  ((s.port p).st = .detect → laneInTest s p = false →
    exec (.signalDetect p) s = .next (s.modPort p fun v => { v with st := .train })) ∧
  ((s.port p).st = .train → exec (.trainComplete p) s = .next (s.modPort p fun v => { v with st := .align })) ∧
  ((s.port p).st = .align →
    exec (.blockLock p) s = .next (s.modPort p fun v => { startFraming v with st := .exchange, capxRun := 0 })) ∧
  ((s.port p).st = .exchange → exec (.exchangeTimeout p) s = .next (s.modPort p fun v => { v with st := .detect })) ∧
  (∀ c, (c = .trainTimeout p ∧ (s.port p).st = .train) ∨ (c = .alignTimeout p ∧ (s.port p).st = .align) →
    Answers c s fun t =>
      (t.port p).st = .detect ∧ t.c (portObj p 1 7) = (s.c (portObj p 1 7) + 1) % 2 ^ 64 ∧
      (t.port p).fails = (if 1 ≤ (s.port p).fails then 0 else 1) ∧
      (t.port p).tryRate = (if 1 ≤ (s.port p).fails ∧ ratePermitted s p (3 - (s.port p).tryRate) then
        3 - (s.port p).tryRate else (s.port p).tryRate) ∧
      (∀ q, q ≠ p.val → t.port q = s.port q)) ∧
  ((s.port p).st = .retrain →
    exec (.trainComplete p) s = .next (s.modPort p fun v => { v with realign := true }) ∧
    ((s.port p).realign = true →
      Answers (.blockLock p) s (fun t => (t.port p).st = .active ∧ (t.port p).unacked = (s.port p).unacked ∧
        (t.port p).rate = (s.port p).tryRate ∧ ∀ q, q ≠ p.val → t.port q = s.port q) ∧
      Answers (.alignTimeout p) s (fun t => (t.port p).st = .detect ∧ (t.port p).unacked = [] ∧
        (t.port p).tryRate = firstRate s p ∧ (t.port p).fails = (if firstRate s p = (s.port p).tryRate then 1 else 0) ∧
        ∀ q, q ≠ p.val → SameLink (s.port q) (t.port q))))) ∧
  (∀ (s : State) (p : Port) (i : LinkItem) (c : Capx),
  ((s.port p).st = .exchange → i.lcrcOk = true → (s.port p).capxLast = some c → 2 ≤ (s.port p).capxRun →
    Answers (.capx p i c) s fun t =>
      (t.port p).st = (if c.pver &&& 2 ≠ 0 then .active else .halted) ∧
      (t.port p).peerFid = c.pfid ∧ (t.port p).peerPort = c.pport ∧ (t.port p).peerRole = c.prole ∧
      (c.pver &&& 2 ≠ 0 → (t.port p).txLseq = 0 ∧ (t.port p).rxLseq = 0 ∧ (t.port p).unacked = [] ∧
        (t.port p).rate = (s.port p).tryRate) ∧
      (∀ q, q ≠ p.val → t.port q = s.port q)) ∧
  ((s.port p).st = .exchange ∨ (s.port p).st = .halted →
    Answers (.capxSendTick p) s fun t => t.out = s.out ++ [.item p 0x04
      { lcrcOk := true, ackv := false, xoff := (s.port p).xoffTx, ackseq := (s.port p).rxLseq - 1 } (capxTspec s p)] ∧
      ∀ q, t.port q = s.port q))

/-- R39, R41, R46, R95, R160, R513, R566: What takes a port out of ACTIVE. A retraining cause leaves it in RETRAIN; a lost link, a DOWN item or 100 ms of
RETRAIN leave it in DETECT with its replay buffer empty. Of another port at most the XOFF bits change, and the acknowledgements owed. ENABLE of a
fabric port and of a host port, and the link of a host port. An enabled port leaves DISABLED for DETECT while the data path runs; a port or host
link whose ENABLE is cleared is down. -/
def Obligations.PortsAndHostLinks : Prop :=
  (∀ (s : State) (p : Port) (i : LinkItem) (by_ : Caller),
  (∀ c, c = .uncorrectableLimit p ∨ (c = .rtrn p i ∧ i.lcrcOk = true) ∨
      (c = .retrain by_ p 1 ∧ portOk s p = true ∧ oprOver s by_ (portOwner s p) = true) →
    (s.port p).st = .active → Answers c s fun t =>
      (t.port p).st = .retrain ∧ (t.port p).realign = false ∧ ∀ q, q ≠ p.val → t.port q = s.port q) ∧
  (∀ c, (c = .retrainTimeout p ∧ (s.port p).st = .retrain) ∨ (c = .down p i ∧ i.lcrcOk = true ∧ linkCarries s p = true) ∨
      ((c = .lossOfSignal p ∨ c = .blockLockLoss p) ∧ (s.port p).st = .active) →
    Answers c s fun t =>
      (t.port p).st = .detect ∧ (t.port p).unacked = [] ∧ (t.port p).resend = [] ∧ (t.port p).rate = 0 ∧
      (t.port p).tryRate = firstRate s p ∧ ∀ q, q ≠ p.val → SameLink (s.port q) (t.port q))) ∧
  (∀ (s : State) (p : Port) (h : HostPort) (by_ : Caller),
  (portOk s p = true → oprOver s by_ (portOwner s p) = true →
    ((s.port p).st = .disabled → s.power.state = 3 → Answers (.portEnable by_ p 1) s fun t =>
      WriteOk by_ t ∧ t.o (portObj p 0 1) = 1 ∧ (t.port p).st = .detect ∧ ∀ q, q ≠ p.val → t.port q = s.port q) ∧
    Answers (.portEnable by_ p 0) s fun t =>
      WriteOk by_ t ∧ t.o (portObj p 0 1) = 0 ∧ (t.port p).st = .disabled ∧ ∀ q, q ≠ p.val → SameLink (s.port q) (t.port q)) ∧
  (oprOver s by_ (hostOwner s h) = true →
    Answers (.hostEnable by_ h 1) s (fun t => WriteOk by_ t ∧ t.o (hostObj h 0 1) = 1 ∧ t.hostP h = s.hostP h) ∧
    Answers (.hostEnable by_ h 0) s (fun t => WriteOk by_ t ∧ t.o (hostObj h 0 1) = 0 ∧ (t.hostP h).up = false)) ∧
  (∀ r : BitVec 2, s.power.state = 3 → s.o (hostObj h 0 1) = 1 → r = 1 ∨ r = 2 → bit (s.o (hostObj h 0 2)) (r.toNat - 1) = true →
    exec (.hostLinkChange h true r) s = .next (s.setHostP h { up := true, rate := r.toNat })) ∧
  (∀ r : BitVec 2, Answers (.hostLinkChange h false r) s fun t => (t.hostP h).up = false))

/-- R46, R47, R48, R49, R51, R55, R56: link items in service, and the bytes of an item: what reads them finds the fields that were laid out, a right
LCRC, and of a CAPX item every capability. -/
def Obligations.LinkItemsInService : Prop := (∀ (s : State) (p : Port) (i : LinkItem) (n : BitVec 16) (k : BitVec 32),
  (i.lcrcOk = true → linkReads s p = true →
    Answers (.lstat p i) s (fun t => (t.port p).xoffRx = i.xoff ∧ (t.port p).st = (s.port p).st ∧ ∀ q, q ≠ p.val → t.port q = s.port q) ∧
    Answers (.hbeat p i k) s (fun t => (t.port p).xoffRx = i.xoff ∧ (t.port p).hbRx = some k ∧ ∀ q, q ≠ p.val → t.port q = s.port q)) ∧
  ((s.port p).st = .active → i.lcrcOk = true →
    (∀ r ∈ fromLseq ((applyItem s p i).port p).unacked n, i.xoff.getLsbD (vcOf r.pkt.hdr) = false) →
    Answers (.nak p i n) s fun t =>
      ∀ r ∈ fromLseq ((applyItem s p i).port p).unacked n, Out.packet p r.lseq r.pkt ∈ t.out) ∧
  ((s.port p).st = .active →
    (0 < (s.port p).ackOwed → Answers (.ackSend p) s fun t => (t.port p).ackOwed = 0 ∧ t.out = s.out ++ [.item p 0x01
      { lcrcOk := true, ackv := true, xoff := (s.port p).xoffTx, ackseq := (s.port p).rxLseq - 1 } 0]) ∧
    (Answers (.hbeatSend p) s fun t => (t.port p).hbCount = (s.port p).hbCount + 1 ∧ (t.port p).ackOwed = 0 ∧
      t.out = s.out ++ [.item p 0x03
        { lcrcOk := true, ackv := true, xoff := (s.port p).xoffTx, ackseq := (s.port p).rxLseq - 1 }
        (BitVec.ofNat 64 ((s.port p).hbCount.toNat * 2 ^ 32))]) ∧
    ((∀ r ∈ (s.port p).unacked, (s.port p).xoffRx.getLsbD (vcOf r.pkt.hdr) = false) →
      Answers (.linkReplayTimeout p) s fun t =>
        (t.port p).unacked = (s.port p).unacked ∧ (t.port p).resend = [] ∧
        t.out = s.out ++ (s.port p).unacked.map fun r => .packet p r.lseq r.pkt))) ∧
  (∀ (t : BitVec 8) (i : LinkItem) (ts : BitVec 64) (c : Capx), t.toNat < 64 →
    readItem (itemBytes t i ts) = (t, { i with lcrcOk := true }, ts) ∧ readCapx (BitVec.ofNat 64 (capxNum c)) = c)

/-- R45, R53, R54, R58, R59, R67, R68, R389: An intact packet with the expected LSEQ, in clear where that is allowed, is accepted and waits at its
ingress; any other LSEQ, and a CRC that is wrong, make the receiver refuse, and a packet that arrives stomped is taken and discarded. The bytes of a
packet give it back. A block whose HCHK fails is a framing error, and 64 good blocks in a row give the lock that ALIGN waits for. -/
def Obligations.PacketReception : Prop :=
  (∀ (s : State) (p : Port) (lseq : BitVec 16) (f : Fec) (w : WirePacket),
  (s.port p).st = .active → w.hdr.ver = 1 → w.hdr.plen.toNat ≤ 128 → w.payload.length = 16 * w.hdr.plen.toNat →
  (lseq = (s.port p).rxLseq → w.codewordsOk = true → w.crc = w.goodCrc → w.hdr.ks = 0 →
    w.hdr.wireLen ≤ freeSpace s (p / 8) (p % 8) (vcOf w.hdr) → (s.o (portObj p 0 4) = 1 → keyExempt w.hdr = true) →
    mustEncrypt s w.hdr = false →
    Answers (.packetReceive p (.packet lseq f w)) s fun t =>
      (t.port p).rxLseq = (s.port p).rxLseq + 1 ∧ (t.port p).refusing = false ∧
      ∃ x : Held, x.pkt = { hdr := clearRsv w.hdr, payload := w.payload } ∧ x.ingress.toNat = p.val ∧ x.len = w.hdr.wireLen ∧
        t.inputQ p = s.inputQ p ++ [x]) ∧
  (lseq ≠ (s.port p).rxLseq ∨ (w.crc ≠ w.goodCrc ∧ w.crc ≠ ~~~ w.goodCrc) →
    Answers (.packetReceive p (.packet lseq f w)) s fun t =>
      (t.port p).refusing = true ∧ (t.port p).rxLseq = (s.port p).rxLseq ∧ t.inq = s.inq) ∧
  (lseq = (s.port p).rxLseq → w.codewordsOk = true → w.crc = ~~~ w.goodCrc →
    Answers (.packetReceive p (.packet lseq f w)) s fun t =>
      (t.port p).rxLseq = (s.port p).rxLseq + 1 ∧ (t.port p).refusing = false ∧ t.inq = s.inq)) ∧
  (∀ w : WirePacket, w.payload.length = 16 * w.hdr.plen.toNat → w.tag.length = (if w.hdr.ks = 0 then 0 else 16) →
    WirePacket.ofFrame w.frame w.codewordsOk = w) ∧
  (∀ (s : State) (p : Port) (f : Fec) (b : LinkBlock),
  ((s.port p).st = .active → (readBlockHeader b.bytes).2.2 = false → Answers (.packetReceive p (.block f b)) s fun t =>
    (t.port p).refusing = true ∧ (t.port p).resync = true ∧ (t.port p).rxLseq = (s.port p).rxLseq ∧ t.inq = s.inq ∧
    t.c (portObj p 2 8) = (s.c (portObj p 2 8) + 1) % 2 ^ 64) ∧
  ((s.port p).st = .align → (readBlockHeader b.bytes).2.2 = true →
    (s.port p).rxBcnt = some ((readBlockHeader b.bytes).2.1 - 1) → 63 ≤ (s.port p).lockRun →
    Answers (.packetReceive p (.block f b)) s fun t =>
      (t.port p).st = .exchange ∧ (t.port p).resync = true ∧ ∀ q, q ≠ p.val → t.port q = s.port q))

/-- R77, R91, R93, R94, R407: a message whose assembly took too long is discarded without a completion; a datagram a host may send waits at the host
port's ingress with the address its completion returns to, one beyond the limit of 4,096 completes BUSY, and one the host may not send is counted and
discarded. -/
def Obligations.AssemblyAndHostBridge : Prop := ∀ (s : State) (k : ReqKey) (h : HostPort) (d : Datagram),
  (s.asm.any (fun a => a.key == k) = true → Answers (.msgAssemblyTimeout k) s fun t =>
    t.asm = s.asm.filter (fun a => a.key != k) ∧ t.inq = s.inq ∧ t.tags = s.tags) ∧
  ((s.hostP h).up = true → (s.mac h).on = false →
    (hostMaySend d = true → d.pkt.hdr.src = hostFid s h → hdrKey d.pkt.hdr ∉ s.badMsgs →
      (hostNew s h d.pkt.hdr = false ∨ hostOutstanding s h < 4096 →
        Answers (.hostDatagram h d) s fun t => ∃ x : Held, x.pkt = { d.pkt with hdr := clearRsv d.pkt.hdr } ∧
          x.ret = some { h := h, ip := d.ip, udp := d.udp } ∧ t.inputQ (128 + h.val) = s.inputQ (128 + h.val) ++ [x]) ∧
      (hostNew s h d.pkt.hdr = true → 4096 ≤ hostOutstanding s h → Answers (.hostDatagram h d) s fun t =>
        t.inputQ (128 + h.val) = s.inputQ (128 + h.val) ∧ t.tags = s.tags ∧
        Sends s t ingMemory [mkCmpl s d.pkt.hdr St.busy 0 0] ∧
        t.c (hostObj h 1 7) = (s.c (hostObj h 1 7) + 1) % 2 ^ 64)) ∧
    (hostMaySend d = false → Answers (.hostDatagram h d) s fun t => t.inq = s.inq ∧ t.tags = s.tags ∧ t.ports = s.ports)) ∧
  ((s.hostP h).up = true → (s.mac h).on = true → Answers (.hostDatagram h d) s fun t =>
    t.inq = s.inq ∧ t.tags = s.tags ∧ t.ports = s.ports)

/-- R120, R121, R122, R123: the states of a route version slot. A slot is loaded in EMPTY and LOADING, committed into SERVING, retired into DRAINING and
emptied once no packet of its version is held. COMMIT and ORIG_EP change nothing else while no coherence domain is ACTIVE; they may hold an ACTIVE one
that loses the route to an agent. -/
def Obligations.RouteSlotStates : Prop := ∀ (s : State) (by_ : Caller) (e : Bool),
  (isOpr s by_ = true →
    (∀ recs : List (BitVec 32 × BitVec 128), recs ≠ [] → (∀ r ∈ recs, r.1.toNat < 65536) → slotWritable (s.routeSlot e) = true →
      exec (.entryWrite by_ e recs) s = .next ((s.setRouteSlot e { s.routeSlot e with
        st := .loading, entries := recs.foldl (fun m r => Sparse.set reDefault m r.1.toNat (canonEntry r.2)) (s.routeSlot e).entries }).emit
          (.answer by_ Ds.ok 0 []))) ∧
    (∀ recs : List (BitVec 32 × BitVec 32), recs ≠ [] → (∀ r ∈ recs, r.1.toNat < 4096) → slotWritable (s.routeSlot e) = true →
      exec (.ilistWrite by_ e recs) s = .next ((s.setRouteSlot e { s.routeSlot e with
        st := .loading, ilist := recs.foldl (fun m r => Sparse.set 0 m r.1.toNat (canonIlist r.2)) (s.routeSlot e).ilist }).emit
          (.answer by_ Ds.ok 0 []))) ∧
    ((s.routeSlot e).st = .loading →
      (commitFailure s (s.routeSlot e) = none →
        Answers (.commit by_ e 1) s (fun t => WriteOk by_ t ∧ t.routeSlot e = { s.routeSlot e with st := .serving } ∧
          t.routeSlot (!e) = s.routeSlot (!e)) ∧
        ((∀ d, d < 32 → (s.domain d).st ≠ .active) →
          Performs (.commit by_ e 1) by_ s (s.setRouteSlot e { s.routeSlot e with st := .serving }))) ∧
      (commitFailure s (s.routeSlot e) ≠ none → Rejects (.commit by_ e 1) by_ s Ds.valueRejected) ∧
      Performs (.clear by_ e 1) by_ s (s.setRouteSlot e { s.routeSlot e with st := .empty, entries := [], ilist := [] })) ∧
    ((s.routeSlot e).st = .serving →
      (s.o (okey 0x3800 2) ≠ slotNo e →
        Performs (.retire by_ e 1) by_ s (s.setRouteSlot e { s.routeSlot e with st := .draining, expired := false })) ∧
      Answers (.origEp by_ (BitVec.ofNat 8 (slotNo e))) s (fun t => WriteOk by_ t ∧ t.o (okey 0x3800 2) = slotNo e ∧
        t.epPrev = origEp s ∧ t.epTime = s.time) ∧
      ((∀ d, d < 32 → (s.domain d).st ≠ .active) →
        Performs (.origEp by_ (BitVec.ofNat 8 (slotNo e))) by_ s
          ({ s with epPrev := origEp s, epTime := s.time }.setO (okey 0x3800 2) (slotNo e))))) ∧
  ((s.routeSlot e).st = .draining →
    ((s.routeSlot e).expired = false → inflight s e ≠ 0 →
      LeadsTo (.drainTimerExpire e) s (s.setRouteSlot e { s.routeSlot e with expired := true })) ∧
    (∀ c, (c = .drainTimerExpire e ∧ (s.routeSlot e).expired = false) ∨ (c = .slotDrained e ∧ (s.routeSlot e).expired = true) →
      inflight s e = 0 → LeadsTo c s
        (s.setRouteSlot e { s.routeSlot e with st := .empty, entries := [], ilist := [], expired := false })))

/-- R124, R125: EPOCH_NOTIFY sends one notice on each ACTIVE fabric port whose peer has role 0 or 2, with the version it names, and counts only its own;
the notices of an earlier write stay out. A notice that does not complete in 100 µs is forgotten and reported, and counted where it belongs to the
latest write. -/
def Obligations.EpochNotices : Prop := ∀ (s : State) (by_ : Caller) (rgen : BitVec 32) (p : Port) (x : Notice),
  (isOpr s by_ = true → Answers (.epochNotify by_ rgen) s fun t =>
    WriteOk by_ t ∧ t.ports = s.ports ∧ t.tags = s.tags ∧ t.c (okey 0x3800 0xA) = 0 ∧
    (∃ new : List Notice,
      t.notices = s.notices.map (fun (y : Notice) => if y.kind = 0 then { y with latest := false } else y) ++ new ∧
      new.map (·.port.val) = noticePorts s ∧ ∀ y ∈ new, y.kind = 0 ∧ y.latest = true ∧ y.fid = (s.port y.port).peerFid) ∧
    ∃ ps : List Packet, Sends s t ingScribe ps ∧ ps.map (·.hdr.dst) = (noticePorts s).map (fun q => (s.port q).peerFid) ∧
      ∀ pk ∈ ps, pk.hdr.op = Op.epoch ∧ pk.hdr.cls = 0 ∧
        pk.payload = leBytes 16 (s.o (okey 0x3800 2) * 2 ^ 8 + rgen.toNat * 2 ^ 32)) ∧
  ((s.notices.find? fun y => y.port == p && y.kind == 0) = some x → Answers (.epochNoticeTimeout p) s fun t =>
    t.notices = s.notices.filter (fun y => y != x) ∧ t.ports = s.ports ∧ t.inq = s.inq ∧ Logs s t 0x020B ∧
    t.c (okey 0x3800 0xA) = if x.latest then (s.c (okey 0x3800 0xA) + 1) % 2 ^ 64 else s.c (okey 0x3800 0xA)) ∧
  ((s.notices.find? fun y => y.port == p && y.kind == 0) = none → exec (.epochNoticeTimeout p) s = .next s)

/-- R97, R102, R105, R126, R130, R131, R139: A request in transit, to a FID with a route on another tile, waits for the spine; a packet moves over the spine
once its egress tile can hold it whole, and is queued there. Toward an egress tile the spine serves C0, C1 and C2 first, in that order, and then C3 to
C7 in turn after the class served last; within a class the source tiles take turns. Ligature entries are written record by record; the record of a
replicated request whose branches did not all report in time closes, and its sender has the CMPL with the totals. -/
def Obligations.SpineAndLigatures : Prop :=
  ((∀ (s : State) (ing : BitVec 8) (h : Held) (o : Nat),
    ing.toNat < 128 → h.tile.val = ing.toNat / 8 → s.inputQ ing.toNat = [h] → h.kind = .wire → isRequest h.pkt.hdr.op = true →
    h.pkt.hdr.op ≠ Op.keyx → ingressReject (takeInput s ing.toNat h) ing.toNat h = none →
    boundMeter s ing.toNat h.pkt.hdr.cls.toNat = none → RoutedTo s h.pkt.hdr o → tileOfOutput o h.tile ≠ h.tile →
    Answers (.forwardingDecision ing) s fun t =>
      t.inputQ ing.toNat = [] ∧ t.outs = s.outs ∧
      t.spine = s.spine ++ [{ src := h.tile, dst := tileOfOutput o h.tile, out := o, held := { h with colour := .green } }]) ∧
  (∀ (s : State) (src dst : Tile) (c : Nat) (x : SpineItem), spineNext s dst.val = some (c, x) →
    (x.src = src → x.out < 130 → outputUp s x.out = true → x.held.pkt.hdr.cls ≠ 7 →
      Answers (.spineTransfer src dst) s fun t =>
        t.spine = s.spine.erase x ∧ (∀ o, o ≠ x.out → t.outSt o = s.outSt o) ∧
        (t.outSt x.out).q = (s.outSt x.out).q ++
          [{ x.held with tile := x.dst, input := 8, vc := vcOf x.held.pkt.hdr, age := s.serial }] ∧
        t.spinePtr = spineTurn s.spinePtr src.val dst.val c) ∧
    (x.src ≠ src → exec (.spineTransfer src dst) s = .next s))) ∧
  (∀ (last c : Nat) (present : Nat → Bool), last ≤ 7 → 3 ≤ last →
  (c < 3 → present c = true → (∀ c', c' < c → present c' = false) → spineClass last present = some c) ∧
  ((∀ c', c' < 3 → present c' = false) → 3 ≤ c → c ≤ 7 → present c = true →
    (∀ c', 3 ≤ c' → c' ≤ 7 → (c' + 4 - last) % 5 < (c + 4 - last) % 5 → present c' = false) → spineClass last present = some c) ∧
  ((∀ c', c' < 8 → present c' = false) → spineClass last present = none)) ∧
  (∀ (last t : Nat) (ts : List Nat), t < 16 → t ∈ ts →
    (∀ t' ∈ ts, t' < 16 → (t + 15 - last % 16) % 16 ≤ (t' + 15 - last % 16) % 16) → nextInTurn last ts = some t) ∧
  (∀ (s : State) (by_ : Caller) (recs : List (BitVec 32 × BitVec 256)) (k : ReqKey) (r : LigRec),
  (isOpr s by_ = true → (∀ r ∈ recs, r.1.toNat < 4096) → exec (.ligWrite by_ recs) s = .next (({ s with
    ligs := recs.foldl (fun m (r : BitVec 32 × BitVec 256) => Sparse.set 0 m r.1.toNat (canonLig r.2)) s.ligs }).emit
      (.answer by_ Ds.ok 0 []))) ∧
  (findLig s k = some r → Answers (.ligRecordTimeout k) s fun t =>
    t.ligRecs = s.ligRecs.filter (fun x => !(x.key == k)) ++ closedLig r ∧ Logs s t 0x020A ∧
    (r.hop = 0 → Sends s t ingMemory [ligCmpl s (ligHdr r) r.deliv r.fencd])) ∧
  (findLig s k = none → exec (.ligRecordTimeout k) s = .next s))

/-- R57, R65, R141, R143: What an output that may start a packet does. A strict class that may send comes before every later strict class and every
other class; the packet chosen is the oldest of its class that may leave, and it alone leaves the queue; on a link it takes the next LSEQ and is kept
until it is acknowledged. Retransmissions go first, and wait while XOFF holds their VC. An output with nothing to send does nothing. -/
def Obligations.OutputService : Prop := ∀ (s : State) (o : Output) (c : Nat) (st : OutSt) (h : Held),
  (c < 8 → isStrict s o c = true → outEligible s o c = true →
    (∀ c', c' < c → isStrict s o c' = true → outEligible s o c' = false) → selectClass s o = (some c, s.outSt o)) ∧
  (selectClass s o = (some c, st) → queueHead s o c = some h → 128 ≤ o.val → (s.hostP (o.val - 128)).up = true →
    Answers (.outputSelect o) s fun t =>
      (t.outSt o).q = dequeue st.q h.age ∧ (∀ o', o' ≠ o.val → t.outSt o' = s.outSt o') ∧
      ∃ n, Out.hostPacket n h.ret (egressPacket h) ∈ t.out) ∧
  (selectClass s o = (some c, st) → queueHead s o c = some h → o.val < 128 → (s.port o).st = .active → (s.port o).resend = [] →
    replayAdmits (s.port o) (egressLen s o h) = true →
    Answers (.outputSelect o) s fun t =>
      (t.outSt o).q = dequeue st.q h.age ∧ (∀ o', o' ≠ o.val → t.outSt o' = s.outSt o') ∧
      (t.port o).txLseq = (s.port o).txLseq + 1 ∧
      ∃ w, (t.port o).unacked = (s.port o).unacked ++ [{ lseq := (s.port o).txLseq, pkt := w }]) ∧
  (∀ r rs, o.val < 128 → (s.port o).st = .active → (s.port o).resend = r :: rs →
    (vcClear s o (vcOf r.pkt.hdr) = true → Answers (.outputSelect o) s fun t =>
      (t.port o).resend = rs ∧ (t.port o).unacked = (s.port o).unacked ∧ t.outs = s.outs ∧
      t.c (portObj o 2 4) = (s.c (portObj o 2 4) + 1) % 2 ^ 64 ∧
      ∃ n : Port, n.val = o.val ∧ t.out = s.out ++ [.packet n r.lseq r.pkt]) ∧
    (vcClear s o (vcOf r.pkt.hdr) = false → exec (.outputSelect o) s = .next s)) ∧
  ((∀ c', outEligible s o c' = false) → (o.val < 128 → (s.port o).resend = []) → exec (.outputSelect o) s = .next s)

/-- R141, R142, R144: deficit round robin always finds a packet: while a class that is not strict may send, a class is chosen that is not strict and may
send, and its deficit covered the packet. A class that waits too long for its turn raises DWRR_STARVED, and nothing else changes. -/
def Obligations.DwrrAlwaysServes : Prop :=
  (∀ (s : State) (o : Nat),
  (s.outSt o).deficit.length = 8 → (s.outSt o).fresh.length = 8 →
  (∀ c, c < 8 → 512 ≤ quantum s o c ∧ headLen s o c ≤ 2100) → (∃ c ∈ dwrrRing s o, outEligible s o c = true) →
  ∃ c st, dwrr s o = (some c, st) ∧ c ∈ dwrrRing s o ∧ outEligible s o c = true ∧ st.q = (s.outSt o).q ∧ st.tokens = (s.outSt o).tokens) ∧
  (∀ (s : State) (o : Output) (c : BitVec 3),
  (isStrict s o c.toNat = false → outEligible s o c.toNat = true →
    LeadsTo (.dwrrStarveTimeout o c) s s ∧
    (Sparse.get 0 s.limits (0x020D * 2 ^ 40 + o.val) = 0 → Answers (.dwrrStarveTimeout o c) s fun t => Logs s t 0x020D)) ∧
  (isStrict s o c.toNat = true ∨ outEligible s o c.toNat = false → exec (.dwrrStarveTimeout o c) s = .next s))

/-- R146, R148, R152, R155, R157, R159, R161, R162: At a refill boundary the staged values of the outputs' objects apply, but for those written in the
boundary's own cycle, every bucket of an output takes its rate up to its ceiling, the queue average moves, and every meter applies its staged record
and refills; no queue changes. What a refill does to a bucket and to a meter: no bucket passes its ceiling, and a rate of 0 holds a bucket at its
ceiling. Writes of a strict mask, a drop profile and a meter. A mask has bit 0 set and at most three bits, and a profile has MIN below MAX; others
are refused. A meter record waits for the next boundary. -/
def Obligations.BucketsAndQueueConfiguration : Prop :=
  (∀ (s : State), (s.meters.map (·.1)).Nodup →
  ((∀ e ∈ s.outs, ∀ x ∈ e.2.wrote, x.2.2 ≠ s.timebase) → boundaryValues s = s.obj.filter fun e => isOutputKey e.1) ∧
  Answers .refillBoundary s fun t =>
    t.qos = boundaryValues s ∧
    (∀ o, o < 130 → (t.outSt o).q = (s.outSt o).q ∧
      (t.outSt o).tokens = (List.range 9).map (fun b =>
        refillBucket (bucketRate t o b) (bucketBurst t o b) ((s.outSt o).tokens.getD b 0)) ∧
      (t.outSt o).avg = redAverage (s.outSt o).avg (queueCells s o 7) (qosVal t (outObj o 1 1))) ∧
    (∀ m, t.meter m = refillMeter (s.meter m)) ∧
    t.holds = s.holds.filter (fun h => decide ((t.meter h.meter).tp < 2100))) ∧
  ((∀ (rate burst : Nat) (t : Int), refillBucket rate burst t ≤ (max burst (rate + 2100) : Nat) ∧
    (rate = 0 → refillBucket rate burst t = (max burst 2100 : Nat)) ∧
    (0 < rate → t + rate ≤ (max burst (rate + 2100) : Nat) → refillBucket rate burst t = t + rate)) ∧
  (∀ v : MeterSt,
    (refillMeter v).tp ≤ peakCeiling (refillMeter v).word ∧ (refillMeter v).tc ≤ commitCeiling (refillMeter v).word ∧
    (refillMeter v).staged = none ∧ (refillMeter v).word = v.staged.getD v.word)) ∧
  (∀ (s : State) (by_ : Caller) (o : Output) (v : BitVec 8) (c : Colour) (n : BitVec 32)
    (m : BitVec 32) (w : BitVec 192),
  (mayWriteOutput s by_ o = true →
    (v.toNat % 2 = 1 → ((List.range 8).filter (bit v.toNat)).length ≤ 3 →
      exec (.strictMask by_ o v) s = .next ((s.setO (outObj o 0 1) v.toNat).emit (.answer by_ Ds.ok 0 []))) ∧
    (v.toNat % 2 = 0 ∨ 3 < ((List.range 8).filter (bit v.toNat)).length → Rejects (.strictMask by_ o v) by_ s Ds.outOfRange) ∧
    (n.toNat < s.o (outObj o 1 (profileSub c .max)) →
      exec (.dropProfileWrite by_ o c .min n) s =
        .next ((s.setO (outObj o 1 (profileSub c .min)) n.toNat).emit (.answer by_ Ds.ok 0 []))) ∧
    (s.o (outObj o 1 (profileSub c .min)) < n.toNat →
      exec (.dropProfileWrite by_ o c .max n) s =
        .next ((s.setO (outObj o 1 (profileSub c .max)) n.toNat).emit (.answer by_ Ds.ok 0 []))) ∧
    (s.o (outObj o 1 (profileSub c .max)) ≤ n.toNat → Rejects (.dropProfileWrite by_ o c .min n) by_ s Ds.valueRejected)) ∧
  (∀ cur own, cur = meterOwner ((s.meter m.toNat).staged.getD (s.meter m.toNat).word) → own = meterOwner (canonMeter w) →
    oprOver s by_ cur = true → (own = cur ∨ (resourcesOpen s cur = true ∧ resourcesOpen s own = true)) →
    meterExists s m.toNat = true → meterCir (canonMeter w) ≤ meterPir (canonMeter w) → meterPir (canonMeter w) ≤ 100000 →
    partConfigured s own = true →
    exec (.meterWrite by_ [(m, w)]) s =
      .next ((s.setMeter m.toNat { s.meter m.toNat with staged := some (canonMeter w) }).emit (.answer by_ Ds.ok 0 []))))

/-- R170, R171, R172: A LOAD or BULK_LOAD of a range held here returns its bytes, in CMPL_DATA packets that wait at the memory path's ingress; memory does
not change. A STORE or BULK_STORE to a range held here stores its payload, changes no other byte of memory, and completes OK; the copy of a ligature
message is completed by its record instead. -/
def Obligations.LoadsAndStores : Prop :=
  (∀ (s : State) (m : Msg) (x : Nat),
  m.hdr.op = Op.load ∨ m.hdr.op = Op.bulkLoad → m.hdr.addr.toNat % 16 = 0 → loadVrec m.hdr = false → mustWait s m = false →
  PlainRun s m.hdr.part.toNat m.hdr.addr.toNat (loadLen m.hdr) x false →
  ∀ c, c = .load m ∨ c = .bulkLoad m → Answers c s fun t =>
    t.mem = s.mem ∧ Sends s t ingMemory (mkCmplData s m.hdr 0 0 (Memory.readN s.mem x (loadLen m.hdr)))) ∧
  (∀ (s : State) (m : Msg) (x : Nat),
  m.hdr.op = Op.store ∨ m.hdr.op = Op.bulkStore → m.hdr.addr.toNat % 16 = 0 → FirstTime s m.hdr → mustWait s m = false →
  PlainRun s m.hdr.part.toNat m.hdr.addr.toNat m.body.length x true →
  ∀ c, c = .store m ∨ c = .bulkStore m → Answers c s fun t =>
    Stored s t x m.body ∧ Sends s t ingMemory (if m.hdr.mcast then [] else [mkCmpl s m.hdr St.ok 0 0]))

/-- R174, R175, R176, R329, R330: An ATOMIC on a word held here writes the result of its operation on the old value, changes no other byte of memory, and
returns the old value. A FILL repeats its 16-byte pattern over its range and a COPY stores the bytes its source held before; no other byte of memory
changes, and both complete OK. -/
def Obligations.AtomicsFillAndCopy : Prop :=
  (∀ (s : State) (m : Msg) (x : Nat) (v : Nat) (nan : Bool),
  m.hdr.op = Op.atomic → atomicDefined m.hdr = true → m.body.length = 16 → m.hdr.addr.toNat % atomicWidth m.hdr = 0 → FirstTime s m.hdr →
  mustWait s m = false → m.hdr.mcast = false →
  PlainRun s m.hdr.part.toNat m.hdr.addr.toNat (atomicWidth m.hdr) x true →
  atomicResult (aopOf m.hdr) (atypeOf m.hdr) (leNat (Memory.readN s.mem x (atomicWidth m.hdr))) (atomicOpa m.body) (atomicOpb m.body) =
    some (v, nan) →
  Answers (.atomic m) s fun t =>
    Stored s t x (leBytes (atomicWidth m.hdr) v) ∧
    Sends s t ingMemory (mkCmplData s m.hdr (cflgOf false nan false false) 0
      (leBytes 16 (leNat (Memory.readN s.mem x (atomicWidth m.hdr)))))) ∧
  (∀ (s : State) (m : Msg) (x y : Nat),
  m.body.length = 16 → FirstTime s m.hdr → mustWait s m = false → m.hdr.mcast = false →
  (m.hdr.op = Op.fill → PlainRun s m.hdr.part.toNat m.hdr.addr.toNat (fillLen m.hdr) x true →
    Answers (.fill m) s fun t =>
      Stored s t x (List.replicate (fillLen m.hdr / 16) m.body).flatten ∧ Sends s t ingMemory [mkCmpl s m.hdr St.ok 0 0] ∧
      t.c (okey 0x5600 1) = (s.c (okey 0x5600 1) + fillLen m.hdr) % 2 ^ 64) ∧
  (m.hdr.op = Op.copy → copyLenOk (copyLen m.body) = true →
    PlainRun s m.hdr.part.toNat m.hdr.addr.toNat (copyLen m.body) x true →
    PlainRun s m.hdr.part.toNat (copySrc m.body) (copyLen m.body) y false →
    Answers (.copy m) s fun t =>
      Stored s t x (Memory.readN s.mem y (copyLen m.body)) ∧ Sends s t ingMemory [mkCmpl s m.hdr St.ok 0 0] ∧
      t.c (okey 0x5600 2) = (s.c (okey 0x5600 2) + copyLen m.body) % 2 ^ 64))

/-- R331, R332: a COMPARE answers where its two ranges first differ and in how many 16-byte units, and changes no memory; a MEM_REDUCE writes the
reduction of its payload with its range over the range. -/
def Obligations.CompareAndReduce : Prop := ∀ (s : State) (m : Msg) (x y : Nat) (o : MrOp), mustWait s m = false →
  (m.hdr.op = Op.compare → m.body.length = 32 → copyLenOk (copyLen m.body) = true → cmpMode m.body = false →
    PlainRun s m.hdr.part.toNat m.hdr.addr.toNat (copyLen m.body) x false →
    PlainRun s m.hdr.part.toNat (copySrc m.body) (copyLen m.body) y false →
    Answers (.compare m) s fun t => t.mem = s.mem ∧
      Sends s t ingMemory (mkCmplData s m.hdr 0 0
        (compareResult m (Memory.readN s.mem x (copyLen m.body) ++ Memory.readN s.mem y (copyLen m.body))))) ∧
  (m.hdr.op = Op.memReduce → FirstTime s m.hdr → m.hdr.mcast = false → mrOp m = some o →
    m.hdr.addr.toNat % 65536 + mrLen o ≤ 65536 →
    PlainRun s m.hdr.part.toNat m.hdr.addr.toNat (mrLen o) x true → PlainRun s m.hdr.part.toNat m.hdr.addr.toNat (mrLen o) x false →
    Answers (.memReduce m) s fun t =>
      Stored s t x ((mrCompute s m o (Memory.readN s.mem x (mrLen o))).1.take (mrLen o)) ∧
      Sends s t ingMemory [mkCmpl s m.hdr St.ok (mrCompute s m o (Memory.readN s.mem x (mrLen o))).2.1 0])

/-- R427, R429, R430: a copy of a request marked "once" whose first copy was performed changes no memory, and is answered as the first was. -/
def Obligations.OnceIsOnce : Prop := ∀ (s : State) (m : Msg) (r : OpRec),
  m.hdr.op ∈ onceOps → findOp s m.hdr = some r → r.done = true → mustWait s m = false →
  ∀ c, c = .store m ∨ c = .bulkStore m ∨ c = .atomic m ∨ c = .fill m ∨ c = .copy m ∨ c = .memReduce m ∨ c = .publish m →
    Answers c s fun t => t.mem = s.mem ∧ Sends s t ingMemory (opCompletion s m.hdr r) ∧
      t.c (okey 0xA000 6) = (s.c (okey 0xA000 6) + 1) % 2 ^ 64

/-- R167, R168, R169, R205, R207, R308, R170: What decoding an address in SPACE 0x00 and 0x01 refuses, in the order of its checks. A memory request whose
address is refused changes no memory and completes with the status of the refusal. -/
def Obligations.AddressDecodingAndRefusals : Prop :=
  (∀ (s : State) (p a len : Nat) (write : Bool),
  (spaceOf a = 0 → bits a 47 33 = 0 →
    (sliceOf s p (bits a 32 26) = none → resolveFlat s p a len write = .error (St.accessDenied, none)) ∧
    (∀ d, sliceOf s p (bits a 32 26) = some d →
      (2 ^ 26 < a % 2 ^ 26 + len → resolveFlat s p a len write = .error (St.boundExceeded, none)) ∧
      (a % 2 ^ 26 + len ≤ 2 ^ 26 → ∃ g, resolveFlat s p a len write = .ok g ∧ g.loc = .phys (physSlice d + a % 2 ^ 26) ∧ g.len = len))) ∧
  (spaceOf a = 1 → bits a 47 44 = 0 →
    (findFolio s p (bits a 43 28) = none → resolveFlat s p a len write = .error (St.accessDenied, none)) ∧
    (∀ i f, findFolio s p (bits a 43 28) = some (i, f) →
      (f.st ≠ .granted → resolveFlat s p a len write = .error (St.extentRevoked, some (2 + folHomek f.word))) ∧
      (f.st = .granted → folRo f.word = true → write = true → resolveFlat s p a len write = .error (St.accessDenied, none)) ∧
      (f.st = .granted → (folRo f.word = false ∨ write = false) → folHomek f.word = 0 → a % 2 ^ 28 + len ≤ 2 ^ 28 →
        ∃ g, resolveFlat s p a len write = .ok g ∧ g.loc = .phys (physStack (folLfolio f.word) + a % 2 ^ 28) ∧ g.len = len))) ∧
  (spaceOf a < 2 → touchesObject s p a len = true → ∀ g, resolveFlat s p a len write = .ok g →
    resolveOwn s p a len write = .err St.accessDenied none)) ∧
  (∀ (s : State) (m : Msg) (st : BitVec 8),
  planOf s m = .err st → mustWait s m = false → (m.hdr.op ∈ onceOps → FirstTime s m.hdr ∧ m.hdr.mcast = false) →
  ∀ c, c = .load m ∨ c = .bulkLoad m ∨ c = .store m ∨ c = .bulkStore m ∨ c = .atomic m ∨ c = .fill m ∨ c = .copy m ∨ c = .compare m ∨
      c = .memReduce m →
    Answers c s fun t => t.mem = s.mem ∧ Sends s t ingMemory [mkCmpl s m.hdr st 0 0])

/-- R78, R79, R82, R75: The completion of a request goes back to its source with the request's PART, TAG and OPID, the class that answers its class, and
the status, the flags and the data given. The packets of a CMPL_DATA message carry its body in order, 2,048 bytes in each but the last, and number
themselves. -/
def Obligations.Completions : Prop :=
  (∀ (s : State) (h : Hdr) (st cflg : BitVec 8) (cdat : BitVec 16),
  (mkCmpl s h st cflg cdat).payload = [] ∧ (mkCmpl s h st cflg cdat).hdr.op = Op.cmpl ∧
  (mkCmpl s h st cflg cdat).hdr.dst = h.src ∧ (mkCmpl s h st cflg cdat).hdr.src = devFid s ∧
  cmplKey (mkCmpl s h st cflg cdat).hdr = hdrKey h ∧ (mkCmpl s h st cflg cdat).hdr.cls = respClass h.cls ∧
  cmplStatus (mkCmpl s h st cflg cdat).hdr = st ∧ cmplCflg (mkCmpl s h st cflg cdat).hdr = cflg ∧
  cmplCdat (mkCmpl s h st cflg cdat).hdr = cdat) ∧
  (∀ (s : State) (h : Hdr) (cflg : BitVec 8) (cdat : BitVec 16) (body : List Byte),
  body.length % 16 = 0 → 0 < body.length → body.length ≤ 2 ^ 23 →
  ((mkCmplData s h cflg cdat body).flatMap (·.payload)) = body ∧
  (mkCmplData s h cflg cdat body).length = (body.length + 2047) / 2048 ∧
  ∀ i p, (mkCmplData s h cflg cdat body)[i]? = some p →
    pidxOf p.hdr = i ∧ pcntOf p.hdr = (mkCmplData s h cflg cdat body).length ∧ p.payload.length = 16 * p.hdr.plen.toNat ∧
    p.payload.length ≤ 2048 ∧ p.hdr.last = decide (i + 1 = (mkCmplData s h cflg cdat body).length))

/-- R178, R180, R184, R187, R418, R420, R421, R423, R429, R467: The end of a request at its accepting device. A completion that passes releases the
request's entry and record; a request whose target stays silent completes with TGT_DEAD and its late completion is counted; a C7 entry is released
without a completion. The timers of the Blotter. A HELD request whose time has passed is sent again with RETRY set, its original TAG and OPID and one
attempt more, and after the third attempt completes REPLAY_EXHAUSTED; a forwarded request that is not HELD completes so once it is orphaned; a record
of a finished operation is freed. -/
def Obligations.RequestEndsAndReplay : Prop :=
  (∀ (s : State) (k : ReqKey) (e : TagEntry),
  findTag s k = some e →
    (e.cls = 3 → Answers (.tgtDeadTimeout k) s fun t =>
      Sends s t ingMemory [mkCmpl s (tagHdr s e) St.tgtDead 0 0] ∧ t.late = s.late ++ [hdrKey (tagHdr s e)] ∧
      t.tags = s.tags.filter (fun x => x.key != hdrKey (tagHdr s e)) ∧
      t.journal = s.journal.filter (fun x => x.key != hdrKey (tagHdr s e)) ∧
      t.c (okey 0x5000 4) = (s.c (okey 0x5000 4) + 1) % 2 ^ 64) ∧
    (e.cls = 7 → exec (.tgtDeadTimeout k) s = .next (dropTag s k)) ∧
    (∀ (ing : BitVec 8) (p : Packet) (o : Nat),
      ing.toNat < 128 → s.inputQ ing.toNat = [] → p.hdr.op = Op.cmpl → cmplKey p.hdr = k → isOwnKeyx s ing.toNat p.hdr = false →
      opAllowed p.hdr.op p.hdr.cls = true → (∀ x, x.pkt = p → x.kind = .wire → ingressReject { s with serial := s.serial + 1 } ing.toNat x = none) →
      boundMeter s ing.toNat p.hdr.cls.toNat = none → aggregateOf s ing.toNat p.hdr = none → RoutedTo s p.hdr o → o < 128 →
      o / 8 ≠ ing.toNat / 8 →
      Answers (.completion ing p) s fun t =>
        t.tags = s.tags.filter (fun x => x.key != k) ∧ t.journal = s.journal.filter (fun x => x.key != k) ∧ t.outs = s.outs ∧
        ∃ x : SpineItem, t.spine = s.spine ++ [x] ∧ x.held.pkt = p ∧ x.out = o)) ∧
  (∀ (s : State) (k : ReqKey) (j : JRec), findJournal s k = some j →
  (j.held = true → j.rkind ≠ 2 → j.hdr.cls ≠ 1 → j.hdr.cls ≠ 2 →
    (j.att < 3 → Answers (.replayTimeExpire k) s fun t => t.mem = s.mem ∧ findJournal t k = some { j with att := j.att + 1, tlast := tb32 s } ∧
      t.c (okey 0xA000 4) = (s.c (okey 0xA000 4) + 1) % 2 ^ 64 ∧
      Sends s t j.ingr.toNat (mkRequest { j.hdr with flg := j.hdr.flg ||| flagRetry, ep := origEp s } j.body)) ∧
    (3 ≤ j.att → Answers (.replayTimeExpire k) s fun t => t.mem = s.mem ∧ t.tags = s.tags.filter (fun x => x.key != hdrKey j.hdr) ∧
      t.journal = s.journal.filter (fun x => x.key != hdrKey j.hdr) ∧ t.c (okey 0xA000 5) = (s.c (okey 0xA000 5) + 1) % 2 ^ 64 ∧
      Sends s t ingMemory [mkCmpl s j.hdr St.replayExhausted 0 3])) ∧
  (j.held = false ∨ j.rkind = 2 ∨ j.hdr.cls = 1 ∨ j.hdr.cls = 2 → exec (.replayTimeExpire k) s = .next s) ∧
  (j.rkind = 1 → j.held = false → j.hdr.cls = 0 ∨ j.hdr.cls = 5 → Answers (.orphanTimeExpire k) s fun t => t.mem = s.mem ∧
    t.tags = s.tags.filter (fun x => x.key != hdrKey j.hdr) ∧ t.journal = s.journal.filter (fun x => x.key != hdrKey j.hdr) ∧
    Sends s t ingMemory [mkCmpl s j.hdr St.replayExhausted 0 (BitVec.ofNat 16 j.att)]) ∧
  (j.held = true → exec (.orphanTimeExpire k) s = .next s) ∧
  (∀ src part opid, exec (.opRecordExpire src part opid) s =
    .next { s with opRecs := s.opRecs.filter fun r => !(r.done && r.src == src && r.part == part && r.opid == opid) }))

/-- R193, R194, R195: RD_SHARED, RD_OWN and UPGRADE on a line that nobody else is using. A line in memory is granted with its data and the directory names
the new holder; a line another agent owns is asked of that agent. WRITEBACK and EVICT by the owner of a line, and HOME_ATOMIC and COH_STORE on a line
that nobody holds: what they store, and that the directory holds no copy of the line after them. -/
def Obligations.CoherentRequests : Prop :=
  (∀ (s : State) (m : Msg) (d : Part) (a line : Nat) (la : Addr),
  routeC1 s m = .ok (d, a, line, la) → lineBusy s line = false → s.cohWait = [] →
  (m.hdr.op = Op.rdShared → (dirEntry s line).ownerOf = none → ∀ data, readLine s line = some data →
    Answers (.rdShared m) s fun t => t.mem = s.mem ∧ t.txns = s.txns ∧ (∀ l, l ≠ line → dirEntry t l = dirEntry s l) ∧
      dirEntry t line = (if (dirEntry s line).st = .s then { (dirEntry s line).addSharer a with chk := 0 } else ownedBy a) ∧
      Sends s t ingMemory (mkCmplData s m.hdr 0 (grantCdat (if (dirEntry s line).st = .s then 1 else 2) false) data)) ∧
  (m.hdr.op = Op.rdOwn → dirEntry s line = {} → ∀ data, readLine s line = some data →
    Answers (.rdOwn m) s fun t => t.mem = s.mem ∧ t.txns = s.txns ∧ (∀ l, l ≠ line → dirEntry t l = dirEntry s l) ∧
      dirEntry t line = ownedBy a ∧ Sends s t ingMemory (mkCmplData s m.hdr 0 (grantCdat 2 false) data)) ∧
  (m.hdr.op = Op.upgrade → (dirEntry s line).holders = [a] →
    Answers (.upgrade m) s fun t => t.mem = s.mem ∧ t.txns = s.txns ∧ (∀ l, l ≠ line → dirEntry t l = dirEntry s l) ∧
      dirEntry t line = ownedBy a ∧ Sends s t ingMemory [mkCmpl s m.hdr St.ok 0 (grantCdat 3 false)]) ∧
  (∀ o, (dirEntry s line).ownerOf = some o → (dirEntry s line).sharers = 0 →
    ∀ c skind, (c = .rdShared m ∧ m.hdr.op = Op.rdShared ∧ skind = snpShared) ∨ (c = .rdOwn m ∧ m.hdr.op = Op.rdOwn ∧ skind = snpOwn) →
    Answers c s fun t => t.mem = s.mem ∧ t.dir = s.dir ∧
      Sends s t ingMemory [homePacket s Op.snoop m.hdr (agentFid s d.val o) la (skind + 256 * m.hdr.src.toNat) []] ∧
      ∃ x : Txn, t.txns = s.txns ++ [x] ∧ x.line = line ∧ x.agent = some a ∧ x.owner = some o ∧ x.await = [o])) ∧
  (∀ (s : State) (m : Msg) (d : Part) (a line : Nat) (la : Addr),
  routeC1 s m = .ok (d, a, line, la) → lineBusy s line = false → s.cohWait = [] → firstDead s (linePhys line) 128 = none →
  (m.hdr.op = Op.writeback → dirEntry s line = ownedBy a → Answers (.writeback m) s fun t =>
    Stored s t (linePhys line) (slice m.body 0 128) ∧ (∀ l, l ≠ line → dirEntry t l = dirEntry s l) ∧ dirEntry t line = {} ∧
    Sends s t ingMemory [mkCmpl s m.hdr St.ok 0 (grantCdat 0 false)]) ∧
  (m.hdr.op = Op.evict → dirEntry s line = ownedBy a → Answers (.evict m) s fun t =>
    t.mem = s.mem ∧ (∀ l, l ≠ line → dirEntry t l = dirEntry s l) ∧ dirEntry t line = {} ∧
    Sends s t ingMemory [mkCmpl s m.hdr St.ok 0 (grantCdat 0 false)]) ∧
  (dirEntry s line = {} →
    (m.hdr.op = Op.homeAtomic → firstDead s (linePhys line + m.hdr.addr.toNat % 128) (atomicWidth m.hdr) = none → ∀ v nan,
      atomicResult (aopOf m.hdr) (atypeOf m.hdr)
        (leNat (Memory.readN s.mem (linePhys line + m.hdr.addr.toNat % 128) (atomicWidth m.hdr))) (atomicOpa m.body) (atomicOpb m.body) =
        some (v, nan) →
      Answers (.homeAtomic m) s fun t =>
        Stored s t (linePhys line + m.hdr.addr.toNat % 128) (leBytes (atomicWidth m.hdr) v) ∧ (∀ l, dirEntry t l = dirEntry s l) ∧
        Sends s t ingMemory (mkCmplData s m.hdr (cflgOf false nan false false) 0
          (padTo 16 (Memory.readN s.mem (linePhys line + m.hdr.addr.toNat % 128) (atomicWidth m.hdr))))) ∧
    (m.hdr.op = Op.cohStore → m.body.length = 128 → m.hdr.hint = false → Answers (.cohStore m) s fun t =>
      (∀ b, Memory.read t.mem b =
        if linePhys line ≤ b ∧ b < linePhys line + 128 ∧ bit (gmaskOf m.hdr) ((b - linePhys line) / 16) = true then
          m.body.getD (b - linePhys line) 0 else Memory.read s.mem b) ∧
      Sends s t ingMemory [mkCmpl s m.hdr St.ok 0 0])))

/-- R193, R195, R202, R189, R200, R201, R203: The answers of agents. The owner's answer that it forwards a clean line ends an RD_SHARED with both as
sharers; the line an owner sends to the home is held for the request; an agent that stays silent holds its domain. The life of a coherence domain, and
the slices its directory may take. -/
def Obligations.SnoopsAndDomains : Prop :=
  (∀ (s : State) (x : Txn) (p : Packet) (a o : Nat),
  s.txns = [x] → x.agent = some a → x.place = none → x.owner = some o → x.await = [o] → (s.domain x.domain.val).st = .active →
  s.cohWait = [] →
  (sameRequest p.hdr x = true → agentFid s x.domain.val o = p.hdr.src →
    (x.req.hdr.op = Op.rdShared → x.wantData = false → resOf p.hdr = resFwdClean → (dirEntry s x.line).st = .x →
      Answers (.snoopResp p) s fun t => t.mem = s.mem ∧ t.txns = [] ∧
        dirEntry t x.line = (({ st := .s, sharers := 0 } : DirEntry).addSharer o).addSharer a ∧
        (∀ l, l ≠ x.line → dirEntry t l = dirEntry s l) ∧
        Sends s t ingMemory (mkCmplData s x.req.hdr 0 (grantCdat 1 true) [])) ∧
    (x.wantData = true → x.data = none → Answers (.dataFwd p) s fun t =>
      t.mem = s.mem ∧ t.dir = s.dir ∧ t.txns = [{ x with data := some (slice p.payload 0 128) }])) ∧
  (∀ g : Fin 16, g.val = o → LeadsTo (.snoopWaitTimeout x.domain g) s (s.setDomain x.domain.val
    { s.domain x.domain.val with st := .held, heldCause := 3, heldAgent := o }))) ∧
  (∀ (s : State) (by_ : Caller) (d : Part) (x : Txn) (v : BitVec 32),
  (oprOver s by_ (domainPart s d.val) = true →
    ((s.domain d.val).st = .idle ∨ (s.domain d.val).st = .tornDown →
      (activateOk s d.val = true → Answers (.domainActivate by_ d) s fun t => WriteOk by_ t ∧
        (s.cohWait = [] → t.dir = (clearDir (s.setDomain d.val { st := .active }) d.val).dir) ∧
        ((∀ a, a < 16 → ¬ LostAgent s d.val a) → (t.domain d.val).st = .active) ∧
        ((∃ a, a < 16 ∧ LostAgent s d.val a) → (t.domain d.val).st = .held ∧ (t.domain d.val).heldCause = 2)) ∧
      (activateOk s d.val = true →
        (∀ e, e < 32 → (s.domain e).st = .active ∨ e = d.val → ∀ a, a < 16 → ¬ LostAgent s e a) →
        exec (.domainActivate by_ d) s =
          .next ((clearDir (s.setDomain d.val { st := .active }) d.val).emit (.answer by_ Ds.ok 0 []))) ∧
      (activateOk s d.val = false → Rejects (.domainActivate by_ d) by_ s Ds.valueRejected)) ∧
    ((s.domain d.val).st = .active ∨ (s.domain d.val).st = .held → s.txns = [x] → s.cohWait = [] → x.domain = d →
      x.agent.isSome = true → x.place = none → Answers (.teardown by_ d) s fun t =>
        WriteOk by_ t ∧ t.mem = s.mem ∧ t.txns = [] ∧ (t.domain d.val).st = .tornDown ∧
        (∀ e, e ≠ d.val → t.domain e = s.domain e) ∧ Sends s t ingMemory [mkCmpl s x.req.hdr St.fenced 0 0]) ∧
    ((s.domain d.val).st = .tornDown → exec (.domainReset by_ d) s =
      .next ((s.setDomain d.val {}).emit (.answer by_ Ds.ok 0 [])))) ∧
  (isOpr s by_ = true → allDomainsIdle s = true →
    (∀ n ∈ [bits v.toNat 7 0, bits v.toNat 15 8, bits v.toNat 23 16, bits v.toNat 31 24],
      sliceExists s n = true ∧ sliceGranted s n = false ∧ isWorkSlice s n = false) →
    exec (.dirSlices by_ v) s = .next ((s.setO (okey 0x6000 1) v.toNat).emit (.answer by_ Ds.ok 0 []))))

/-- R205, R207, R208, R209, R210: the life of a folio record. A valid record is GRANTED; a revocation drains it, then its memory is filled with zero, here
or by a FILL to its home, and it is REVOKED; a write of FOLIO_CLEAR frees it. -/
def Obligations.FolioLife : Prop := ∀ (s : State) (by_ : Caller) (i : BitVec 16) (w : BitVec 256),
  (isOpr s by_ = true →
    (folioOk s i.toNat w = true → exec (.folioWrite by_ [(i.setWidth 32, w)]) s =
      .next ((s.setFolio i.toNat { word := w, st := .granted }).emit (.answer by_ Ds.ok 0 []))) ∧
    ((s.folio i.toNat).st = .granted → inBusyWindow s (s.folio i.toNat) = false → exec (.folioRevoke by_ i) s =
      .next ((s.setFolio i.toNat { s.folio i.toNat with st := .draining }).emit (.answer by_ Ds.ok 0 []))) ∧
    ((s.folio i.toNat).st = .revoked → (s.folio i.toNat).scrubFailed = false → (s.folio i.toNat).refill = false →
      exec (.folioClear by_ i) s = .next ((s.setFolio i.toNat {}).emit (.answer by_ Ds.ok 0 [])))) ∧
  ((s.folio i.toNat).st = .draining → folioInflight s i.toNat = [] → unitInflight s i.toNat = 0 →
    (folHomek (s.folio i.toNat).word = 0 → exec (.folioDrained i) s =
      .next (s.setFolio i.toNat { s.folio i.toNat with st := .scrubbing, fills := [] })) ∧
    (folHomek (s.folio i.toNat).word ≠ 0 → Answers (.folioDrained i) s fun t =>
      (t.folio i.toNat).st = .scrubbing ∧ (∀ j, j ≠ i.toNat → t.folio j = s.folio j) ∧ t.mem = s.mem ∧
      ∃ p : Packet, Sends s t (ingQuill (servingQuill s 0)) [p] ∧ p.hdr.op = Op.fill ∧ p.hdr.dst = folRfid (s.folio i.toNat).word ∧
        p.hdr.addr.toNat = folRaddr (s.folio i.toNat).word ∧ p.hdr.aux = 0xFFFFFF ∧ p.payload = List.replicate 16 0)) ∧
  ((s.folio i.toNat).st = .draining → Answers (.revokeBoundExpire i) s fun t =>
    (t.folio i.toNat).st = .scrubbing ∧ (∀ j, j ≠ i.toNat → t.folio j = s.folio j) ∧
    (0 < (folioInflight s i.toNat).length + unitInflight s i.toNat →
      t.c (okey 0x5100 0xA) = (s.c (okey 0x5100 0xA) + ((folioInflight s i.toNat).length + unitInflight s i.toNat)) % 2 ^ 64) ∧
    (s.cohWait = [] → movesOn s i.toNat = [] → t.mem = s.mem ∧ folioInflight t i.toNat = [] ∧
      ∀ m k, folioJobs s i.toNat = [(m, k)] → m.hdr.op ∉ onceOps → m.hdr.mcast = false →
        Sends s t ingMemory [mkCmpl s m.hdr St.extentRevoked 0 0])) ∧
  ((s.folio i.toNat).st = .scrubbing → (s.part (folOwner (s.folio i.toNat).word)).st = .open_ → (s.folio i.toNat).clearing = false →
    (folHomek (s.folio i.toNat).word = 0 → s.memOk → Answers (.folioScrubDone i St.ok) s fun t =>
      t.folio i.toNat = { s.folio i.toNat with st := .revoked, scrubFailed := false, fills := [] } ∧
      (∀ j, j ≠ i.toNat → t.folio j = s.folio j) ∧
      ∀ b, Memory.read t.mem b =
        if physStack (folLfolio (s.folio i.toNat).word) ≤ b ∧ b < physStack (folLfolio (s.folio i.toNat).word) + 2 ^ 28 then 0
        else Memory.read s.mem b) ∧
    (∀ st : BitVec 8, st ≠ St.ok → LeadsTo (.folioScrubDone i st) s
      (s.setFolio i.toNat { s.folio i.toNat with st := .revoked, scrubFailed := true, clearing := false, fills := [] })))

/-- R211, R212, R213, R215, R181, R182: Region records, and PUBLISH, which installs a version if the region still has the one expected. Its completion
waits for the readers of the version before. TAG_RESERVE is taken while the reserves of all partitions stay within 65,536 entries, and refused above;
a request finds an entry while its partition is below its limit and either below its reserve or not eating into the reserves of others. -/
def Obligations.PublicationAndTagReserves : Prop :=
  (∀ (s : State) (by_ : Caller) (w : BitVec 64) (m : Msg) (r : Region),
  (ownerWrites s by_ (rwOwner w) = true → isOpr s by_ = true ∨ by_.role = .prt → rwRegion w < 4096 → rwOwner w < 32 →
    (s.region (rwRegion w) = none → rwValid w = true → regionRead s (rwRegion w) = false → Answers (.regionWrite by_ [w]) s fun t =>
      WriteOk by_ t ∧ (∀ j, j ≠ rwRegion w → t.region j = s.region j) ∧ ∃ r', t.region (rwRegion w) = some r' ∧
        r'.owner.val = rwOwner w ∧ r'.readers = rwReaders w ∧ r'.version = 0 ∧ r'.len = 0) ∧
    (s.region (rwRegion w) = some r → r.owner.val = rwOwner w → exec (.regionWrite by_ [w]) s =
      .next ((s.setRegion (rwRegion w) (if rwValid w then some { r with readers := rwReaders w } else none)).emit
        (.answer by_ Ds.ok 0 [])))) ∧
  (m.hdr.op = Op.publish → FirstTime s m.hdr → mustWait s m = false → m.hdr.mcast = false → spaceOf m.hdr.addr.toNat = 3 → regionOff m.hdr.addr.toNat = 0 → m.body.length = 32 →
    spaceOf (pubBase m.body) < 2 → pubLen m.body % 16 = 0 → pubLen m.body ≤ 2 ^ 36 →
    s.region (regionIx m.hdr.addr.toNat) = some r → r.owner.val = m.hdr.part.toNat →
    (∃ gs, resolveContent s m.hdr.part.toNat (pubBase m.body) (pubLen m.body) true false = .segs gs) →
    touchesObject s m.hdr.part.toNat (pubBase m.body) (pubLen m.body) = false →
    (r.version ≠ pubExpect m.body → Answers (.publish m) s fun t =>
      t.regions = s.regions ∧ Sends s t ingMemory [mkCmpl s m.hdr St.publishConflict 0 (r.version.setWidth 16)]) ∧
    (r.version = pubExpect m.body → Answers (.publish m) s fun t =>
      t.region (regionIx m.hdr.addr.toNat) = some { r with
        version := r.version + 1, base := BitVec.ofNat 56 (pubBase m.body), len := BitVec.ofNat 64 (pubLen m.body), fid := m.hdr.src } ∧
      (∀ j, j ≠ regionIx m.hdr.addr.toNat → t.region j = s.region j) ∧ t.mem = s.mem ∧
      (readersOf s (regionIx m.hdr.addr.toNat) r.version = false →
        Sends s t ingMemory [mkCmpl s m.hdr St.ok 0 ((r.version + 1).setWidth 16)]) ∧
      (readersOf s (regionIx m.hdr.addr.toNat) r.version = true → t.inq = s.inq ∧ ∃ x : WaitPub, t.waitPubs = s.waitPubs ++ [x] ∧
        x.req = m ∧ x.old = r.version))) ∧
  (∀ (x : WaitPub) (op : OpRec) (i : BitVec 12), s.waitPubs = [x] → x.region = i.toNat → readersOf s i.toNat x.old = false →
    findOp s x.req.hdr = some op → op.ndup = 0 → x.req.hdr.mcast = false → Answers (.publishRelease i) s fun t =>
      t.waitPubs = [] ∧ Sends s t ingMemory [mkCmpl s x.req.hdr St.ok 0 x.cdat])) ∧
  (∀ (s : State) (by_ : Caller) (p : Part) (v : BitVec 32),
  (oprOver s by_ p.val = true → resourcesOpen s p.val = true → v.toNat ≤ 65536 →
    (((List.range 32).map fun q => if q = p.val then 0 else tagReserve s q).sum + v.toNat ≤ 65536 →
      exec (.tagReserve by_ p v) s = .next ((s.setO (okey (0x5020 + p.val) 1) v.toNat).emit (.answer by_ Ds.ok 0 []))) ∧
    (65536 < ((List.range 32).map fun q => if q = p.val then 0 else tagReserve s q).sum + v.toNat →
      Rejects (.tagReserve by_ p v) by_ s Ds.valueRejected)) ∧
  (∀ ing, (ing < 192 → (tagFree s p.val ing = true ↔ tagsOf s p.val < tagLimit s p.val ∧
      (tagsOf s p.val < tagReserve s p.val ∨
        outsideTags s + ((List.range 32).map fun q => if q = p.val then 0 else tagReserve s q - tagsOf s q).sum < 65536))) ∧
    (192 ≤ ing → (tagFree s p.val ing = true ↔ quillTags s (ing - 192) < 512))))

/-- R242, R243, R244, R245, R443, R248, R252, R259: OPEN takes a free context under the next CGEN, a mirror open makes it the mirror of its home, and an
OPEN that breaks a rule changes no context. JOIN, CLOSE and ABORT of a context of the request's partition. A JOIN enters the contributor and sends it
a CREDIT; a CLOSE of a DONE context frees it and a CLOSE of one that runs says how many chunks are still to come; an ABORT frees a context in any
state. -/
def Obligations.CollectiveContexts : Prop :=
  (∀ (s : State) (m : Msg) (w : BitVec 512),
  w = BitVec.ofNat 512 (leAt m.body 0 64) → ccCmd m.hdr = 1 → FirstTime s m.hdr → mustWait s m = false → m.hdr.mcast = false →
  ∀ c, c = .open_ m ∨ c = .mirrorOpen m →
  (openRefusal s m w = none → isMirrorOpen m w = false → cdPartner w = 0 → Answers c s fun t =>
    (t.ctx (cdCtx w)).st = .running ∧ (t.ctx (cdCtx w)).cgen = (s.ctx (cdCtx w)).cgen + 1 ∧ (t.ctx (cdCtx w)).desc = w ∧
    (t.ctx (cdCtx w)).part.val = m.hdr.part.toNat ∧ (t.ctx (cdCtx w)).joined = [] ∧ t.mem = s.mem ∧
    ∃ x ∈ t.inputQ (ingQuill (ctxQuill (cdCtx w))), x.pkt = mkCmpl s m.hdr St.ok
      (cflgOf false false (quillDegraded s (ctxQuill (cdCtx w))) false) (((s.ctx (cdCtx w)).cgen + 1).setWidth 16)) ∧
  (openRefusal s m w = none → isMirrorOpen m w = false → cdPartner w ≠ 0 → Answers c s fun t =>
    (t.ctx (cdCtx w)).st = .running ∧ (t.ctx (cdCtx w)).cgen = (s.ctx (cdCtx w)).cgen + 1 ∧ (t.ctx (cdCtx w)).mirror = 1 ∧
    (t.ctx (cdCtx w)).opener = some m ∧ t.mem = s.mem ∧ ∃ p : Packet, Sends s t (ingQuill (ctxQuill (cdCtx w))) [p] ∧
      p.hdr.op = Op.collCtl ∧ p.hdr.dst = cdPartner w ∧ ccCmd p.hdr = 1) ∧
  (openRefusal s m w = none → isMirrorOpen m w = true → Answers c s fun t =>
    (t.ctx (cdCtx w)).st = .mirror ∧ (t.ctx (cdCtx w)).cgen = ccHcgen m.hdr ∧ (t.ctx (cdCtx w)).partner = m.hdr.src ∧
    (t.ctx (cdCtx w)).mirror = 3 ∧ (t.ctx (cdCtx w)).desc = w ∧ t.mem = s.mem ∧
    (∀ j, j ≠ cdCtx w → t.ctx j = s.ctx j) ∧ Sends s t (ingQuill (ctxQuill (cdCtx w))) [mkCmpl s m.hdr St.ok
      (cflgOf false false (quillDegraded s (ctxQuill (cdCtx w))) false) ((ccHcgen m.hdr).setWidth 16)]) ∧
  (∀ st note, openRefusal s m w = some (st, note) → Answers c s fun t => t.ctxs = s.ctxs ∧ t.mem = s.mem ∧
    Sends s t (ingQuill (ctxQuill (cdCtx w))) [mkCmpl s m.hdr st
      (cflgOf false false (quillDegraded s (ctxQuill (cdCtx w))) false) 0])) ∧
  (∀ (s : State) (m : Msg) (c x : Nat) (v : Ctx),
  m.body.length = 16 → c = ccCtx m.body → x = ccCidx m.body → v = s.ctx c → FirstTime s m.hdr → mustWait s m = false → m.hdr.mcast = false →
  v.part.val = m.hdr.part.toNat → v.partner = 0 →
  (ccCmd m.hdr = 2 → ctxRefusal s c (ccCgen m.body) false = none → v.st = .running → x ≤ cdNcm1 v.desc →
    (v.joined.find? fun e => e.1 == x) = none → Answers (.join m) s fun t =>
      t.ctx c = { v with joined := (v.joined.filter (·.1 < x)) ++ [(x, m.hdr.src)] ++ v.joined.filter (x < ·.1) } ∧
      (∀ j, j ≠ c → t.ctx j = s.ctx j) ∧ t.mem = s.mem ∧
      ∃ p : Packet, Sends s t (ingQuill (ctxQuill c))
          [mkCmpl s m.hdr St.ok (cflgOf false false (quillDegraded s (ctxQuill c)) false) 0, p] ∧
        p.hdr.op = Op.credit ∧ p.hdr.dst = m.hdr.src ∧
        p.payload = leBytes 16 (c + v.cgen.toNat * 2 ^ 16 + v.limit * 2 ^ 32 + v.low * 2 ^ 64)) ∧
  (ccCmd m.hdr = 3 → ctxRefusal s c (ccCgen m.body) false = none →
    (v.st = .done → Answers (.close m) s fun t => t.ctx c = { cgen := v.cgen, used := true } ∧ t.mem = s.mem ∧
      ∃ y ∈ t.inputQ (ingQuill (ctxQuill c)),
        y.pkt = mkCmpl s m.hdr St.ok (cflgOf false false (quillDegraded s (ctxQuill c)) false) 0) ∧
    (v.st = .running → Answers (.close m) s fun t => t.ctxs = s.ctxs ∧ t.mem = s.mem ∧ Sends s t (ingQuill (ctxQuill c))
      [mkCmpl s m.hdr St.busy (cflgOf false false (quillDegraded s (ctxQuill c)) false)
        (BitVec.ofNat 16 (cdNchunk v.desc - v.low))])) ∧
  (ccCmd m.hdr = 4 → ctxRefusal s c (ccCgen m.body) true = none → v.st ≠ .free → Answers (.abort m) s fun t =>
    t.ctx c = { cgen := v.cgen, used := true } ∧ (∀ k ∈ t.chunks, k.ctx ≠ c) ∧ t.mem = s.mem ∧
    ∃ y ∈ t.inputQ (ingQuill (ctxQuill c)),
      y.pkt = mkCmpl s m.hdr St.ok (cflgOf false false (quillDegraded s (ctxQuill c)) false) 0))

/-- R249, R250, R254, R255, R256: what a CONTRIB does. One that is refused, comes too early or was taken before adds nothing; one that is taken adds all
its elements once and sets its bit; one whose escalations the quill's pool cannot hold adds nothing and completes BUSY, and its context opens no chunk
until entries are free; the one that fills a chunk of a REDUCE_TO_ROOT sends the RESULT and closes the chunk. -/
def Obligations.Contributions : Prop := ∀ (s : State) (m : Msg) (c i : Nat) (f : BitVec 8),
  c = cnCtx m.hdr → i = cnChunk m.hdr → f = cflgOf false false (quillDegraded s (ctxQuill c)) false → mustWait s m = false →
  (∀ st ch, judge s m = .refuse st ch → Answers (.contrib m) s fun t =>
    t.chunks = s.chunks ∧ t.ctxs = s.ctxs ∧
    Sends s t (ingQuill (ctxQuill c)) [mkCmpl s m.hdr st f (if ch then BitVec.ofNat 16 (missing s c i) else 0)]) ∧
  (judge s m = .duplicate → Answers (.contrib m) s fun t =>
    t.chunks = s.chunks ∧ t.ctxs = s.ctxs ∧ t.c (okey 0x7000 5) = (s.c (okey 0x7000 5) + 1) % 2 ^ 64 ∧
    Sends s t (ingQuill (ctxQuill c)) [mkCmpl s m.hdr St.ok f (BitVec.ofNat 16 (missing s c i))]) ∧
  (judge s m = .busy → Answers (.contrib m) s fun t =>
    t.chunks = s.chunks ∧ t.ctxs = s.ctxs ∧
    Sends s t (ingQuill (ctxQuill c)) [mkCmpl s m.hdr St.busy f (BitVec.ofNat 16 (missing s c i))]) ∧
  (∀ k need es pool n, judge s m = .add k → addElems (s.quill (ctxQuill c)).pool (s.ctx c) k m.body = (es, pool, n) →
    need = pool.length - (s.quill (ctxQuill c)).pool.length →
    (need ≠ 0 → escLimit s (ctxQuill c) (some k.seq) < need → Answers (.contrib m) s fun t =>
      t.chunks = s.chunks ∧ (t.ctx c).escHold = true ∧ t.c (quillObj (ctxQuill c) 5) = (s.c (quillObj (ctxQuill c) 5) + 1) % 2 ^ 64 ∧
      Sends s t (ingQuill (ctxQuill c)) [mkCmpl s m.hdr St.busy f (BitVec.ofNat 16 (missing s c i))]) ∧
    (need = 0 ∨ need ≤ escLimit s (ctxQuill c) (some k.seq) →
      (k.bits.length < cdNcm1 (s.ctx c).desc → Answers (.contrib m) s fun t =>
        t.ctxs = s.ctxs ∧ (t.quill (ctxQuill c)).pool = pool ∧
        t.chunks = s.chunks.map (fun y => if y.ctx = c ∧ y.idx = i then
          { k with bits := k.bits ++ [cnCidx m.hdr], elems := es, raw := m.body,
                   first := if k.bits.isEmpty then s.timebase else k.first } else y) ∧
        Sends s t (ingQuill (ctxQuill c))
          [mkCmpl s m.hdr St.ok f (BitVec.ofNat 16 (cdNcm1 (s.ctx c).desc + 1 - (k.bits.length + 1)))]) ∧
      (cdNcm1 (s.ctx c).desc ≤ k.bits.length → cdKind (s.ctx c).desc = 0 → Answers (.contrib m) s fun t =>
        (∀ y ∈ t.chunks, ¬ (y.ctx = c ∧ y.idx = i)) ∧
        (∃ y ∈ t.inputQ (ingQuill (ctxQuill c)), y.pkt = mkCmpl s m.hdr St.ok f 0) ∧
        ∃ y ∈ t.inputQ (ingQuill (ctxQuill c)), y.pkt.hdr.op = Op.result ∧ y.pkt.hdr.dst = cdRdst (s.ctx c).desc)))

/-- R251, R252, R253, R445, R261, R444, R447, R451: A running context opens the chunks of its window while slots are free; CREDIT_REFRESH sends a CREDIT
to every contributor that has joined a running context; a CREDIT from its home brings a mirror up to date. A mirror open that is not answered in time
leaves the context without a mirror and completes its OPEN; a complete mirror that is promoted runs under the next epoch from its recorded window; a
running context takes another partner; and the abort and the slots of a dictionary write. -/
def Obligations.CreditsAndMirrors : Prop :=
  (∀ (s : State) (c : Nat),
  ((s.ctx c).st = .running → (s.ctx c).escHold = false → removing s (s.ctx c).part.val = false → ∀ i, (s.ctx c).low ≤ i →
    i < (s.ctx c).low + min (cdCwin (s.ctx c).desc) (cdNchunk (s.ctx c).desc - (s.ctx c).low) → i ∉ (s.ctx c).delivered →
    chunkOpen (openCtx (ctxQuill c) s c) c i = true ∨
      slotsOf s (ctxQuill c) ≤ slotsUsed (openCtx (ctxQuill c) s c) (ctxQuill c)) ∧
  ((s.ctx c).st = .running → ∀ x f, (x, f) ∈ (s.ctx c).joined → Answers .creditRefresh s fun t =>
    t.ctxs = s.ctxs ∧ t.chunks = s.chunks ∧
    ∃ y ∈ t.inputQ (ingQuill (ctxQuill c)), y.pkt.hdr.op = Op.credit ∧ y.pkt.hdr.dst = f ∧
      y.pkt.payload = leBytes 16 (c + (s.ctx c).cgen.toNat * 2 ^ 16 + (s.ctx c).limit * 2 ^ 32 + (s.ctx c).low * 2 ^ 64)) ∧
  (∀ m : Msg, c = bits (leAt m.body 0 16) 15 0 → (s.ctx c).st = .mirror → (s.ctx c).cgen = BitVec.ofNat 8 (bits (leAt m.body 0 16) 23 16) →
    (s.ctx c).partner = m.hdr.src → m.hdr.src ≠ 0 → (s.ctx c).part.val = m.hdr.part.toNat →
    (s.ctx c).oepoch.toNat ≤ m.hdr.aux.toNat → Answers (.credit m) s fun t =>
      (t.ctx c).st = .mirror ∧ (t.ctx c).mirror = 4 ∧ (t.ctx c).recLimit = bits (leAt m.body 0 16) 63 32 ∧
      (t.ctx c).recLow = bits (leAt m.body 0 16) 95 64 ∧ (t.ctx c).oepoch = m.hdr.aux)) ∧
  (∀ (s : State) (by_ : Caller) (i : BitVec 16) (c : Nat) (v : Ctx) (f : BitVec 32) (n : BitVec 16),
  c = i.toNat → v = s.ctx c →
  (v.mirror = 1 → v.opener = none → LeadsTo (.mirrorOpenTimeout i) s (s.setCtx c { v with partner := 0, mirror := 0, mirrorKey := none })) ∧
  (v.mirror = 1 → ∀ m r, v.opener = some m → findOp s m.hdr = some r → r.ndup = 0 → m.hdr.mcast = false →
    Answers (.mirrorOpenTimeout i) s fun t =>
    t.ctx c = { v with partner := 0, mirror := 0, mirrorKey := none, opener := none } ∧ Sends s t (ingQuill (ctxQuill c))
      [mkCmpl s m.hdr St.ok (cflgOf false false (quillDegraded s (ctxQuill c)) false) (v.cgen.setWidth 16)]) ∧
  (v.mirror ≠ 1 → v.opener = none → exec (.mirrorOpenTimeout i) s = .next s) ∧
  (ownerWrites s by_ v.part.val = true → v.st = .mirror → v.mirror = 4 → quillOk s (ctxQuill c) = true →
    Answers (.mirrorPromote by_ i) s fun t =>
      WriteOk by_ t ∧ (t.ctx c).st = .running ∧ (t.ctx c).oepoch = v.oepoch + 1 ∧ (t.ctx c).low = v.recLow ∧ (t.ctx c).joined = [] ∧
      t.c (okey 0xA600 6) = (s.c (okey 0xA600 6) + 1) % 2 ^ 64) ∧
  (ownerWrites s by_ v.part.val = true → v.st = .running → v.mirror = 0 → f.toNat % 256 = 0 → f.toNat < 2 ^ 24 → f ≠ 0 →
    f.toNat ≠ (devFid s).toNat → Answers (.mirrorRetarget by_ i f) s fun t =>
      WriteOk by_ t ∧ (t.ctx c).partner = f.setWidth 24 ∧ (t.ctx c).mirror = 1 ∧ (t.ctx c).st = .running ∧
      ∃ p : Packet, Sends s t (ingQuill (ctxQuill c)) [p] ∧ p.hdr.op = Op.collCtl ∧ p.hdr.dst = f.setWidth 24) ∧
  (ownerWrites s by_ v.part.val = true → v.st = .running → v.mirror = 1 ∨ v.mirror = 2 → v.partner ≠ 0 → f.toNat % 256 = 0 →
    f.toNat < 2 ^ 24 → f ≠ 0 → f.toNat ≠ (devFid s).toNat → Answers (.mirrorRetarget by_ i f) s fun t =>
      WriteOk by_ t ∧ (t.ctx c).partner = f.setWidth 24 ∧ (t.ctx c).mirror = 1 ∧
      ∃ p p' : Packet, Sends s t (ingQuill (ctxQuill c)) [p, p'] ∧ p.hdr.op = Op.collCtl ∧ ccCmd p.hdr = 4 ∧ p.hdr.dst = v.partner ∧
        p'.hdr.op = Op.collCtl ∧ ccCmd p'.hdr = 1 ∧ p'.hdr.dst = f.setWidth 24) ∧
  (oprOver s by_ v.part.val = true → quillOk s (ctxQuill c) = true → v.st ≠ .free → Answers (.ctxAbort by_ i) s fun t =>
    WriteOk by_ t ∧ t.ctx c = { cgen := v.cgen, used := true } ∧ (∀ k ∈ t.chunks, k.ctx ≠ c) ∧ t.mem = s.mem) ∧
  (isOpr s by_ = true → 16 ≤ n.toNat → n.toNat ≤ 315 → allCtxFree s = true →
    (∀ q ∈ enabledQuills s, (unitsUsed s q).length ≤ unitsOffered s q n.toNat) →
    exec (.chunkSlots by_ n) s = .next ((s.setO (okey 0x7000 1) n.toNat).emit (.answer by_ Ds.ok 0 []))))

/-- R263, R264, R265, R272, R292, R376, R293, R294, R296: The writes that give a table its record, its next record and its next digest, and the mark that
TABLE_SYNC sets. TABLE_SWITCH puts the staged record in service under the next TGEN; TABLE_DELETE frees the table, or retires it while a request of it
runs. -/
def Obligations.GatherTables : Prop :=
  (∀ (s : State) (by_ : Caller) (i : BitVec 16) (w : BitVec 512) (dg : BitVec 256) (v : Table),
  v = s.table i.toNat → i.toNat < 4096 → isOpr s by_ = true ∨ by_.role = .prt →
  (ownerWrites s by_ (tableOwner w) = true →
    (recordFault s w none (v.st == .free) = none → exec (.tableWrite by_ [(i, w)]) s =
      .next ((s.setTable i.toNat { v.takeDigest with st := .serving, word := w, tgen := 0, staged := none, oldGens := [] }).emit
        (.answer by_ Ds.ok 0 []))) ∧
    (ownerWrites s by_ (tableOwner v.word) = true → v.st = .serving → recordFault s w (some v.word) true = none →
      exec (.tableStage by_ [(i, w)]) s =
        .next ((s.setTable i.toNat { v with staged := some w }).emit (.answer by_ Ds.ok 0 [])))) ∧
  (ownerWrites s by_ (tableOwner v.word) = true → exec (.wdigestStage by_ [(i, dg)]) s =
    .next ((s.setTable i.toNat { v with wstaged := some dg }).emit (.answer by_ Ds.ok 0 []))) ∧
  (tableCaller s by_ v = true → Answers (.tableSync by_ i) s fun t =>
    WriteOk by_ t ∧ (∀ j, j ≠ i.toNat → t.table j = s.table j) ∧
    t.quills = s.quills.map (fun e => (e.1, { e.2 with runs := e.2.runs.map fun r => { r with
      sync := r.table == i.toNat
      wdigest := if v.st ≠ .free ∧ r.table = i.toNat ∧ r.tgen = v.tgen then BitVec.allOnes 256 else r.wdigest } })) ∧
    (t.table i.toNat).wdigest = if v.st = .free then v.wdigest else BitVec.allOnes 256)) ∧
  (∀ (s : State) (by_ : Caller) (i : BitVec 16) (v : Table),
  v = s.table i.toNat → i.toNat < 4096 → v.st = .serving → tableCaller s by_ v = true →
  (∀ w, v.staged = some w → (s.quill (tSquill w)).jobs = [] → Answers (.tableSwitch by_ i) s fun t =>
    WriteOk by_ t ∧ (t.table i.toNat).st = .serving ∧ (t.table i.toNat).word = w ∧ (t.table i.toNat).tgen = v.tgen + 1 ∧
    (t.table i.toNat).staged = none ∧ (t.table i.toNat).wdigest = v.wstaged.getD 0 ∧ (∀ j, j ≠ i.toNat → t.table j = s.table j)) ∧
  (v.staged = none → Rejects (.tableSwitch by_ i) by_ s Ds.valueRejected) ∧
  ((∀ e ∈ s.quills, e.2.jobs = [] ∧ e.2.wins = []) → Answers (.tableDelete by_ i) s fun t =>
    WriteOk by_ t ∧ (t.table i.toNat).st = (if (tableRuns s i.toNat).isEmpty then .free else .retiring) ∧
    (t.table i.toNat).staged = none ∧ (∀ j, j ≠ i.toNat → t.table j = s.table j)))

/-- R266, R276, R280, R281, R300, R599, R273, R277, R278, R279, R282: What an arriving BAG, SCATTER_ADD or FILTER does. It is refused where its table does
not admit it or its header breaks a rule; otherwise it joins the quill's queue, or the batch window it names; the window's last request closes it. The
passes of a quill. A waiting request whose accumulators fit starts its pass; a finished pass over one BAG answers the pooled rows and counts the
positions taken from the default row; a window that is not filled in time closes; and the popularity counts are halved. -/
def Obligations.GatherRequests : Prop :=
  (∀ (s : State) (m : Msg) (i q : Nat) (v : Table),
  i = gTable m.hdr → v = s.table i → q = tSquill v.word → quillOk s q = true → v.st ≠ .free → FirstTime s m.hdr → mustWait s m = false →
  m.hdr.mcast = false →
  ∀ c, (c = .bag m ∧ m.hdr.op = Op.bag) ∨ (c = .filter m ∧ m.hdr.op = Op.filter) ∨ (c = .scatterAdd m ∧ m.hdr.op = Op.scatterAdd) →
  (tableAdmits s v m.hdr = false → Answers c s fun t => t.quills = s.quills ∧ t.mem = s.mem ∧
    (t.table i).requests = v.requests + 1 ∧ Sends s t (ingQuill q) [mkCmpl s m.hdr St.accessDenied (quillFlag s q) 0]) ∧
  (tableAdmits s v m.hdr = true → queueMsgs (s.quill q) < 65536 → queueBytes (s.quill q) + m.body.length ≤ 2 ^ 23 →
    (∀ st, gRefusal m (tRowlen v.word) = some st → Answers c s fun t => t.quills = s.quills ∧ t.mem = s.mem ∧
      (t.table i).requests = v.requests + 1 ∧ Sends s t (ingQuill q) [mkCmpl s m.hdr st (quillFlag s q) 0]) ∧
    (gRefusal m (tRowlen v.word) = none →
      (gWin m = 0 → (s.quill q).runs.any (·.stage == .idle) = true → Answers c s fun t =>
        t.quill q = { s.quill q with jobs := (s.quill q).jobs ++ [{ win := false, reqs := [{ msg := m, table := i }] }] } ∧
        (∀ j, j ≠ q → t.quill j = s.quill j) ∧ t.inq = s.inq ∧ t.mem = s.mem) ∧
      (∀ key : WinKey, gWin m ≠ 0 →
        key = { op := m.hdr.op, table := BitVec.ofNat 12 i, part := m.hdr.part, win := BitVec.ofNat 16 (gWin m) } →
        ((s.quill q).wins.find? (fun w => w.key == key) = none → key ∉ (s.quill q).served → (s.quill q).wins.length < 16 →
          1 < gWcnt m → Answers c s fun t =>
            t.quill q = { s.quill q with
              wins := (s.quill q).wins ++ [{ key := key, wcnt := gWcnt m, reqs := [{ msg := m, table := i }] }] } ∧
            (∀ j, j ≠ q → t.quill j = s.quill j) ∧ t.inq = s.inq ∧ t.mem = s.mem) ∧
        (∀ w, (s.quill q).wins.find? (fun w => w.key == key) = some w → w.wcnt = gWcnt m → w.reqs.length + 1 = w.wcnt →
          ((w.reqs ++ [({ msg := m, table := i } : GReq)]).map fun x => gNidx x.msg).sum ≤ 2 ^ 20 → Answers c s fun t =>
            t.quill q = { s.quill q with
              wins := (s.quill q).wins.filter fun x => x.key != key
              served := (s.quill q).served ++ [key]
              jobs := (s.quill q).jobs ++ [{ win := true, reqs := w.reqs ++ [{ msg := m, table := i }] }] } ∧
            (∀ j, j ≠ q → t.quill j = s.quill j) ∧ t.inq = s.inq ∧ t.mem = s.mem))))) ∧
  (∀ (s : State) (q : Quill) (v : QuillSt) (g : GReq), v = s.quill q.val →
  (v.runs = [] → v.jobs = [{ win := false, reqs := [g] }] → g.msg.hdr.op = Op.bag → gNidx g.msg ≤ 4096 → removing s (quillOwner s q.val) = false →
    itemElems (tRowlen (s.table g.table).word) g ≤ min 131072 (1024 * (slotsOf s q.val - slotsUsed s q.val)) →
    Answers (.passStart q) s fun t => (t.quill q.val).jobs = [] ∧ t.mem = s.mem ∧ ∃ r : Run, (t.quill q.val).runs = [r] ∧
      r.reqs = [g] ∧ r.table = g.table ∧ r.word = (s.table g.table).word ∧ r.tgen = (s.table g.table).tgen ∧ r.stage = .reading ∧
      r.cur = 1) ∧
  (∀ (r : Run) rop f, v.runs = [r] → v.jobs = [] → r.ready = true → r.esc.isSome = true → r.stage = .reading → r.reqs = [g] → r.cur = 1 →
    g.msg.hdr.op = Op.bag → g.msg.hdr.seal = false → (∀ x ∈ gIndices g.msg, r.posStatus x = St.ok) →
    gRop g.msg = some rop → gOfmt g.msg = some f → f.isMx = false →
    Answers (.gatherRequestDone q) s fun t => (t.quill q.val).runs = [] ∧ t.mem = s.mem ∧
      (t.table r.table).requests = (s.table r.table).requests + 1 ∧
      ∀ p ∈ mkCmplData s g.msg.hdr
          (cflgOf (decide (0 < defaultUsed r g.msg)) (writeVec f false (poolBag r g.msg rop).rs).nanSeen (quillDegraded s q.val) false)
          (BitVec.ofNat 16 (defaultUsed r g.msg)) (writeVec f false (poolBag r g.msg rop).rs).bytes,
        ∃ y ∈ t.inputQ (ingQuill q.val), y.pkt = p) ∧
  (∀ (k : WinKey) (w : Win), v.wins.find? (fun x => x.key == k) = some w → LeadsTo (.winTimeout q k) s (s.setQuill q.val { v with
    wins := v.wins.filter fun x => x.key != k, served := v.served ++ [k], jobs := v.jobs ++ [{ win := true, reqs := w.reqs }] })) ∧
  (∀ k : WinKey, k ∈ v.served → exec (.windowKeyServedEnd q k) s =
    .next (s.setQuill q.val { v with served := v.served.filter (· != k) })) ∧
  Answers .popHalving s (fun t => t.mem = s.mem ∧
    t.quill q.val = { v with pop := v.pop.map fun p => { p with count := p.count / 2 } }))

/-- R306, R307, R312, R318, R313, R314, R315, R316, R317: OBJ_WRITE makes an object at its home, OBJ_DELETE frees one, and OBJ_MOVE queues a move to a
destination that no rule refuses. An engine takes its next move and the move's piece into TRANSIT; a piece that has landed is stored at the
destination, and the last one makes the destination the home and completes the request; a piece that fails leaves the object SPLIT. -/
def Obligations.ObjectsAndMoves : Prop :=
  (∀ (s : State) (by_ : Caller) (i : BitVec 16) (w : BitVec 512) (m : Msg) (n : Nat) (o : Obj),
  (i.toNat < 16384 → isOpr s by_ = true ∨ by_.role = .prt → ownerWrites s by_ (odOwner w) = true → descriptorOk s i.toNat w = true →
    Answers (.objWrite by_ [(i, w)]) s fun t => WriteOk by_ t ∧ (∀ j, j ≠ i.toNat → t.object j = s.object j) ∧
      (t.object i.toNat).st = .home ∧ (t.object i.toNat).owner.val = odOwner w ∧ (t.object i.toNat).size = odSize w ∧
      (t.object i.toNat).homea.toNat = odHomea w ∧ (isT0 (odHomea w) = false → t.mem = s.mem) ∧
      (isT0 (odHomea w) = true → (t.object i.toNat).unitsH = (unitsFree s (odHomea w % 64)).take (odSize w))) ∧
  (o = s.object i.toNat → i.toNat < 16384 → o.st = .home ∨ o.st = .split → ownerWrites s by_ o.owner.val = true →
    exec (.objDelete by_ i) s = .next ((s.setObject i.toNat {}).emit (.answer by_ Ds.ok 0 []))) ∧
  (n = bits m.hdr.addr.toNat 47 34 → o = s.object n → w = BitVec.ofNat 512 (leAt m.body 0 64) → FirstTime s m.hdr → mustWait s m = false →
    m.hdr.mcast = false → spaceOf m.hdr.addr.toNat = 2 → bits m.hdr.addr.toNat 33 0 = 0 → m.body.length = 64 → o.st = .home ∨ o.st = .split →
    o.owner.val = m.hdr.part.toNat → odValid w = true → odOwner w = o.owner.val → odOkind w = o.okind → odSize w = o.size →
    (∀ st, destRefusal s n o (odDsta w) = some st → Answers (.objMove m) s fun t => t.objects = s.objects ∧ t.moveQ = s.moveQ ∧
      t.mem = s.mem ∧ Sends s t ingMemory [mkCmpl s m.hdr st 0 0]) ∧
    (destRefusal s n o (odDsta w) = none → alreadyHome o (odDsta w) = true → Answers (.objMove m) s fun t =>
      t.objects = s.objects ∧ t.moveQ = s.moveQ ∧ t.mem = s.mem ∧ Sends s t ingMemory [mkCmpl s m.hdr St.ok 0 0]) ∧
    (destRefusal s n o (odDsta w) = none → alreadyHome o (odDsta w) = false → isT0 (odDsta w) = false → Answers (.objMove m) s fun t =>
      (t.object n).st = .moving ∧ (t.object n).dsta.toNat = odDsta w ∧ (∀ j, j ≠ n → t.object j = s.object j) ∧ t.mem = s.mem ∧
      t.inq = s.inq ∧ ∃ x : Move, t.moveQ = s.moveQ ++ [x] ∧ x.obj = n ∧ x.req = some m ∧
        x.engine = moveEngine s n o (odDsta w)))) ∧
  (∀ (s : State) (e : Fin 22) (m : Move) (o : Obj), o = s.object m.obj →
  (s.moves.any (fun x => x.engine == e.val) = false → s.moveQ.find? (fun x => x.engine == e.val && !removing s (s.object x.obj).owner.val) = some m →
    m.transit = false → pieceBusy s m.obj m.piece = false → Answers (.moveStart e) s fun t =>
      t.moveQ = s.moveQ.erase m ∧ t.objects = s.objects ∧ t.mem = s.mem ∧
      ∃ x ∈ t.moves, x.engine = e.val ∧ x.obj = m.obj ∧ x.piece = m.piece ∧ x.req = m.req ∧ x.transit = true) ∧
  (s.moves.find? (fun x => x.engine == e.val) = some m → m.transit = true → s.transitWait = [] →
    (∀ a b x y d r rec_, m.ends = some (a, b) → a.loc = .phys x → b.loc = .phys y → m.rd = none → m.wr = none →
      readPhys s x 65536 = some d → firstDead s y 65536 = none → o.size ≤ m.piece + 1 → m.req = some r →
      findOp s r.hdr = some rec_ → rec_.ndup = 0 → r.hdr.mcast = false → Answers (.pieceLanded e St.ok) s fun t =>
        Stored s t y d ∧ (∀ j, j ≠ m.obj → t.object j = s.object j) ∧
        t.object m.obj = { o with st := .home, homea := o.dsta, dsta := 0, unitsH := o.unitsD, unitsD := [], pieces := [], moved := 0,
                                  sched := none } ∧
        t.moves = s.moves.filter (fun x => x.engine != e.val) ∧
        Sends s t ingMemory [mkCmpl s r.hdr St.ok 0 (BitVec.ofNat 16 (m.count + 1))]) ∧
    (∀ st : BitVec 8, st ≠ St.ok → m.req = none → Answers (.pieceLanded e st) s fun t =>
      t.mem = s.mem ∧ t.object m.obj = { o with st := .split, sched := none } ∧ (∀ j, j ≠ m.obj → t.object j = s.object j) ∧
      t.moves = s.moves.filter (fun x => x.engine != e.val) ∧ Logs s t 0x0602)))

/-- R319, R320, R321, R322: the records and pool entries of prefetch schedules, their activation and stop, and what a TRIGGER does: a new step restarts
the schedule, a layer boundary of the same step advances it, and a stale or malformed TRIGGER is counted. -/
def Obligations.PrefetchSchedules : Prop := ∀ (s : State) (by_ : Caller) (n : BitVec 8) (w : BitVec 64) (i : BitVec 16) (e : BitVec 128)
    (m : Msg) (v : Sched),
  (v = s.sched (bits w.toNat 7 0) → bits w.toNat 7 0 < 64 → bits w.toNat 14 8 < 32 → isOpr s by_ = true ∨ by_.role = .prt →
    ownerWrites s by_ (bits w.toNat 14 8) = true → v.valid = false → v.active = false →
    Answers (.pfSchedWrite by_ [w]) s fun t => WriteOk by_ t ∧ (∀ j, j ≠ bits w.toNat 7 0 → t.sched j = s.sched j) ∧
      (t.sched (bits w.toNat 7 0)).valid = bit w.toNat 15 ∧ (t.sched (bits w.toNat 7 0)).owner.val = bits w.toNat 14 8 ∧
      (t.sched (bits w.toNat 7 0)).nent = bits w.toNat 31 16 ∧ (t.sched (bits w.toNat 7 0)).base = bits w.toNat 47 32) ∧
  (i.toNat < 16384 → isOpr s by_ = true ∨ by_.role = .prt → ownerWrites s by_ (entryOwner s i.toNat) = true →
    s.scheds.any (fun x => x.2.active && inRange x.2 i.toNat) = false → exec (.pfEntryWrite by_ [(i, e)]) s =
      .next ({ s with pfPool := Sparse.set 0 s.pfPool i.toNat e }.emit (.answer by_ Ds.ok 0 []))) ∧
  (v = s.sched n.toNat → n.toNat < 64 → ownerWrites s by_ v.owner.val = true →
    (v.valid = true → v.active = false → schedOk s n.toNat v = true → exec (.pfActivate by_ n) s =
      .next ((s.setSched n.toNat { v with active := true, step := 0, layer := 1 }).emit (.answer by_ Ds.ok 0 []))) ∧
    (v.valid = true → v.active = false → schedOk s n.toNat v = false → Rejects (.pfActivate by_ n) by_ s Ds.valueRejected) ∧
    (v.active = true → exec (.pfStop by_ n) s =
      .next ((s.setSched n.toNat { v with active := false }).emit (.answer by_ Ds.ok 0 [])))) ∧
  (triggerOk s m = false → Answers (.trigger m) s fun t =>
    t.scheds = s.scheds ∧ t.objects = s.objects ∧ t.c (okey 0x5400 9) = (s.c (okey 0x5400 9) + 1) % 2 ^ 64) ∧
  (triggerOk s m = true → v = s.sched (trSched m.body) →
    (trKind m.body = 2 → newer (trStep m.body) v.step = true → s.staged = none → Answers (.trigger m) s fun t =>
      (t.sched (trSched m.body)).step = trStep m.body ∧ (t.sched (trSched m.body)).layer = 1 ∧
      (∀ j, j ≠ trSched m.body → t.sched j = s.sched j)) ∧
    (trKind m.body = 2 → newer (trStep m.body) v.step = false → Answers (.trigger m) s fun t =>
      t.scheds = s.scheds ∧ t.objects = s.objects ∧ t.c (okey 0x5400 8) = (s.c (okey 0x5400 8) + 1) % 2 ^ 64) ∧
    (trKind m.body = 1 → trStep m.body = v.step → v.layer ≤ trLayer m.body → Answers (.trigger m) s fun t =>
      t.sched (trSched m.body) = { v with layer := trLayer m.body + 1 } ∧ (∀ j, j ≠ trSched m.body → t.sched j = s.sched j)))

/-- R340, R342, R343, R344, R345, R346, R347, R360: What an arriving ENCODE of each command does. A BUILD or LOAD takes an EMPTY entry of its slot, under
the next generation or the image's, or waits for one; an ENCODE holds its generation; a RETIRE empties an entry that nothing refers to. The dictionary
writes of basis slots. -/
def Obligations.CompressionRequests : Prop :=
  (∀ (s : State) (m : Msg) (p q ing sl : Nat) (f : BitVec 8),
  p = m.hdr.part.toNat → q = leadQuill s p → ing = (if (partQuills s p).isEmpty then ingMemory else ingQuill q) → f = quillFlag s q →
  sl = eSlot m → FirstTime s m.hdr → mustWait s m = false → m.hdr.mcast = false → (s.slot sl).entries.length = 4 → (∀ x ∈ s.basisJobs, x.slot = sl → x.stage ≠ .waiting) →
  (∀ c, c = .build m ∨ c = .encode m ∨ c = .basisLoad m ∨ c = .basisRetire m → ∀ st, encRefusal s m = some st → Answers c s fun t =>
    t.slots = s.slots ∧ t.basisJobs = s.basisJobs ∧ t.encJobs = s.encJobs ∧ t.mem = s.mem ∧ Sends s t ing [mkCmpl s m.hdr st f 0]) ∧
  (encRefusal s m = none →
    (eCmd m = 1 → ∀ i, emptyEntry s sl = some i → Answers (.build m) s fun t => t.mem = s.mem ∧
      entryOf t sl i = { st := .loading, gen := nextGen s sl, rank := eRank m } ∧ (t.slot sl).last = nextGen s sl ∧
      (∀ j, j ≠ sl → t.slot j = s.slot j) ∧ ∃ x ∈ t.basisJobs, x.msg = m ∧ x.stage = .reading ∧ x.gen = nextGen s sl) ∧
    (eCmd m = 1 → emptyEntry s sl = none → Answers (.build m) s fun t => t.mem = s.mem ∧ t.slots = s.slots ∧
      Logs s t 0x0703 ∧ ∃ x ∈ t.basisJobs, x.msg = m ∧ x.stage = .waiting) ∧
    (eCmd m = 2 → ∀ i, findGen s sl (eGen m) isReady = some i → Answers (.encode m) s fun t => t.mem = s.mem ∧
      entryOf t sl i = { entryOf s sl i with refs := (entryOf s sl i).refs + 1 } ∧
      t.encJobs = s.encJobs ++ [{ msg := m, slot := sl, entry := i }]) ∧
    (eCmd m = 2 → findGen s sl (eGen m) isReady = none → Answers (.encode m) s fun t => t.mem = s.mem ∧ t.slots = s.slots ∧
      t.c (okey 0x9002 4) = (s.c (okey 0x9002 4) + 1) % 2 ^ 64 ∧ Sends s t ing [mkCmpl s m.hdr St.clrGenAbsent f 0]) ∧
    (eCmd m = 3 → ∀ g x h i, resolveRange s p (eIaddr m) 32 false = .segs [g] → g.loc = .phys x → g.len = 32 → readPhys s x 32 = some h →
      findGen s sl (BitVec.ofNat 8 (leAt h 0 1)) notEmpty = none → 1 ≤ leAt h 1 1 → leAt h 1 1 ≤ 64 →
      leAt h 4 4 = 32 + 512 * leAt h 1 1 → rangeOk s p (eIaddr m) (32 + 512 * leAt h 1 1) false = true → emptyEntry s sl = some i →
      Answers (.basisLoad m) s fun t => t.mem = s.mem ∧
        entryOf t sl i = { st := .loading, gen := BitVec.ofNat 8 (leAt h 0 1), rank := leAt h 1 1 } ∧
        (∀ j, j ≠ sl → t.slot j = s.slot j) ∧ ∃ y ∈ t.basisJobs, y.msg = m ∧ y.stage = .reading) ∧
    (eCmd m = 4 → ∀ i, findGen s sl (eGen m) isReady = some i → Answers (.basisRetire m) s fun t => t.mem = s.mem ∧
      entryOf t sl i = (if (entryOf s sl i).refs = 0 then {} else { entryOf s sl i with st := .retiring }) ∧
      Sends s t ing [mkCmpl s m.hdr St.ok f 0]))) ∧
  (∀ (s : State) (by_ : Caller) (w : BitVec 64) (v : BitVec 8) (n : BitVec 32) (i : Nat),
  (isOpr s by_ = true ∨ by_.role = .prt → bits w.toNat 15 0 < 512 → bits w.toNat 22 16 < 32 → ownerWrites s by_ (bits w.toNat 22 16) = true →
    (s.slot (bits w.toNat 15 0)).valid = false → Answers (.slotWrite by_ [w]) s fun t => WriteOk by_ t ∧ t.mem = s.mem ∧
      (t.slot (bits w.toNat 15 0)).valid = bit w.toNat 23 ∧ (t.slot (bits w.toNat 15 0)).owner.val = bits w.toNat 22 16 ∧
      (t.slot (bits w.toNat 15 0)).entries = (s.slot (bits w.toNat 15 0)).entries ∧
      (∀ j, j ≠ bits w.toNat 15 0 → t.slot j = s.slot j)) ∧
  (isOpr s by_ = true → sliceExists s v.toNat = true → (∀ e ∈ s.slots, ∀ g ∈ e.2.entries, g.st = .empty) → sliceGranted s v.toNat = false →
    v.toNat ∉ dirSliceList s → v.toNat ∉ (List.range 16).map (queueSliceOf s) → v.toNat ∉ spillSliceList s →
    exec (.basisSlice by_ v) s = .next ((s.setO (okey 0x9000 1) v.toNat).emit (.answer by_ Ds.ok 0 []))) ∧
  (oprOver s by_ (s.slot (bits n.toNat 8 0)).owner.val = true → (s.slot (bits n.toNat 8 0)).entries.length = 4 →
    (∀ x ∈ s.basisJobs, x.slot = bits n.toNat 8 0 → x.stage ≠ .waiting) →
    (findGen s (bits n.toNat 8 0) (BitVec.ofNat 8 (bits n.toNat 23 16)) isReady = some i → Answers (.genRetire by_ n) s fun t =>
      WriteOk by_ t ∧ t.mem = s.mem ∧ entryOf t (bits n.toNat 8 0) i =
        (if (entryOf s (bits n.toNat 8 0) i).refs = 0 then {} else { entryOf s (bits n.toNat 8 0) i with st := .retiring })) ∧
    (findGen s (bits n.toNat 8 0) (BitVec.ofNat 8 (bits n.toNat 23 16)) isReady = none →
      Rejects (.genRetire by_ n) by_ s Ds.valueRejected)))

/-- R342, R344, R350, R352: how a BUILD, a wait for an entry and an ENCODE end. The entry whose image is written is READY and the request completes with
its generation; a wait that lasts too long completes BUSY; an ENCODE whose last block is written completes with the number of RAW blocks and lets its
generation go. -/
def Obligations.CompressionEnds : Prop := ∀ (s : State) (k : ReqKey) (p q ing : Nat) (f : BitVec 8) (r : OpRec) (h : Hdr),
  p = h.part.toNat → q = leadQuill s p → ing = (if (partQuills s p).isEmpty then ingMemory else ingQuill q) → f = quillFlag s q →
  findOp s h = some r → r.ndup = 0 → h.mcast = false →
  (∀ (sl : Fin 512) (e : Fin 4) (j : BasisJob), (s.slot sl.val).entries.length = 4 → j.msg.hdr = h → j.stage = .writing → allDone j.writes = true →
    failedSub j.writes = none →
    (s.basisJobs.find? fun x => x.slot == sl.val && x.entry == e.val && (x.stage == .reading || x.stage == .writing)) = some j →
    Answers (.basisWritten sl e) s fun t => t.mem = s.mem ∧
      entryOf t sl.val e.val = { entryOf s sl.val e.val with st := .ready, digest := digest256 j.image } ∧
      t.basisJobs = s.basisJobs.filter (fun x => !sameJob x.msg j.msg) ∧
      Sends s t ing [mkCmpl s h St.ok f (BitVec.ofNat 16 j.gen.toNat)]) ∧
  (∀ j : BasisJob, j.msg.hdr = h → (s.basisJobs.find? fun x => hdrKey x.msg.hdr == k && x.stage == .waiting) = some j →
    Answers (.genWaitTimeout k) s fun t => t.mem = s.mem ∧ t.slots = s.slots ∧
      t.basisJobs = s.basisJobs.filter (fun x => !sameJob x.msg j.msg) ∧ Sends s t ing [mkCmpl s h St.busy f 0]) ∧
  (∀ j : EncJob, j.msg.hdr = h → (s.encJobs.find? fun x => hdrKey x.msg.hdr == k) = some j → j.wrote = true → j.indexed = true → allDone j.writes = true →
    failedSub j.writes = none → j.block + 1 = blockCount j.msg → (entryOf s j.slot j.entry).st = .ready →
    (s.slot j.slot).entries.length = 4 → j.entry < 4 →
    Answers (.encodeDone k) s fun t => t.mem = s.mem ∧
      entryOf t j.slot j.entry = { entryOf s j.slot j.entry with refs := (entryOf s j.slot j.entry).refs - 1 } ∧
      t.encJobs = s.encJobs.filter (fun x => !sameJob x.msg j.msg) ∧
      t.c (okey 0x9002 5) = (s.c (okey 0x9002 5) + 1) % 2 ^ 64 ∧
      Sends s t ing [mkCmpl s h St.ok f (BitVec.ofNat 16 ((j.nraw + b2n j.raw) % 65536))])

/-- R338, R353, R354, R355, R356, R357, R358: an EXPAND that breaks a rule of its header fails as a whole; one RAW block whose header is sound is queued
at its expander, and when its bytes are read the response carries its elements. -/
def Obligations.Expansion : Prop := ∀ (s : State) (m : Msg) (p x : Nat) (g : Seg),
  p = m.hdr.part.toNat → g.loc = .phys x →
  (∀ st, expRefusal m = some st → mustWait s m = false → Answers (.expand m) s fun t => t.expanders = s.expanders ∧ t.expResps = s.expResps ∧ t.mem = s.mem ∧
    Sends s t ingMemory [mkCmpl s m.hdr st 0 0]) ∧
  (∀ h, expRefusal m = none → mustWait s m = false → xNblk m = 1 → s.expResps = [] → (∀ e, e < 6 → (expQueue s e).length < 1024) →
    resolveRange s p (xBaddr m 0) 32 false = .segs [g] → g.len = 32 → readPhys s x 32 = some h → bKind h = 1 →
    (srcFmt (bSfmt h)).isSome = true → bRank h ≤ 64 → bNres h ≤ 512 → impliedSize h = bDsize h → bRows h * bCols h = bDelem h →
    Answers (.expand m) s fun t => t.mem = s.mem ∧ t.inq = s.inq ∧ t.slots = s.slots ∧ ∃ b : ExpBlock,
      expQueue t (expanderOf s p 0 (xBaddr m 0)) = expQueue s (expanderOf s p 0 (xBaddr m 0)) ++ [b] ∧ b.hdr = h ∧
      b.baddr.toNat = xBaddr m 0 ∧ b.entry = none ∧ b.n = 0) ∧
  (∀ (stack : Fin 6) (b : ExpBlock) (rest : List ExpBlock) (r : ExpResp) (o : ExpPart) (fmt : Fmt) (raw d : List Byte),
    expQueue s stack.val = b :: rest → b.part.val = p → b.read = none → b.entry = none → b.n = 0 → s.expResps = [r] →
    r.accepted = true → r.id = b.id → r.blocks = [o] → r.msg = m → xNblk m = 1 → m.hdr.seal = false → srcFmt (xOfmt m) = some fmt →
    resolveRange s p b.baddr.toNat (bDsize b.hdr) false = .segs [g] → g.len = bDsize b.hdr → readPhys s x (bDsize b.hdr) = some raw →
    expandBlock fmt b.hdr (raw.drop 32) [] = some d →
    Answers (.expandBlockDone stack) s fun t => t.mem = s.mem ∧ expQueue t stack.val = rest ∧ t.expResps = [] ∧
      t.c (okey 0x9002 1) = (s.c (okey 0x9002 1) + 1) % 2 ^ 64 ∧
      Sends s t ingMemory (mkCmplData s m.hdr 0 0
        (leBytes 2 1 ++ leBytes 2 0 ++ List.replicate 12 0 ++ padTo 16 [St.ok] ++ padTo 16 d)))

/-- R368, R369, R373, R378, R379: CG_INPUT runs a counter through every generator instance. Where all agree, CG_OUTPUT is the output of R368 and CG_AGREE
is 1 (held as its complement). Where one tile's instance of at least three disagrees, CG_OUTPUT is the output of the others and the instance is
quarantined. BATCH_SIGN closes the open batch unless a signature is pending, and the signature makes the signed batch readable under the next batch
number. -/
def Obligations.GeneratorAndSealBatches : Prop :=
  (∀ (s : State) (by_ : Caller) (key : BitVec 64) (cw : Vector (BitVec 32) 4),
  isOpr s by_ = true → cgInstances s ≠ [] →
  Answers (.cgInput by_ key cw []) s (fun t => WriteOk by_ t ∧ t.mem = s.mem ∧ t.c (okey 0x7300 3) = 0 ∧
    t.c (okey 0x7300 2) = (ctrgen key cw[0] cw[1] cw[2] cw[3]).num ∧
    t.b (okey 0x7300 1) = leBytes 8 key.toNat ++ cw.toList.flatMap fun w => leBytes 4 w.toNat) ∧
  ∀ (i : Fin 80) (v : BitVec 128), i.val ∈ cgInstances s → 64 ≤ i.val → 3 ≤ (cgInstances s).length →
    v.toNat ≠ (ctrgen key cw[0] cw[1] cw[2] cw[3]).num →
    unitState s (unitCode 7 i) = 0 → (recentTransients s (unitCode 7 i)).length < s.o (okey 0xA100 2) → (s.unit (unitCode 7 i)).erred = false →
    Answers (.cgInput by_ key cw [(i, v)]) s fun t => WriteOk by_ t ∧ t.mem = s.mem ∧ t.c (okey 0x7300 3) = 1 ∧
      t.c (okey 0x7300 2) = (ctrgen key cw[0] cw[1] cw[2] cw[3]).num ∧ Logs s t 0x0409 ∧ (t.unit (unitCode 7 i)).st = 1 ∧
      ∀ j, j ≠ unitCode 7 i → t.unit j = s.unit j) ∧
  (∀ (s : State) (by_ : Caller) (p : Part) (v : BitVec 8) (recs : List (List Byte)),
  (ownerWrites s by_ p.val = true →
    (v = 1 → (s.batch p.val).closed = none →
      Performs (.batchSign by_ p v) by_ s (s.setBatch p.val { s.batch p.val with closed := some (s.batch p.val).open_, open_ := [] })) ∧
    (v = 1 → (s.batch p.val).closed ≠ none → Rejects (.batchSign by_ p v) by_ s Ds.busy) ∧
    (v ≠ 1 → Rejects (.batchSign by_ p v) by_ s Ds.outOfRange)) ∧
  (ownerWrites s by_ p.val = false → Rejects (.batchSign by_ p v) by_ s Ds.accessDenied) ∧
  ((s.batch p.val).closed = some recs → Answers (.batchSigned p) s fun t => Logs s t 0x040B ∧ t.mem = s.mem ∧
    (∀ q, q ≠ p.val → t.batch q = s.batch q) ∧
    (t.batch p.val).closed = none ∧ (t.batch p.val).open_ = (s.batch p.val).open_ ∧ (t.batch p.val).number = (s.batch p.val).number + 1 ∧
    (t.batch p.val).signed = batchHeader s p.val ((s.batch p.val).number + 1).toNat recs ++ recs.flatten ++
      dsaSignature ((s.part p.val).attKey.getD 0) (batchHeader s p.val ((s.batch p.val).number + 1).toNat recs)))

/-- R434, R435, R436, R437, R439, R441: an error quarantines a memory channel or a bank or lane that its tile can spare, and retires a channel that has
had too many transients. A self-test that passes restores a channel, one that fails is made again, and a second failure repairs it or retires it and
enters it in the disabled-unit map. -/
def Obligations.QuarantineAndSelfTest : Prop := ∀ (s : State) (by_ : Caller) (w : BitVec 32) (u : Nat),
  u = w.toNat → unitExists s u = true → s.dumap.stkch.length = 6 →
  (unitType u = 2 ∨ unitType u = 4 ∨ unitType u = 5 ∨ unitType u = 6 → unitState s u = 0 → noStandIn s u = false →
    ((recentTransients s u).length < s.o (okey 0xA100 2) → (s.unit u).erred = false → Answers (.unitError w []) s fun t =>
      (t.unit u).st = 1 ∧ (t.unit u).fails = 0 ∧ t.c (okey 0xA100 3) = (s.c (okey 0xA100 3) + 1) % 2 ^ 64 ∧ Logs s t 0x0901 ∧ t.mem = s.mem ∧
      ∀ a v, hasPlace u = true → placeOf s u = some a → freeSpare s u = some v →
        serves t a = unitIndex v % perTile u + 1 ∧ (t.unit v).st = 4 ∧ (t.unit u).stand = unitIndex v % perTile u + 1) ∧
    (isOpr s by_ = true → Answers (.selftestRun by_ w) s fun t => WriteOk by_ t ∧
      (t.unit u).st = 1 ∧ (t.unit u).fails = 0 ∧ Logs s t 0x0901 ∧ t.mem = s.mem)) ∧
  (unitType u = 5 → s.o (okey 0xA100 2) ≤ (recentTransients s u).length → unitState s u = 0 → Answers (.unitError w []) s fun t =>
    (t.unit u).st = 2 ∧ t.c (okey 0xA100 5) = (s.c (okey 0xA100 5) + 1) % 2 ^ 64 ∧ t.mem = s.mem ∧
    t.dumap.stkch.getD (unitIndex u / 32) 0 = s.dumap.stkch.getD (unitIndex u / 32) 0 ||| (1#32 <<< (unitIndex u % 32))) ∧
  (unitType u = 5 → unitState s u = 1 → ∀ r : Bool,
    Answers (.selftestDone w true r) s (fun t => (t.unit u).st = 0 ∧ (t.unit u).trans = recentTransients s u ++ [s.time] ∧
      t.c (okey 0xA100 4) = (s.c (okey 0xA100 4) + 1) % 2 ^ 64 ∧ Logs s t 0x0902 ∧ t.mem = s.mem ∧ ∀ j, j ≠ u → t.unit j = s.unit j) ∧
    ((s.unit u).fails = 0 → Answers (.selftestDone w false r) s fun t => (t.unit u).st = 1 ∧ (t.unit u).fails = 1 ∧ t.mem = s.mem ∧
      ∀ j, j ≠ u → t.unit j = s.unit j) ∧
    ((s.unit u).fails ≠ 0 → Answers (.selftestDone w false true) s fun t => (t.unit u).st = 0 ∧ t.dumap = s.dumap ∧ t.mem = s.mem ∧
      ∀ j, j ≠ u → t.unit j = s.unit j) ∧
    ((s.unit u).fails ≠ 0 → Answers (.selftestDone w false false) s fun t => (t.unit u).st = 2 ∧ t.mem = s.mem ∧
      t.dumap.stkch.getD (unitIndex u / 32) 0 = s.dumap.stkch.getD (unitIndex u / 32) 0 ||| (1#32 <<< (unitIndex u % 32)) ∧
      ∀ j, j ≠ u → t.unit j = s.unit j))

/-- R168, R382, R383, R384, R385, R386, R387, R391, R398: Configuration of a partition that is FREE or OPEN. A value that passes takes effect, a quill
store or slice that changes hands is zeroed, and a value that fails raises PART_CONFIG_REJECTED; in any other state and for any other caller the write
changes nothing. CREATE opens a free partition under a new attestation key pair; SEAL freezes it under a fresh one and ends the VND sessions; a
sealing that times out opens it again. -/
def Obligations.PartitionConfigurationAndSealing : Prop :=
  (∀ (s : State) (by_ : Caller) (p : Part) (h : HostPort) (v : BitVec 128) (hv : BitVec 8) (qv : BitVec 64) (fv : BitVec 32)
    (m : Vector Byte 128), s.memOk → hv.toNat < 4 → fv.toNat < 2 ^ 24 →
  (oprOver s by_ p.val = true → ((s.part p.val).st = .free ∨ (s.part p.val).st = .open_) →
    (grantOk p.val 128 v.toNat (s.part p.val).ports.toNat (portOk s) (portOwner s) (fun i => (s.port i).st == .disabled) = true →
      Performs (.ports by_ p v) by_ s (s.setPart p.val { s.part p.val with ports := v })) ∧
    (grantOk p.val 128 v.toNat (s.part p.val).ports.toNat (portOk s) (portOwner s) (fun i => (s.port i).st == .disabled) = false →
      Rejects (.ports by_ p v) by_ s Ds.valueRejected ∧ Answers (.ports by_ p v) s fun t => Logs s t 0x0802) ∧
    (grantOk p.val 2 hv.toNat (s.part p.val).hosts.toNat (fun _ => true) (hostOwner s) (fun i => s.o (hostObj i 0 1) == 0) = true →
      Performs (.hosts by_ p hv) by_ s (s.setPart p.val { s.part p.val with hosts := BitVec.ofNat 2 hv.toNat })) ∧
    (grantOk p.val 64 qv.toNat (s.part p.val).quills.toNat (quillOk s) (quillOwner s) (quillIdle s) = true →
      Answers (.quills by_ p qv) s fun t => WriteOk by_ t ∧ t.part p.val = { s.part p.val with quills := qv } ∧
        (∀ q, q ≠ p.val → t.part q = s.part q) ∧
        ∀ a, Memory.read t.mem a = if (movingUnits 64 (s.part p.val).quills.toNat qv.toNat).any (fun q => decide (physT0 q 0 ≤ a ∧ a < physT0 q 0 + 2 ^ 23)) then 0
          else Memory.read s.mem a) ∧
    (sliceMapOk s p.val m.toList = true → p.val ≠ 0 → Answers (.sliceMap by_ p m) s fun t => WriteOk by_ t ∧
      t.part p.val = { s.part p.val with slices := m.toList } ∧ (∀ q, q ≠ p.val → t.part q = s.part q) ∧
      ∀ d x, x < 2 ^ 26 → (d ∈ mapSlices (s.part p.val).slices ∧ d ∉ mapSlices m.toList) ∨ (d ∉ mapSlices (s.part p.val).slices ∧ d ∈ mapSlices m.toList) →
        Memory.read t.mem (physSlice d + x) = 0) ∧
    (sliceMapOk s 0 m.toList = true → p.val = 0 → Performs (.sliceMap by_ p m) by_ s (s.setPart 0 { s.part 0 with slices := m.toList })) ∧
    (fv.toNat ≠ 0 → fv.toNat ≠ (devFid s).toNat → Performs (.hfid by_ p h fv) by_ s (s.setO (partObj p.val 1 (5 + h.val)) fv.toNat)) ∧
    (fv.toNat = 0 ∨ fv.toNat = (devFid s).toNat → Rejects (.hfid by_ p h fv) by_ s Ds.valueRejected)) ∧
  (∀ c, c = .ports by_ p v ∨ c = .hosts by_ p hv ∨ c = .quills by_ p qv ∨ c = .sliceMap by_ p m ∨ c = .hfid by_ p h fv →
    (oprOver s by_ p.val = false → Rejects c by_ s Ds.accessDenied) ∧
    (oprOver s by_ p.val = true → (s.part p.val).st ≠ .free → (s.part p.val).st ≠ .open_ → Rejects c by_ s Ds.valueRejected))) ∧
  (∀ (s : State) (by_ : Caller) (p : Part),
  (isOpr s by_ = true → p.val ≠ 0 →
    ((s.part p.val).st = .free → s.power.zeroing = false → Answers (.create by_ p) s fun t => WriteOk by_ t ∧ Logs s t 0x0801 ∧ t.mem = s.mem ∧
      t.part p.val = { s.part p.val with st := .open_, attKey := some (s.free + 1), reports := 0 } ∧ ∀ q, q ≠ p.val → t.part q = s.part q) ∧
    ((s.part p.val).st ≠ .free → Rejects (.create by_ p) by_ s Ds.valueRejected) ∧
    ((s.part p.val).st = .open_ → Answers (.seal by_ p) s fun t => WriteOk by_ t ∧ t.mem = s.mem ∧
      t.part p.val = { s.part p.val with st := .sealing, freshKey := some (s.free + 1), sealAt := some s.time } ∧
      (∀ q, q ≠ p.val → t.part q = s.part q) ∧ ∀ x ∈ t.sessions, x.role ≠ .vnd) ∧
    ((s.part p.val).st ≠ .open_ → Rejects (.seal by_ p) by_ s Ds.valueRejected)) ∧
  (∀ c, c = .create by_ p ∨ c = .seal by_ p → isOpr s by_ = false → Rejects c by_ s Ds.accessDenied) ∧
  ((s.part p.val).st = .sealing → (s.part p.val).finishing = none → Answers (.sealTimeout p) s fun t => Logs s t 0x0804 ∧ t.mem = s.mem ∧
    t.part p.val = { s.part p.val with st := .open_, freshKey := none, sealAt := none } ∧ ∀ q, q ≠ p.val → t.part q = s.part q))

/-- R394, R396, R397, R398, R399: reports and the end of sealing. A report is numbered, signed and kept; a request for one that the partition cannot
answer gets a status. AT_FINISH with the digest of the latest report installs the credential, erases the link keys, empties the slices and seals the
partition, and any other is refused. -/
def Obligations.ReportsAndSealing : Prop := ∀ (s : State) (by_ : Caller) (m : Msg) (p : Nat) (nonce : BitVec 256) (head : List Byte) (n : BitVec 32),
  n = (s.part p).reports + 1 →
  (p = m.hdr.part.toNat → FirstTime s m.hdr → m.hdr.mcast = false →
    (head = reportHead s p n.toNat (s.free + 1) m.body → opxOf m.hdr = 1 → m.body.length = 32 → attests s p = true →
      Answers (.atReq m) s fun t => Logs s t 0x080C ∧ t.mem = s.mem ∧
        t.part p = { s.part p with reports := n, report := head ++ idSign head ++ List.replicate 3 0#8, kemKey := some (s.free + 1), reportOp := some (hdrKey m.hdr) } ∧
        Sends s t ingScribe (mkCmplData s m.hdr 0 0 (head ++ idSign head ++ List.replicate 3 0#8))) ∧
    (opxOf m.hdr = 1 → m.body.length = 32 → attests s p = false → Answers (.atReq m) s fun t => t.parts = s.parts ∧ t.mem = s.mem ∧
      Sends s t ingScribe [mkCmpl s m.hdr St.accessDenied 0 0]) ∧
    (opxOf m.hdr = 3 → m.body.length = 1120 → finishOk s p m.body = false → Answers (.atFinish m) s fun t => t.parts = s.parts ∧ t.mem = s.mem ∧
      Sends s t ingScribe [mkCmpl s m.hdr St.accessDenied 0 0])) ∧
  (p = attSelect s by_ → isOpr s by_ = true → attests s p = true → head = reportHead s p n.toNat (s.free + 1) (bytes32 nonce) →
    Answers (.attReq by_ nonce) s fun t => WriteOk by_ t ∧ Logs s t 0x080C ∧ t.mem = s.mem ∧
      t.part p = { s.part p with reports := n, report := head ++ idSign head ++ List.replicate 3 0#8, kemKey := some (s.free + 1), reportOp := none }) ∧
  (∀ rd k body, finishOk s p body = true → (s.part p).sealAt = none → (∀ e ∈ s.folios, folOwner e.2.word ≠ p) → s.memOk → rd = shake 32 (s.part p).report →
    k = shake 152 (ascii "SKOMIRP1" ++ bytes32 (Config.kemDecap ((s.part p).kemKey.getD 0) (slice body 0 1088)) ++ rd ++ [BitVec.ofNat 8 p]) → body.length = 1120 →
    ∀ c, (c = .atFinish m ∧ p = m.hdr.part.toNat ∧ FirstTime s m.hdr ∧ opxOf m.hdr = 3 ∧ body = m.body) ∨
        (c = .attFinish by_ body ∧ p = attSelect s by_ ∧ isOpr s by_ = true) →
    Answers c s fun t => Logs s t 0x0803 ∧ (t.part p).st = .sealed ∧ (t.part p).cred = some (BitVec.ofNat 256 (leAt k 0 32)) ∧
      (t.part p).attKey = (s.part p).freshKey ∧ (t.part p).freshKey = none ∧
      (t.part p).confirm = bytes32 (Config.kmac256 (slice k 32 32) (ascii "SKOMIR CONFIRM") rd) ∧ (∀ q, q ≠ p → t.part q = s.part q) ∧
      (∀ port slot, p < 32 → slot < 4 → t.key port p slot = {}) ∧
      (∀ h : HostPort, (s.part p).hosts.getLsbD h.val = true → t.mac h.val = initialMac k h.val) ∧
      (∀ d ∈ mapSlices (s.part p).slices, ∀ x, x < 2 ^ 26 → Memory.read t.mem (physSlice d + x) = 0) ∧
      (c = .attFinish by_ body → WriteOk by_ t) ∧
      (c = .atFinish m → Sends s t ingScribe (mkCmplData s m.hdr 0 0 (t.part p).confirm)))

/-- R410, R411, R412: REMOVE by OPR or the partition's own PRT begins a removal, which takes no request any more and waits for those under way. On an
idle step a removal goes on once nothing of its partition is in flight, or 200 µs after it began: then a partition whose folios are all gone returns its
units with ports DISABLED and is FREE, its link keys and tables gone and its slices zero; before that nothing of the partition is given back. -/
def Obligations.PartitionRemoval : Prop := ∀ (s : State) (by_ : Caller) (p : Part),
  (isOpr s by_ = true ∨ isPrt by_ p.val = true → p.val ≠ 0 →
    ((s.part p.val).st ≠ .free → removing s p.val = false → Answers (.remove by_ p) s fun t => WriteOk by_ t ∧
      (t.part p.val).st = .removing ∧ (t.part p.val).removeAt = some s.time ∧ (t.part p.val).sealAt = none ∧
      (t.part p.val).ports = (s.part p.val).ports ∧ (∀ q, q ≠ p.val → t.part q = s.part q) ∧
      (∀ e ∈ t.scheds, e.2.owner = p → e.2.active = false) ∧ (s.atRest → t.mem = s.mem ∧ Logs s t 0x0805)) ∧
    (removing s p.val = true → Performs (.remove by_ p) by_ s s)) ∧
  (isOpr s by_ = true ∨ isPrt by_ p.val = true → p.val = 0 ∨ (s.part p.val).st = .free → Rejects (.remove by_ p) by_ s Ds.valueRejected) ∧
  (isOpr s by_ = false → isPrt by_ p.val = false → Rejects (.remove by_ p) by_ s Ds.accessDenied) ∧
  (∀ a, s.pending = [] → s.power.vstby = true → (s.part p.val).st = .removing → (s.part p.val).removeAt = some a →
    (∀ q, q ≠ p.val → (s.part q).removeAt = none) → (∀ q, (s.part q).sealAt = none ∧ (s.part q).releaseAt = none) →
    (s.atRest → s.memOk → (∀ e ∈ s.folios, folOwner e.2.word ≠ p.val) → (∀ d, d < 32 → domainPart s d ≠ p.val) →
      (∀ n, n < 128 → (s.part p.val).ports.getLsbD n = true → (s.port n).st = .disabled) → ∃ t, step s = .next t ∧
        t.part p.val = {} ∧ (∀ q, q ≠ p.val → t.part q = s.part q) ∧ (∀ port slot, slot < 4 → t.key port p.val slot = {}) ∧
        (∀ e ∈ t.tables, tableOwner e.2.word ≠ p.val) ∧
        ∀ d ∈ mapSlices (s.part p.val).slices, ∀ x, x < 2 ^ 26 → Memory.read t.mem (physSlice d + x) = 0) ∧
    (drained s p.val = false → s.time + 1 < 2 ^ 64 → s.time + 1 < a + 20000 → ∃ t, step s = .next t ∧
      t.parts = s.parts ∧ t.mem = s.mem ∧ t.keys = s.keys ∧ t.tables = s.tables ∧ t.folios = s.folios))

/-- R400, R401, R402, R403, R404, R405, R406, R408, R391, R492: Key slots. An exchange that starts marks its slot; a responder that accepts loads the slot
to receive and one that refuses leaves it; the initiator loads it and sends under it; KX_ACTIVE lets the responder send; retirement stops sending and
erases the receive key later; an exchange that runs out of time leaves the slot EMPTY. No other slot changes. The admitted peers and the PRT
credential of a partition, and the rotation of a host port's MACsec association. -/
def Obligations.KeySlotsAndSecrets : Prop :=
  (∀ (s : State) (by_ : Caller) (port : Port) (p : Part) (slot : KeySlot) (m : Msg) (v : BitVec 16) (K : KeySt),
  K = s.key port.val p.val slot.toNat → 1 ≤ slot.toNat →
  let only (t : State) : Prop := t.mem = s.mem ∧ ∀ j, j ≠ keyIx port.val p.val slot.toNat → Sparse.get {} t.keys j = Sparse.get {} s.keys j
  (bits v.toNat 7 0 = port.val → bits v.toNat 9 8 = slot.toNat → keyWriter s by_ p.val = true → portOk s port.val = true →
    (partServes s p.val = true → portOwner s port.val = p.val ∨ portOwner s port.val = 0 → K.st = 0 → Answers (.keyEstablish by_ p v) s fun t =>
      WriteOk by_ t ∧ only t ∧ t.key port.val p.val slot.toNat = { st := 4 } ∧
      ∃ k, t.kx = s.kx ++ [k] ∧ k.port = port ∧ k.part = p ∧ k.slot = slot ∧ k.kem = s.free + 2) ∧
    (K.st ≠ 0 → Rejects (.keyEstablish by_ p v) by_ s Ds.valueRejected) ∧
    (K.st = 1 ∨ K.st = 2 → Answers (.keyRetire by_ p v) s fun t => WriteOk by_ t ∧ only t ∧
      t.key port.val p.val slot.toNat = { K with st := 3, txOn := false }) ∧
    (K.st ≠ 1 → K.st ≠ 2 → Rejects (.keyRetire by_ p v) by_ s Ds.valueRejected)) ∧
  (keyWriter s by_ p.val = false → Rejects (.keyEstablish by_ p v) by_ s Ds.accessDenied ∧ Rejects (.keyRetire by_ p v) by_ s Ds.accessDenied) ∧
  (m.hdr.part.toNat = p.val → kxSlot m.body = slot.toNat → removing s p.val = false →
    (kxRefusal s port.val m = none → Answers (.kxInit port m) s fun t => only t ∧ ∃ (body : List Byte) (x : List Byte),
      x = kxSecret (Config.kemSecret (slice m.body 2000 1184) (s.free + 2)) (shake 32 (m.body ++ body)) p.val slot.toNat ∧
      (t.key port.val p.val slot.toNat).st = 1 ∧ (t.key port.val p.val slot.toNat).txOn = false ∧
      (t.key port.val p.val slot.toNat).rxKey = BitVec.ofNat 256 (leAt x 0 32) ∧ (t.key port.val p.val slot.toNat).txKey = BitVec.ofNat 256 (leAt x 32 32)) ∧
    (∀ st, kxRefusal s port.val m = some st → Answers (.kxInit port m) s fun t => t.keys = s.keys ∧ t.kx = s.kx ∧ t.mem = s.mem) ∧
    (m.body.length = 16 → slot.toNat ≤ 3 →
      (K.st = 1 ∨ K.st = 2 → K.txOn = false → Answers (.kxActive port m) s fun t => only t ∧
        t.key port.val p.val slot.toNat = { K with txOn := true }) ∧
      (K.st = 1 ∨ K.st = 2 → Answers (.kxRetire port m) s fun t => only t ∧ t.key port.val p.val slot.toNat = { K with st := 3, txOn := false }))) ∧
  (∀ k : Kx, (s.kx.find? fun x => x.port.val == port.val && x.tag == m.hdr.tag && x.opid == m.hdr.opid && x.part.val == m.hdr.part.toNat) = some k →
      k.part = p → k.slot = slot → removing s p.val = false →
    (kxRespOk k m = true → Answers (.kxResp port m) s fun t => only t ∧ ∃ x : List Byte,
      x = kxSecret (Config.kemDecap k.kem (slice m.body 2000 1088)) (shake 32 (k.payload ++ m.body)) p.val slot.toNat ∧
      (t.key port.val p.val slot.toNat).st = 1 ∧ (t.key port.val p.val slot.toNat).txOn = true ∧
      (t.key port.val p.val slot.toNat).txKey = BitVec.ofNat 256 (leAt x 0 32) ∧ (t.key port.val p.val slot.toNat).rxKey = BitVec.ofNat 256 (leAt x 32 32)) ∧
    (kxRespOk k m = false → Answers (.kxResp port m) s fun t => only t ∧ t.key port.val p.val slot.toNat = {})) ∧
  (K.st = 3 → Answers (.receiveKeyErase port p slot) s fun t => only t ∧ Logs s t 0x080A ∧ t.key port.val p.val slot.toNat = {}) ∧
  (K.st = 4 ∨ ((K.st = 1 ∨ K.st = 2) ∧ K.txOn = false) → Answers (.keyxTimeout port p slot) s fun t => only t ∧ t.key port.val p.val slot.toNat = {} ∧
    ∀ k ∈ t.kx, ¬ (k.port = port ∧ k.part = p ∧ k.slot = slot))) ∧
  (∀ (s : State) (by_ : Caller) (p : Part) (ds : List (BitVec 256)) (cred : BitVec 256) (v : BitVec 8) (h : HostPort) (k : List Byte),
  (keyWriter s by_ p.val = true → partServes s p.val = true → ds.length ≤ 64 →
    Performs (.peerAllow by_ p ds) by_ s (s.setPart p.val { s.part p.val with peerAllow := ds })) ∧
  (keyWriter s by_ p.val = false → Rejects (.peerAllow by_ p ds) by_ s Ds.accessDenied) ∧
  (oprOver s by_ p.val = true → (s.part p.val).st = .open_ → Performs (.prtCred by_ p cred) by_ s (s.setPart p.val { s.part p.val with cred := some cred })) ∧
  (oprOver s by_ p.val = true → (s.part p.val).st ≠ .open_ → Rejects (.prtCred by_ p cred) by_ s Ds.valueRejected) ∧
  (keyWriter s by_ p.val = true → v.toNat = 128 + h.val → hostOwner s h.val = p.val → (s.mac h.val).on = true →
    ((s.mac h.val).oldKey = none → k = nextSak (s.mac h.val).key ((s.mac h.val).sakNo + 1).toNat → Answers (.hostRekey by_ p v) s fun t =>
      WriteOk by_ t ∧ t.mem = s.mem ∧ (t.mac h.val).sakNo = (s.mac h.val).sakNo + 1 ∧ (t.mac h.val).key = BitVec.ofNat 256 (leAt k 0 32) ∧
      (t.mac h.val).salt = BitVec.ofNat 96 (leAt k 32 12) ∧ (t.mac h.val).rxAn = (s.mac h.val).rxAn + 1 ∧ (t.mac h.val).txAn = (s.mac h.val).txAn ∧
      (t.mac h.val).oldKey = some ((s.mac h.val).key, (s.mac h.val).salt) ∧ ∀ j, j ≠ h.val → t.mac j = s.mac j) ∧
    ((s.mac h.val).oldKey ≠ none → Rejects (.hostRekey by_ p v) by_ s Ds.valueRejected)) ∧
  ((s.mac h.val).txAn = (s.mac h.val).rxAn → exec (.macsecOldSaErase h) s = .next (s.setMac h.val { s.mac h.val with oldKey := none, oldHi := 0 })) ∧
  ((s.mac h.val).txAn ≠ (s.mac h.val).rxAn → exec (.macsecOldSaErase h) s = .next s))

/-- R184, R185, R202, R453, R454, R455: peers. A prefix silent for three intervals and a direct peer silent for 30 µs are dead: what is outstanding toward them
completes with TGT_DEAD. A HEARTBEAT brings back every prefix around its sender, and each interval sends one to every target. -/
def Obligations.PeersDieAndReturn : Prop := ∀ (s : State) (by_ : Caller) (w : BitVec 32) (f : Fid) (p : Packet) (recs : List (BitVec 32)),
  (∀ c, (c = .hbWatchExpire w ∧ ∃ x ∈ s.watches, x.word = w ∧ 3 ≤ x.missed) ∨
      (c = .peerSilenceTimeout f ∧ w = fidRec f ∧ f ≠ 0 ∧ portsNaming s f ≠ [] ∧ ∀ x ∈ portsNaming s f, x.st ≠ .retrain) →
    w ∉ s.dead → s.ctxs = [] → (∀ d, d < 32 → (s.domain d).st ≠ .active) → Answers c s fun t =>
      t.dead = s.dead ++ [w] ∧ t.alive = s.alive.filter (· != w) ∧ t.mem = s.mem ∧
      (s.tags = [] → Logs s t 0x0909) ∧
      ∀ e, s.tags = [e] → e.cls = 3 → deadReach s w e.dst = true → t.tags = s.tags.filter (fun x => x.key != hdrKey (tagHdr s e)) ∧
        Sends s t ingMemory [mkCmpl s (tagHdr s e) St.tgtDead 0 0]) ∧
  (∀ d, d < 32 → w ∉ s.dead → (∃ x ∈ s.watches, x.word = w ∧ 3 ≤ x.missed) → (s.domain d).st = .active →
    (∃ a, a < 16 ∧ agentFid s d a ≠ 0 ∧ deadReach s w (agentFid s d a) = true) → Answers (.hbWatchExpire w) s fun t =>
      w ∈ t.dead ∧ (t.domain d).st = .held ∧ (t.domain d).heldCause = 1) ∧
  ((∀ x ∈ s.watches, x.word = w → x.missed < 3) → exec (.hbWatchExpire w) s = .next s) ∧
  (w ∈ s.dead → exec (.hbWatchExpire w) s = .next s) ∧
  (Answers (.heartbeat p) s fun t => t.mem = s.mem ∧ (∀ x ∈ t.dead, recCovers x p.hdr.src.toNat = false) ∧
    (∀ x ∈ s.watches, recCovers x.word p.hdr.src.toNat = true → x.word ∈ t.hbHeard ∧ x.word ∈ t.alive)) ∧
  (Answers .heartbeatTick s fun t => t.mem = s.mem ∧ t.hbHeard = [] ∧
    t.watches = s.watches.map (fun x => if x.fresh then { x with fresh := false } else { x with missed := if x.word ∈ s.hbHeard then 0 else x.missed + 1 }) ∧
    ∃ ps, Sends s t ingScribe ps ∧ ps.map (fun x => (x.hdr.op, x.hdr.dst)) = (heartbeatTargets s).map fun x => (Op.heartbeat, x)) ∧
  (isOpr s by_ = true →
    (recs.length ≤ 256 → (∀ x ∈ recs, recValid x = true → recPls x ≠ 0 ∧ prefixOverhang (recPls x) (recPrefix x) = false) →
      Answers (.hbWatch by_ recs) s fun t => WriteOk by_ t ∧ t.mem = s.mem ∧
        t.watches.map (·.word) = ((recs.filter recValid).map canonRec).eraseDups ∧
        ∀ x ∈ t.watches, x ∈ s.watches ∨ (x.fresh = true ∧ x.missed = 0)) ∧
    (256 < recs.length → Rejects (.hbWatch by_ recs) by_ s Ds.wrongLength) ∧
    (recs.length ≤ 256 → (∃ x ∈ recs, recValid x = true ∧ (recPls x = 0 ∨ prefixOverhang (recPls x) (recPrefix x) = true)) →
      Rejects (.hbWatch by_ recs) by_ s Ds.valueRejected)) ∧
  (isOpr s by_ = false → Rejects (.hbWatch by_ recs) by_ s Ds.accessDenied)

/-- R456, R457, R458, R459, R460, R461, R463, R466: Fences. A record newer than the fence epoch fences a prefix, lifts one fence or lifts all, and what is
outstanding toward a fenced prefix completes FENCED; a stale one only counts. A FENCE message needs PART 0 and a sender that FENCE_AUTH names.
Membership is staged and put into force, with its notices; a staged list without this device or with an old epoch is refused. STRAG_CLEAR empties a
monitor. -/
def Obligations.FencesAndMembership : Prop :=
  (∀ (s : State) (by_ : Caller) (w : BitVec 128) (m : Msg),
  (isOpr s by_ = true → fenceFormed w = true →
    ((fnEpoch w).toNat < s.fepoch.toNat ∨ (fnAct w ≠ 1 ∧ (fnEpoch w).toNat = s.fepoch.toNat) → Answers (.fenceWrite by_ [w]) s fun t =>
      WriteOk by_ t ∧ t.fences = s.fences ∧ t.fepoch = s.fepoch ∧ t.c (okey 0xA400 6) = (s.c (okey 0xA400 6) + 1) % 2 ^ 64 ∧ t.mem = s.mem) ∧
    (s.fepoch.toNat < (fnEpoch w).toNat → fnAct w = 2 ∨ fnAct w = 3 → Answers (.fenceWrite by_ [w]) s fun t =>
      WriteOk by_ t ∧ t.fepoch = fnEpoch w ∧ Logs s t 0x090B ∧ t.mem = s.mem ∧
      t.fences = (if fnAct w = 2 then s.fences.filter (· != fnRec w) else [])) ∧
    (s.fepoch.toNat ≤ (fnEpoch w).toNat → fnAct w = 1 → s.fences.length < 256 → s.ctxs = [] → (∀ d, d < 32 → (s.domain d).st ≠ .active) →
      Answers (.fenceWrite by_ [w]) s fun t => WriteOk by_ t ∧ t.fepoch = fnEpoch w ∧ fnRec w ∈ t.fences ∧ (∀ x ∈ s.fences, x ∈ t.fences) ∧ t.mem = s.mem ∧
        ∀ e, s.tags = [e] → (∀ j ∈ s.journal, j.rkind ≠ 3) → recCovers (fnRec w) e.dst.toNat = true → t.tags = s.tags.filter (fun x => x.key != hdrKey (tagHdr s e)) ∧
          Sends s t ingMemory [mkCmpl s (tagHdr s e) St.fenced 0 0])) ∧
  (isOpr s by_ = false → Rejects (.fenceWrite by_ [w]) by_ s Ds.accessDenied) ∧
  (fenceAllowed s m.hdr = false → Answers (.fence m) s fun t => t.fences = s.fences ∧ t.fepoch = s.fepoch ∧ t.mem = s.mem ∧
    Sends s t ingScribe [mkCmpl s m.hdr St.accessDenied 0 (s.fepoch.setWidth 16)]) ∧
  (fenceAllowed s m.hdr = true → w = BitVec.ofNat 128 (leAt m.body 0 16) → m.body.length = 16 → fenceFormed w = true → s.fepoch.toNat < (fnEpoch w).toNat →
    fnAct w = 2 ∨ fnAct w = 3 → Answers (.fence m) s fun t => t.fepoch = fnEpoch w ∧ Logs s t 0x090B ∧ t.mem = s.mem ∧
      t.fences = (if fnAct w = 2 then s.fences.filter (· != fnRec w) else []) ∧
      Sends s t ingScribe [mkCmpl s m.hdr St.ok 0 ((fnEpoch w).setWidth 16)])) ∧
  (∀ (s : State) (by_ : Caller) (bs : List Byte) (g : Staged) (mon : Fin 16) (n : Nat) (e : BitVec 32) (list : List (BitVec 32)),
  n = leAt bs 10 2 → e = BitVec.ofNat 32 (leAt bs 0 4) → list = words32 ((bs.drop 16).take (4 * n)) →
  (isOpr s by_ = true →
    (bs.length = 16 + 4 * n → n ≤ 256 → s.mepoch.toNat < e.toNat → (∃ w ∈ list, recValid w = true ∧ recCovers w (devFid s).toNat = true) →
      Performs (.memberStage by_ bs) by_ s { s with staged := some { mepoch := e, step := BitVec.ofNat 32 (leAt bs 4 4), sched := BitVec.ofNat 8 (leAt bs 8 1), list := list } }) ∧
    (bs.length = 16 + 4 * n → n ≤ 256 → e.toNat ≤ s.mepoch.toNat ∨ (∀ w ∈ list, recValid w = true → recCovers w (devFid s).toNat = false) →
      Rejects (.memberStage by_ bs) by_ s Ds.valueRejected ∧ Answers (.memberStage by_ bs) s fun t => Logs s t 0x090D) ∧
    (s.staged = some g → Answers (.memberNow by_ 1) s (fun t => WriteOk by_ t ∧ Logs s t 0x090C ∧ t.mem = s.mem ∧
        t.members = (g.list.filter recValid).map canonRec ∧ t.mepoch = g.mepoch ∧ t.staged = none ∧ t.tags = s.tags ∧ t.journal = s.journal) ∧
      Answers (.memberNotify by_ 1) s fun t => WriteOk by_ t ∧ t.ports = s.ports ∧ t.staged = s.staged ∧ t.mem = s.mem ∧
        ∃ new : List Notice, t.notices = s.notices ++ new ∧ new.map (·.port.val) = noticePorts s ∧
          ∀ y ∈ new, y.kind = 1 ∧ y.fid = (s.port y.port).peerFid) ∧
    (s.staged = none → Rejects (.memberNow by_ 1) by_ s Ds.valueRejected ∧ Rejects (.memberNotify by_ 1) by_ s Ds.valueRejected)) ∧
  (isOpr s by_ = false → Rejects (.memberStage by_ bs) by_ s Ds.accessDenied ∧ Rejects (.memberNow by_ 1) by_ s Ds.accessDenied ∧
    Rejects (.memberNotify by_ 1) by_ s Ds.accessDenied) ∧
  (oprOver s by_ (monitorPart s mon.val) = true → Performs (.stragClear by_ mon 1) by_ s { s with strags := Sparse.set {} s.strags mon.val {} }))

/-- R487, R489, R490, R492, R493, R494: a session opens, proves its credential and ends. An opening that the transport or the role's rules refuse changes
nothing; a proof that fails ends the session, refuses its source address and is counted. -/
def Obligations.SessionLife : Prop := ∀ (s : State) (by_ : Caller) (a : TAddr) (m : DMsg) (v : Session) (r : Role) (p : Part) (sid : BitVec 16) (cred : BitVec 256),
  (s.scribe.st = .running → m.mver = 1 → m.sid = 0 → m.mtype = 0 → m.resp = false → m.prot = false → m.payload.length = 48 →
      roleOf (m.payload.getD 0 0).toNat = some r → (m.payload.getD 1 0).toNat = p.val → r = .prt ∨ p.val = 0 →
    (sourceOf a ∉ s.refused → roleAccepted s a r p.val = true → sessionFree s r p.val = true → Answers (.sessOpen a m) s fun t => t.mem = s.mem ∧
      ∃ x : Session, t.sessions = s.sessions ++ [x] ∧ x.role = r ∧ x.part = p ∧ x.addr = a ∧ (x.authed = true ↔ r = .att) ∧ x.xfer = none ∧ x.events = [] ∧
        x.nc = BitVec.ofNat 256 (leNat (m.payload.drop 16)) ∧
        ∃ d : DMsg, t.out = s.out ++ [.dict a d] ∧ d.dstat = Ds.ok ∧ d.sid = x.sid ∧ d.payload = if r = .att then [] else bytes32 x.nd) ∧
    (sourceOf a ∈ s.refused ∨ roleAccepted s a r p.val = false → Answers (.sessOpen a m) s fun t => t.sessions = s.sessions ∧ t.mem = s.mem ∧
      t.out = s.out ++ [.dict a (respond m Ds.accessDenied)])) ∧
  (s.scribe.st = .running → m.mver = 1 → m.sid ≠ 0 → s.session m.sid = some v → v.addr = a → v.authed = false → m.mtype = 1 → m.resp = false → m.prot = false →
      m.seq = 0 → m.payload.length = 32 → credOf s v = some cred →
    (m.payload = bytes32 (proof cred v "SKOMIR SESSION C") → Answers (.sessAuth a m) s fun t => t.session m.sid = some (keyed s cred v) ∧ OtherSessions s t m.sid ∧
      t.mem = s.mem ∧ t.out = s.out ++ [.dict a { respond m Ds.ok with payload := bytes32 (proof cred v "SKOMIR SESSION D") }]) ∧
    (m.payload ≠ bytes32 (proof cred v "SKOMIR SESSION C") → Answers (.sessAuth a m) s fun t => t.refused = s.refused ++ [sourceOf a] ∧ t.mem = s.mem ∧
      Logs s t 0x0A01 ∧ t.c (okey 0x1100 8) = (s.c (okey 0x1100 8) + 1) % 2 ^ 64 ∧ Out.dict a (respond m Ds.authFailed) ∈ t.out)) ∧
  (s.session sid = some v → v.authed = false → Answers (.sessAuthTimeout sid) s fun t => t.session sid = none ∧ OtherSessions s t sid ∧ t.mem = s.mem) ∧
  (s.session sid = some v → v.authed = true → exec (.sessAuthTimeout sid) s = .next s) ∧
  (Answers (.sessionIdleTimeout sid) s fun t => t.session sid = none ∧ OtherSessions s t sid ∧ t.mem = s.mem) ∧
  (s.refused = [sourceOf a] → Answers (.authRefusalEnd a) s fun t => t.refused = [] ∧ t.sessions = s.sessions) ∧
  (isOpr s by_ = true → sid ≠ 0 →
    (s.session sid ≠ none → Answers (.sessionKill by_ sid) s fun t => WriteOk by_ t ∧ t.session sid = none ∧ OtherSessions s t sid ∧ t.mem = s.mem) ∧
    (s.session sid = none → Rejects (.sessionKill by_ sid) by_ s Ds.valueRejected)) ∧
  (isOpr s by_ = false → Rejects (.sessionKill by_ sid) by_ s Ds.accessDenied)

/-- R478, R485, R486, R491, R494, R495, R496, R497: messages of an open session. A message of no session is answered SESSION_INVALID; KEEPALIVE and
SESS_CLOSE are answered, a READ is answered with the object's value, and a WRITE with what the write answers; a WRITE repeated gets its kept answer
and is not applied again; a new request during a transfer is BUSY. -/
def Obligations.SessionMessages : Prop := ∀ (s : State) (a : TAddr) (m : DMsg),
  (s.scribe.st = .running → m.mver = 1 → m.sid ≠ 0 → s.session m.sid = none → m.mtype.toNat < 10 →
    ∀ i, i = .sessAuth a m ∨ i = .sessClose a m ∨ i = .read a m ∨ i = .write a m ∨ i = .segment a m ∨ i = .segAck a m ∨ i = .dictAbort a m ∨
        i = .keepalive a m →
      Answers i s fun t => t.out = s.out ++ [.dict a (respond m Ds.sessionInvalid)] ∧ t.sessions = s.sessions ∧ t.mem = s.mem ∧ t.obj = s.obj) ∧
  ∀ (c : DMsg) (v w : Session), Arrives s a m v w c →
  (v.xfer = none →
    (c.mtype = 9 → bareForm c = true → Answers (.keepalive a m) s fun t => t.out = s.out ++ [v.sends (respond c Ds.ok)] ∧ t.mem = s.mem ∧ t.obj = s.obj ∧
      OtherSessions s t m.sid ∧ ∃ x, t.session m.sid = some x ∧ x.xfer = none ∧ x.events = v.events) ∧
    (c.mtype = 2 → bareForm c = true → Answers (.sessClose a m) s fun t => t.out = s.out ++ [v.sends (respond c Ds.ok)] ∧ t.mem = s.mem ∧ t.obj = s.obj ∧
      OtherSessions s t m.sid ∧ t.session m.sid = none) ∧
    (∀ r, r = readObject (s.setSession w) w.caller c.index.toNat c.sub.toNat → c.mtype = 3 → bareForm c = true →
      (r.st = Ds.ok → r.value.length ≤ 1024 → Answers (.read a m) s fun t => t.mem = s.mem ∧ t.obj = s.obj ∧ OtherSessions s t m.sid ∧
        t.out = s.out ++ [v.sends { respond c Ds.ok with total := BitVec.ofNat 32 r.value.length, payload := r.value }]) ∧
      (r.st ≠ Ds.ok → Answers (.read a m) s fun t => t.mem = s.mem ∧ t.obj = s.obj ∧ OtherSessions s t m.sid ∧ t.out = s.out ++ [v.sends (respond c r.st)])) ∧
    (∀ r, r = writeValue (s.setSession w) w.caller c.index.toNat c.sub.toNat c.payload → c.mtype = 4 → keptFor v c = none → expeditedForm c = true →
      r.s.session m.sid = some w → Answers (.write a m) s fun t => t.mem = r.s.mem ∧ t.obj = r.s.obj ∧ OtherSessions r.s t m.sid ∧
        ∃ k : Kept, k.xid = c.xid ∧ k.index = c.index ∧ k.sub = c.sub ∧ k.dstat = r.st ∧ k.auxr = r.auxr ∧ k.value = r.value ∧
          t.out = r.s.out ++ [v.sends (keptAnswer k)] ∧ ∃ x, t.session m.sid = some x ∧ k ∈ x.kept)) ∧
  (∀ k, c.mtype = 4 → keptFor v c = some k → Answers (.write a m) s fun t => t.out = s.out ++ [v.sends (keptAnswer k)] ∧ t.mem = s.mem ∧ t.obj = s.obj ∧
    t.blob = s.blob ∧ OtherSessions s t m.sid) ∧
  (∀ x, v.xfer = some x → repeatsRequest x c = false → ∀ i, (i = .keepalive a m ∧ c.mtype = 9 ∨ i = .read a m ∧ c.mtype = 3 ∨ i = .sessClose a m ∧ c.mtype = 2) →
    bareForm c = true → Answers i s fun t => t.out = s.out ++ [v.sends (respond c Ds.busy)] ∧ t.mem = s.mem ∧ OtherSessions s t m.sid)

/-- R498, R499, R500: segmented transfers. A WRITE with MORE starts one and its segments are held until all have come, when the value is written; a READ
longer than 1,024 bytes is captured and its segments sent; SEG_ACK lets a READ go on or end; an ABORT or 20 ms without progress end a transfer;
SEG_ACKs that are due and segments that were not acknowledged are sent. -/
def Obligations.SegmentedTransfers : Prop := ∀ (s : State) (a : TAddr) (m c : DMsg) (v w : Session) (x : Transfer),
  (Arrives s a m v w c →
    (c.mtype = 4 → v.xfer = none → keptFor v c = none → segmentedForm c = true → c.total.toNat ≤ 4194304 → c.total.toNat ≤ longest c.index.toNat c.sub.toNat →
      Answers (.write a m) s fun t => t.session m.sid = some { w with xfer := some (newWrite c) } ∧ OtherSessions s t m.sid ∧ t.out = s.out ∧ t.mem = s.mem ∧ t.obj = s.obj) ∧
    (c.mtype = 5 → v.xfer = some x → x.write = true → c.xid = x.xid → segmentForm x c = true →
      (segsHeld (addSegment x c) ≠ segCount x.total → Answers (.segment a m) s fun t => t.session m.sid = some { w with xfer := some (addSegment x c) } ∧
        OtherSessions s t m.sid ∧ t.out = s.out ∧ t.mem = s.mem ∧ t.obj = s.obj) ∧
      (∀ r, segsHeld (addSegment x c) = segCount x.total →
        r = writeValue ((s.setSession w).setSession { w with xfer := none }) w.caller x.index.toNat x.sub.toNat (segsValue (addSegment x c)) →
        r.s.session m.sid = some { w with xfer := none } → Answers (.segment a m) s fun t => t.mem = r.s.mem ∧ t.obj = r.s.obj ∧ OtherSessions r.s t m.sid ∧
          ∃ y, t.session m.sid = some y ∧ y.xfer = none)) ∧
    (c.mtype = 6 → v.xfer = some x → x.write = false → c.xid = x.xid → c.auxr.toNat = segCount x.total → Answers (.segAck a m) s fun t =>
      t.session m.sid = some { w with xfer := none } ∧ OtherSessions s t m.sid ∧ t.out = s.out ∧ t.mem = s.mem) ∧
    (c.mtype = 7 → v.xfer = some x → c.xid = x.xid → s.sessions = [v] → v.mask.getLsbD 10 = false → Answers (.dictAbort a m) s fun t =>
      (∃ y, t.session m.sid = some y ∧ y.xfer = none) ∧ v.sends (abortMsg x.xid) ∈ t.out ∧ t.mem = s.mem ∧ t.obj = s.obj)) ∧
  (s.session v.sid = some v → v.authed = true → v.txSeq + 1 ≠ 0xFFFFFFFF#32 → v.xfer = some x →
    (ackDue x = true → Answers (.segAckTimer v.sid) s fun t => t.out = s.out ++ [v.sends (segAckMsg x)] ∧ OtherSessions s t v.sid ∧
      ∃ y, t.session v.sid = some y ∧ y.xfer = some { x with auxr := segsHeld x }) ∧
    (x.write = false → min (segCount x.total) (x.auxr + 16) = x.auxr + 1 → Answers (.segmentResendTimer v.sid) s fun t =>
      t.out = s.out ++ [v.sends (segMsg x x.auxr)] ∧ OtherSessions s t v.sid) ∧
    (s.sessions = [v] → v.mask.getLsbD 10 = false → Answers (.transferTimeout v.sid) s fun t =>
      (∃ y, t.session v.sid = some y ∧ y.xfer = none) ∧ v.sends (abortMsg x.xid) ∈ t.out ∧ t.mem = s.mem ∧ t.obj = s.obj))

/-- R503, R505, R507, R508, R492, R494, R511: Acknowledging events frees the records up to the ESEQ written; NOTIFY is repeated while records are pending;
an attention pulse ends, and a transition that fell within its spacing is served after it. The operator credential is set by OPR, which ends the other
OPR sessions, and cleared by VND while no partition is SEALING or SEALED. -/
def Obligations.EventsAndCredentials : Prop :=
  (∀ (s : State) (by_ : Caller) (n : BitVec 32) (v : Session) (h : HostPort),
  (by_.role ≠ .att → zeroCredCaller s by_ = false → s.session by_.sid = some v →
    (v.lostNew = 0 → (∃ e ∈ v.events, e.eseq = n) → Answers (.evtAck by_ n) s fun t => WriteOk by_ t ∧ OtherSessions s t by_.sid ∧ t.mem = s.mem ∧
      t.session by_.sid = some { v with events := (v.events.dropWhile fun e => e.eseq != n).drop 1 }) ∧
    ((∀ e ∈ v.events, e.eseq ≠ n) → Rejects (.evtAck by_ n) by_ s Ds.outOfRange)) ∧
  (by_.role = .att → Rejects (.evtAck by_ n) by_ s Ds.accessDenied) ∧
  (s.session v.sid = some v → v.authed = true → v.role ≠ .att → v.txSeq + 1 ≠ 0xFFFFFFFF#32 →
    (v.notify = true → v.events ≠ [] → Answers (.evtNotifyRepeat v.sid) s fun t => OtherSessions s t v.sid ∧ t.mem = s.mem ∧
      t.out = s.out ++ [v.sends { DMsg.mk0 8 with auxr := BitVec.ofNat 32 v.events.length }]) ∧
    (v.notify = false ∨ v.events = [] → exec (.evtNotifyRepeat v.sid) s = .next s)) ∧
  ((s.hrb h.val).pulse = true → Answers (.hrbPulseEnd h) s fun t => (t.hrb h.val).pulse = false ∧ (t.hrb h.val).spacing = (s.hrb h.val).spacing ∧
    t.out = if hrbReady s h.val then s.out ++ [.hrb h true] else s.out) ∧
  ((s.hrb h.val).pulse = false → exec (.hrbPulseEnd h) s = .next s) ∧
  ((s.hrb h.val).deferred = false → Answers (.hrbPulseSpacingExpire h) s fun t => t.hrb h.val = { s.hrb h.val with spacing := false, deferred := false } ∧
    t.out = s.out) ∧
  ((s.hrb h.val).deferred = true → 0 < hostEventCount s h.val → hrbReady s h.val = true → bit (s.o (okey 0x1201 5)) h.val = true →
    Answers (.hrbPulseSpacingExpire h) s fun t => t.hrb h.val = { pulse := true, spacing := true, deferred := false } ∧
      t.out = s.out ++ [.hrb h false] ∧ t.c (okey 0x1201 6) = (s.c (okey 0x1201 6) + 1) % 2 ^ 64)) ∧
  (∀ (s : State) (by_ : Caller) (cred : BitVec 256) (v : BitVec 8),
  (by_.role = .opr → Answers (.oprCred by_ cred) s fun t => WriteOk by_ t ∧ Logs s t 0x0A03 ∧ t.oprCred = some cred ∧ t.mem = s.mem ∧ t.parts = s.parts ∧
    ((∀ x ∈ s.sessions, x.mask.getLsbD 10 = false) → t.sessions = s.sessions.filter fun x => !(x.role == .opr && x.sid != by_.sid))) ∧
  (by_.role ≠ .opr → Rejects (.oprCred by_ cred) by_ s Ds.accessDenied) ∧
  (by_.role = .vnd → v = 1 →
    ((∀ p, p < 32 → p ≠ 0 → (s.part p).st ≠ .sealing ∧ (s.part p).st ≠ .sealed) → Answers (.oprCredClear by_ v) s fun t => WriteOk by_ t ∧ Logs s t 0x0A03 ∧
      t.oprCred = none ∧ t.mem = s.mem ∧ t.parts = s.parts) ∧
    (∀ p, p < 32 → p ≠ 0 → (s.part p).st = .sealed → Rejects (.oprCredClear by_ v) by_ s Ds.valueRejected)) ∧
  (by_.role ≠ .vnd → Rejects (.oprCredClear by_ v) by_ s Ds.accessDenied))

/-- R407, R408, R483, R484, R539: frames on the host ports and the management ring. A host port answers ARP for its own address, passes dictionary messages
on and counts a frame of another VLAN or for another address; under MACsec an unprotected frame is dropped and counted, and a protected one moves the association. The ring takes frames for this
device, forwards the others, and counts those with a bad checksum. -/
def Obligations.HostAndRingFrames : Prop := ∀ (s : State) (h : HostPort) (f : HostFrame) (t0 : SecTag) (a : BitVec 32) (ip : BitVec 128) (udp : BitVec 16) (m : DMsg) (b : Bool) (g : RingFrame),
  ((s.hostP h.val).up = false → exec (.hostFrame h f) s = .next s) ∧
  ((s.hostP h.val).up = true →
    ((s.mac h.val).on = false →
      (f.sec = none → f.body = .arp a → vlanOk s h f = true → hasIp4 s h.val a = true →
        exec (.hostFrame h f) s = .next (s.emit (.arpReply h))) ∧
      (f.sec = none → f.body ≠ .macControl → vlanOk s h f = false ∨ (f.body = .arp a ∧ hasIp4 s h.val a = false) → LeadsTo (.hostFrame h f) s s ∧
        Answers (.hostFrame h f) s fun t => t.c (hostObj h.val 1 4) = (s.c (hostObj h.val 1 4) + 1) % 2 ^ 64) ∧
      (f.sec = none → f.body = .dictUdp ip udp m → vlanOk s h f = true → exec (.hostFrame h f) s = exec (.read (.host h ip udp) m) s)) ∧
    ((s.mac h.val).on = true →
      (f.sec = none → f.body ≠ .macControl → LeadsTo (.hostFrame h f) s s ∧ Answers (.hostFrame h f) s fun t =>
        t.c (partObj (hostOwner s h.val) 4 2) = (s.c (partObj (hostOwner s h.val) 4 2) + 1) % 2 ^ 64) ∧
      (f.sec = some t0 → f.body = .arp a → vlanOk s h f = true → t0.icvOk = true → t0.an = (s.mac h.val).rxAn → (s.mac h.val).rxHi < t0.pn.toNat + 64 → hasIp4 s h.val a = true →
        Answers (.hostFrame h f) s fun t => t.out = s.out ++ [.arpReply h] ∧ t.mem = s.mem ∧ (∀ j, j ≠ h.val → t.mac j = s.mac j) ∧
          t.mac h.val = { s.mac h.val with rxHi := max (s.mac h.val).rxHi t0.pn.toNat, txAn := (s.mac h.val).rxAn }))) ∧
  (s.scribe.bypass = true ∨ ringUp s b = false → exec (.ringFrame b g) s = .next s) ∧
  (s.scribe.bypass = false → ringUp s b = true → s.scribe.st ≠ .off →
    (g.fcsOk = false → LeadsTo (.ringFrame b g) s s ∧ Answers (.ringFrame b g) s fun t => t.c (okey 0x3500 6) = (s.c (okey 0x3500 6) + 1) % 2 ^ 64) ∧
    (g.fcsOk = true → g.dst = macOf 2 → g.etype = 0x88B5 → exec (.ringFrame b g) s = exec (.read (.ring g.src) g.msg) (s.bump (okey 0x3500 4) 1)) ∧
    (g.fcsOk = true → g.dst ≠ macOf 2 → g.dst ≠ 0xFFFFFFFFFFFF#48 → ringUp s (!b) = true → Answers (.ringFrame b g) s fun t =>
      t.out = s.out ++ [.ringForward (!b) g] ∧ t.c (okey 0x3500 5) = (s.c (okey 0x3500 5) + 1) % 2 ^ 64 ∧ t.mem = s.mem ∧ t.obj = s.obj))

/-- R471, R472, R473, R481: a write of an object is checked in order (the object, the right, the access, the length, the range, the stop of its unit) and
the first check that fails gives the answer; a write of a stopped port's setting holds the value. -/
def Obligations.ObjectWrites : Prop := ∀ (s : State) (by_ : Caller) (index : BitVec 16) (sub : BitVec 8) (value : List Byte) (l : Nat × Nat),
  l = locate index.toNat → sub.toNat ≠ 0 →
  (findObj l.1 sub.toNat = none → Rejects (.objectWrite by_ index sub value) by_ s Ds.noObject) ∧
  (∀ r, findObj l.1 sub.toNat = some r →
    (objPresent s r l.2 = false ∨ mayWrite s by_ r (objPart s (sessionOf s by_) r l.2) = false →
      Rejects (.objectWrite by_ index sub value) by_ s Ds.accessDenied) ∧
    (objPresent s r l.2 = true → mayWrite s by_ r (objPart s (sessionOf s by_) r l.2) = true →
      (r.acc = .ro → Rejects (.objectWrite by_ index sub value) by_ s Ds.wrongAccess) ∧
      (r.acc ≠ .ro → lengthOk r value.length = false → Rejects (.objectWrite by_ index sub value) by_ s Ds.wrongLength) ∧
      (r.acc ≠ .ro → lengthOk r value.length = true → valueOk s r value = false → Rejects (.objectWrite by_ index sub value) by_ s Ds.outOfRange) ∧
      (r.acc ≠ .ro → lengthOk r value.length = true → valueOk s r value = true → unitStopped s r l.2 = false →
        Rejects (.objectWrite by_ index sub value) by_ s Ds.unitNotStopped) ∧
      (l.1 = 0x3000 → sub = 2 ∨ sub = 3 ∨ sub = 4 → lengthOk r value.length = true → valueOk s r value = true → (s.port l.2).st = .disabled →
        Performs (.objectWrite by_ index sub value) by_ s (s.setO (okey index.toNat sub.toNat) (leNat value)))))

/-- R522, R523, R545, R546, R547, R548, R549, R550: a firmware image is staged, verified, installed, activated or discarded, each from its own state only;
a restart by watchdog or ACTIVATE ends the sessions and runs the image in flash, or leaves the recovery loader. -/
def Obligations.FirmwareUpdate : Prop := ∀ (s : State) (by_ : Caller) (image : List Byte) (core : Fin 4) (r : Nat),
  (fwWriter s by_ = true →
    (s.scribe.fwSt ≠ .verifying → s.scribe.fwSt ≠ .installing → Answers (.fwStage by_ image) s fun t => WriteOk by_ t ∧ t.mem = s.mem ∧
      t.scribe.fwSt = .staged ∧ t.scribe.staging = image ∧ t.scribe.flash = s.scribe.flash) ∧
    (s.scribe.fwSt = .verifying ∨ s.scribe.fwSt = .installing → Rejects (.fwStage by_ image) by_ s Ds.valueRejected) ∧
    (fwShown s = .staged → Performs (.fwVerify by_) by_ s { s with scribe := { s.scribe with fwSt := .verifying } }) ∧
    (fwShown s ≠ .staged → Rejects (.fwVerify by_) by_ s Ds.valueRejected) ∧
    (fwShown s = .verified → Performs (.fwInstall by_) by_ s { s with scribe := { s.scribe with fwSt := .installing } }) ∧
    (fwShown s ≠ .verified → Rejects (.fwInstall by_) by_ s Ds.valueRejected)) ∧
  (fwWriter s by_ = false → Rejects (.fwStage by_ image) by_ s Ds.accessDenied) ∧
  (s.scribe.fwSt = .verifying → r = imageCheck s s.scribe.staging → Answers .fwVerifyDone s fun t => t.mem = s.mem ∧ t.scribe.fwResult = r ∧
    t.scribe.staging = s.scribe.staging ∧ t.scribe.flash = s.scribe.flash ∧ t.scribe.fwSt = if r = 0 then .verified else .failed) ∧
  (s.scribe.fwSt = .installing → s.scribe.st = .running →
    Answers (.fwInstallDone true) s (fun t => t.mem = s.mem ∧ t.scribe.fwSt = .installed ∧ t.scribe.flash = some s.scribe.staging ∧ t.scribe.fwVer = s.scribe.fwVer ∧
      Logs s t 0x0A1A) ∧
    Answers (.fwInstallDone false) s (fun t => t.mem = s.mem ∧ t.scribe.fwSt = .failed ∧ t.scribe.flash = some [] ∧ t.scribe.fwResult = 7 ∧ Logs s t 0x0A19)) ∧
  (isOpr s by_ = true → fwShown s = .installed →
    ((∀ p, p < 32 → p ≠ 0 → (s.part p).st ≠ .sealing ∧ (s.part p).st ≠ .sealed) → dataUp s = false → (∀ b, s.scribe.flash = some b → imageCheck s b = 0) →
      Answers (.fwActivate by_) s fun t => WriteOk by_ t ∧ t.mem = s.mem ∧ t.scribe.st = .running ∧ t.scribe.lastRestart = 2 ∧
        t.scribe.fwVer = (serviceImage s.scribe).1 ∧ t.scribe.fwSt = .empty) ∧
    (∀ p, p < 32 → p ≠ 0 → (s.part p).st = .sealed → Rejects (.fwActivate by_) by_ s Ds.valueRejected)) ∧
  (isOpr s by_ = true → fwShown s = .staged ∨ fwShown s = .verified ∨ fwShown s = .failed →
    Performs (.fwDiscard by_) by_ s { s with scribe := { s.scribe with fwSt := .empty, staging := [] } }) ∧
  (s.scribe.st = .running → s.scribe.fwSt ≠ .installing →
    ((∀ b, s.scribe.flash = some b → imageCheck s b = 0) → Answers (.watchdogExpire core) s fun t => t.mem = s.mem ∧ t.scribe.st = .running ∧
      t.scribe.lastRestart = 1 ∧ t.scribe.divisor = 12 ∧ t.scribe.fwSt = .empty ∧ t.power = s.power) ∧
    (∀ b, s.scribe.flash = some b → imageCheck s b ≠ 0 → Answers (.watchdogExpire core) s fun t => t.mem = s.mem ∧ t.scribe.st = .recovery ∧
      t.scribe.fwResult = imageCheck s b ∧ t.sessions = [])) ∧
  (s.scribe.st ≠ .running → exec (.watchdogExpire core) s = .next s)

/-- R540, R542, R544: the log in flash and the ring links. A marked record takes the next persistent number; PLOG_CLEAR empties the log and leaves
PLOG_CLEARED to persist; a ring link that changes while the bypass is open is shown and reported. -/
def Obligations.LogAndRingLinks : Prop := ∀ (s : State) (by_ : Caller) (no : BitVec 32) (r : LogRec) (b up : Bool),
  (no ∈ s.scribe.toPersist → s.scribe.log.find? (fun x => x.ev.eseq == no) = some r → s.scribe.plog.length < 4096 → Answers (.plogPersist no) s fun t =>
    t.mem = s.mem ∧ t.scribe.plog = s.scribe.plog ++ [{ r with pno := s.scribe.plogNext }] ∧ t.scribe.plogNext = s.scribe.plogNext + 1 ∧ no ∉ t.scribe.toPersist) ∧
  (no ∉ s.scribe.toPersist → exec (.plogPersist no) s = .next s) ∧
  (isOpr s by_ = true → Answers (.plogClear by_ 1) s fun t => WriteOk by_ t ∧ t.mem = s.mem ∧ t.scribe.plog = [] ∧ Logs s t 0x0A21 ∧
    s.scribe.logNext ∈ t.scribe.toPersist) ∧
  (isOpr s by_ = false → Rejects (.plogClear by_ 1) by_ s Ds.accessDenied) ∧
  (s.scribe.st = .running → s.scribe.bypass = false → (if b then s.scribe.linkB else s.scribe.linkA) ≠ up → Answers (.ringLinkChange b up) s fun t =>
    Logs s t (if up then 0x0A1E else 0x0A1D) ∧ t.mem = s.mem ∧ (if b then t.scribe.linkB else t.scribe.linkA) = up ∧
    (if b then t.scribe.linkA = s.scribe.linkA else t.scribe.linkB = s.scribe.linkB)) ∧
  (s.scribe.bypass = true → exec (.ringLinkChange b up) s = .next s)

/-- R524, R525, R531, R532, R533, R534, R526, R527, R530: A sample keeps its readings, with NaN for one outside its range, and sets the divisor to the
slowest demand; T_HOT at T_TRIP, or a diode's comparator, takes the data path down; the power and temperature demands step. The coolant loop. The
demand is the fixed one while the data path is down, the written one in manual mode, and else the clamped sum of R526 with the integral held where it
would wind up; the alarms of the loop are raised once. -/
def Obligations.SensorsAndCoolant : Prop :=
  (∀ (s : State) (r : Readings) (d : Fin 64),
  (s.scribe.st = .running → dataUp s = false → Answers (.sensorSample r) s fun t => t.mem = s.mem ∧ t.power = s.power ∧ t.scribe.pIn = r.pIn ∧ t.scribe.vIn = r.vIn ∧
    t.scribe.iIn = r.iIn ∧ t.scribe.coolIn = validTemp (-20) 120 r.coolIn ∧ t.scribe.coolOut = validTemp (-20) 120 r.coolOut ∧ t.scribe.diodes = s.scribe.diodes ∧
    t.scribe.divisor = (demands t).foldl max 6) ∧
  (s.scribe.st = .running → dataUp s = true → ∀ i x, hottest (r.diodes.toList.map (validTemp (-40) 150)) = some (i, x) →
    (f32Fix ((r.diodes.toList.map (validTemp (-40) 150)).getD i nan32) = some x → x < objFix s (okey 0x1420 6) → Answers (.sensorSample r) s fun t => t.mem = s.mem ∧
      t.power = s.power ∧ t.scribe.pIn = r.pIn ∧ t.scribe.diodes = r.diodes.toList.map (validTemp (-40) 150) ∧
      t.scribe.tempDiv = (if objFix s (okey 0x1420 4) ≤ x then 12 else if objFix s (okey 0x1420 3) ≤ x then max s.scribe.tempDiv 8 else s.scribe.tempDiv) ∧
      t.scribe.divisor = (demands t).foldl max 6) ∧
    (f32Fix ((r.diodes.toList.map (validTemp (-40) 150)).getD i nan32) = some x → objFix s (okey 0x1420 6) ≤ x → Answers (.sensorSample r) s fun t => t.mem = s.mem ∧
      t.power.state = 5 ∧ t.scribe.tripped = some s.time ∧ t.c (okey 0x1420 0xD) = (s.c (okey 0x1420 0xD) + 1) % 2 ^ 64)) ∧
  (s.scribe.st ≠ .running → exec (.sensorSample r) s = .next s) ∧
  (dataUp s = true → Answers (.hwThermalTrip d) s fun t => t.mem = s.mem ∧ t.power.state = 5 ∧ t.scribe.tripped = some s.time ∧
    t.c (okey 0x1420 0xD) = (s.c (okey 0x1420 0xD) + 1) % 2 ^ 64) ∧
  (dataUp s = false → exec (.hwThermalTrip d) s = .next s) ∧
  (10 ≤ s.scribe.powHigh → Answers .powerLimitCount s fun t => t.mem = s.mem ∧ t.scribe.powDiv = slower s.scribe.powDiv ∧ t.scribe.powHigh = 0 ∧
    t.scribe.divisor = (demands t).foldl max 6) ∧
  (s.scribe.powHigh < 10 → exec .powerLimitCount s = .next s) ∧
  (powerLow s = true → Answers (.throttleReleaseTimer true) s fun t => t.mem = s.mem ∧ t.scribe.powDiv = faster s.scribe.powDiv ∧ t.scribe.tempDiv = s.scribe.tempDiv ∧
    t.scribe.divisor = (demands t).foldl max 6) ∧
  (coolEnough s = true → Answers (.throttleReleaseTimer false) s fun t => t.mem = s.mem ∧ t.scribe.tempDiv = faster s.scribe.tempDiv ∧ t.scribe.powDiv = s.scribe.powDiv ∧
    t.scribe.divisor = (demands t).foldl max 6) ∧
  (powerLow s = false → exec (.throttleReleaseTimer true) s = .next s) ∧ (coolEnough s = false → exec (.throttleReleaseTimer false) s = .next s)) ∧
  (∀ (s : State) (p t0 i c u : Int),
  (s.scribe.st = .running → dataUp s = false → Answers .loopUpdate s fun t => t.mem = s.mem ∧ t.scribe.integral = 0 ∧
    t.scribe.demand = BitVec.ofNat 32 (s.o (okey 0x1410 9))) ∧
  (s.scribe.st = .running → dataUp s = true → s.o (okey 0x1410 7) = 1 → Answers .loopUpdate s fun t => t.mem = s.mem ∧ t.scribe.integral = s.scribe.integral ∧
    t.scribe.demand = BitVec.ofNat 32 (s.o (okey 0x1410 8))) ∧
  (s.scribe.st = .running → dataUp s = true → s.o (okey 0x1410 7) ≠ 1 → 10 ≤ s.scribe.upMs → f32Fix s.scribe.pIn = some p → f32Fix s.scribe.tHot = some t0 →
    f32Fix s.scribe.integral = some i → ∀ e base un : Int, e = t0 - objFix s (okey 0x1410 1) →
    base = (objFix s (okey 0x1410 2) * p + objFix s (okey 0x1410 3) * e) * 10 →
    un = base + i * (10 * 2 ^ 149) + objFix s (okey 0x1410 4) * e → Answers .loopUpdate s fun t => t.mem = s.mem ∧
      t.scribe.integral = (if (0 ≤ un ∧ un ≤ 100 * 10 * 2 ^ 298) ∨ (100 * 10 * 2 ^ 298 < un ∧ e < 0) ∨ (un < 0 ∧ 0 < e) then
        f32Of (i * (10 * 2 ^ 149) + objFix s (okey 0x1410 4) * e) (10 * 2 ^ 298) else s.scribe.integral) ∧
      t.scribe.demand = f32Of (max 0 (min (base + ((f32Fix t.scribe.integral).getD 0) * (10 * 2 ^ 149)) (100 * 10 * 2 ^ 298))) (10 * 2 ^ 298)) ∧
  (s.scribe.st ≠ .running → exec .loopUpdate s = .next s) ∧
  (f32Fix s.scribe.coolIn = some c → objFix s (okey 0x1410 0xE) < c → s.scribe.inletHigh = false → Answers .coolantInletTimer s fun t => Logs s t 0x0A15 ∧
    t.scribe.inletHigh = true ∧ t.mem = s.mem) ∧
  (s.scribe.tach0 < s.o (okey 0x1410 0xF) → pumpAtHalf s = true → s.scribe.tachLow = false → Answers (.pumpTachTimer true) s fun t => Logs s t 0x0A16 ∧
    t.scribe.tachLow = true ∧ t.mem = s.mem) ∧
  (s.o (okey 0x1410 0xF) ≤ s.scribe.tach0 → exec (.pumpTachTimer false) s = .next { s with scribe := { s.scribe with tachLow := false } }) ∧
  (f32Fix s.scribe.demand = some u → u = fixOf 100 → f32Fix s.scribe.tHot = some t0 → objFix s (okey 0x1410 1) < t0 → Answers .loopSaturationTimer s fun t =>
    Logs s t 0x0A17 ∧ t.mem = s.mem))

/-- R413, R435, R441, R475, R494, R518, R521, R522, R536, R558, R561, R562, R563, R565, R566, R569: supplies and the reference clock. VSTBY starts the
Scribe from the defaults and its loss leaves the flash and the fuses; the power stage brings the data path up, or leaves it held by RESET_N; the loss
of a rail, of PWR_EN, of VIN or of the clock takes it down or holds it. -/
def Obligations.SuppliesAndClock : Prop := ∀ (s : State) (ms : BitVec 32) (rail : Fin 8) (sb : Bool),
  (s.power.vstby = false → Answers .vstbyApply s fun t => t.power.vstby = true ∧ t.mem = [] ∧ t.sessions = [] ∧ t.time = 0 ∧ t.tables = [] ∧ t.journal = [] ∧
    t.oprCred = none ∧ t.scribe.bootCount = s.scribe.bootCount + 1 ∧ (s.scribe.flash = none → s.scribe.fwSt ≠ .installing → t.scribe.st = .running) ∧
    t.power.state = (if s.power.vio && s.power.pwrEn then 1 else 0)) ∧
  (s.power.vstby = true → exec .vstbyApply s = .next s) ∧
  (Answers .vstbyLoss s fun t => t.power.vstby = false ∧ t.power.state = 0 ∧ t.mem = [] ∧ t.sessions = [] ∧ t.tables = [] ∧ t.obj = [] ∧ t.dumap = s.dumap ∧
    t.scribe.plog = s.scribe.plog ∧ t.scribe.rollback = s.scribe.rollback ∧ t.scribe.st = .off) ∧
  (mayStart s = true → Answers (.powerStageStart ms []) s fun t => t.mem = s.mem ∧ t.timebase = 0 ∧ t.power.vin = true ∧ t.power.refclkOk = true ∧
    t.power.state = (if s.power.resetLow then 4 else 3) ∧ (s.power.resetLow = false → t.power.zeroing = true ∧ t.power.bringupMs = ms)) ∧
  (mayStart s = false → exec (.powerStageStart ms []) s = .next s) ∧
  (railsUp s = true ∨ mayStart s = true → Answers (.railFault rail) s fun t => t.mem = s.mem ∧ t.power.state = 5 ∧ t.power.railLatch = true ∧ t.power.refclkOk = false ∧
    t.c (okey 0x1481 4) = (s.c (okey 0x1481 4) + 1) % 2 ^ 64) ∧
  (follows s 1 = true → Answers .pwrEnLow s fun t => t.mem = s.mem ∧ t.power.state = 0 ∧ t.power.pwrEn = false ∧ t.power.railLatch = false ∧ t.power.vinLost = false) ∧
  (follows s 1 = true → s.power.pwrEn = false → exec .pwrEnHigh s = .next { s with power := { s.power with
    pwrEn := true, state := if s.power.state = 0 then 1 else s.power.state } }) ∧
  (follows s 1 = false → exec .pwrEnLow s = .next s ∧ exec .pwrEnHigh s = .next s) ∧
  (Answers .vinUndervoltage s fun t => t.mem = s.mem ∧ t.power.vin = false ∧ t.power.vinLost = s.power.pwrEn ∧
    t.power.state = if railsUp s then 1 else s.power.state) ∧
  (Answers .vinLost s fun t => t.mem = s.mem ∧ t.power.vin = false ∧ t.power.vinLost = s.power.pwrEn ∧ t.power.state = (if railsUp s then 1 else s.power.state) ∧
    ∀ p, p < 32 → p ≠ 0 → (t.part p).st = .free) ∧
  (s.power.vstby = true → Answers (.refclkLost sb) s fun t => t.mem = s.mem ∧ t.power.refclkOk = false ∧ t.power.state = (if railsUp s then 4 else s.power.state) ∧
    t.c (okey 0x1480 2) = (s.c (okey 0x1480 2) + 1) % 2 ^ 64 ∧ ∀ p, p < 32 → p ≠ 0 → (t.part p).st = .free) ∧
  (s.power.vstby = false → exec (.refclkLost sb) s = .next s) ∧
  (s.power.vstby = true → s.power.refclkOk = false → s.power.state = 4 → Answers (.refclkRestored ms []) s fun t => t.mem = s.mem ∧ t.timebase = 0 ∧
    t.power.refclkOk = true ∧ t.power.state = (if s.power.resetLow then 4 else 3))

/-- R98, R413, R427, R475, R540, R568, R569, R570, R571: resets. RESET_N and a data-path reset lose what the data path holds and bring it up again; a port
reset leaves its port and counters as new; a tile reset forgets the tile's records for 1 ms; the zeroing after a reset leaves memory zero. -/
def Obligations.Resets : Prop := ∀ (s : State) (by_ : Caller) (ms : BitVec 32) (o : BitVec 8) (tl : Tile) (k : ReqKey),
  (follows s 0 = true → s.power.resetLow = false → Answers .resetNAssert s fun t => t.mem = s.mem ∧ t.power.resetLow = true ∧ t.scribe.bypass = true ∧
    t.power.state = (if railsUp s then 4 else s.power.state) ∧ (railsUp s = true → t.tags = [] ∧ t.delivered = [] ∧ t.journal = [] ∧ t.inq = []) ∧
    ∀ p, p < 32 → p ≠ 0 → (t.part p).st = .free) ∧
  (follows s 0 = true → s.power.resetLow = true → Answers (.resetNRelease ms []) s fun t => t.mem = s.mem ∧ t.power.resetLow = false ∧
    (s.scribe.st ≠ .off → t.scribe.bypass = false) ∧
    t.power.state = (if s.power.state = 4 ∧ s.power.refclkOk = true then 3 else s.power.state)) ∧
  (follows s 0 = false → exec .resetNAssert s = .next s ∧ exec (.resetNRelease ms []) s = .next s) ∧
  (isOpr s by_ = true →
    (portOk s o.toNat = true → Answers (.portReset by_ o) s fun t => WriteOk by_ t ∧ (s.cohWait = [] → t.mem = s.mem) ∧ (∀ k, outputCounter o.toNat k = true → t.c k = 0) ∧
      (s.o (portObj o.toNat 0 1) ≠ 1 → t.port o.toNat = {}) ∧ (s.o (portObj o.toNat 0 1) = 1 → s.power.state = 3 → (t.port o.toNat).st = .detect)) ∧
    (tileOk s o.toNat = true → tileBusy s o.toNat = false → Answers (.tileReset by_ o) s fun t => WriteOk by_ t ∧
      (∀ r ∈ t.opRecs, r.tile.val ≠ o.toNat) ∧ (∀ r ∈ t.ligRecs, r.tile.val ≠ o.toNat) ∧ (∃ x ∈ t.power.tileWin, x.val = o.toNat) ∧
      ∀ k, tileCounter o.toNat k = true → t.c k = 0) ∧
    (tileBusy s o.toNat = true → Rejects (.tileReset by_ o) by_ s Ds.valueRejected) ∧
    (dataUp s = true → s.power.resetLow = false → s.power.refclkOk = true → Answers (.dataPathReset by_ ms []) s fun t => WriteOk by_ t ∧ t.mem = s.mem ∧
      t.power.state = 3 ∧ t.power.zeroing = true ∧ t.power.bringupMs = ms ∧ t.tags = [] ∧ t.delivered = [] ∧ t.journal = [] ∧ t.inq = [] ∧
      ∀ p, p < 32 → p ≠ 0 → (t.part p).st = .free)) ∧
  (isOpr s by_ = false → Rejects (.portReset by_ o) by_ s Ds.accessDenied ∧ Rejects (.tileReset by_ o) by_ s Ds.accessDenied ∧
    Rejects (.dataPathReset by_ ms []) by_ s Ds.accessDenied) ∧
  (Answers (.tileResetWindowEnd tl) s fun t => tl ∉ t.power.tileWin ∧ (∀ x, x ≠ tl → (x ∈ t.power.tileWin ↔ x ∈ s.power.tileWin)) ∧ t.opRecs = s.opRecs) ∧
  (s.power.zeroing = true → Answers .resetZeroingDone s fun t => t.power.zeroing = false ∧ t.poison = [] ∧ ∀ a, Memory.read t.mem a = 0) ∧
  (s.power.zeroing = false → exec .resetZeroingDone s = .next s) ∧
  (Answers (.msgDiscardEnd k) s fun t => k ∉ t.badMsgs ∧ t.asm = s.asm ∧ t.inq = s.inq)

/-- R531, R534, R535, R540, R572, R574, R575, R576: the sideband inputs. An input follows its pin while VIO is present and it does not chatter; a throttle
or fault input sets the divisor at once; one held too long is reported; an input that chatters and every input without VIO reads at its safe level. -/
def Obligations.SidebandInputs : Prop := ∀ (s : State) (active : Bool) (levels : BitVec 4),
  (follows s 2 = true →
    (Answers (.throttleNChange active) s fun t => t.mem = s.mem ∧ t.power.throttle = active ∧ t.power.faultIn = s.power.faultIn ∧ t.power.state = s.power.state ∧
      (s.scribe.st = .running → t.scribe.divisor = (demands t).foldl max 6)) ∧
    (s.power.throttle = true → s.power.stuck.getLsbD 2 = false → s.scribe.st = .running → Answers (.stuckTimer .throttleN) s fun t => Logs s t 0x0B01 ∧
      t.power.stuck.getLsbD 2 = true ∧ t.mem = s.mem) ∧
    (s.power.throttle = false → s.scribe.st = .running → Answers (.inputChatter .throttleN) s fun t => Logs s t 0x0B02 ∧ t.power.chatter.getLsbD 2 = true ∧
      t.power.throttle = true ∧ t.mem = s.mem)) ∧
  (follows s 2 = false → exec (.throttleNChange active) s = .next s) ∧
  (follows s 3 = true → s.o (okey 0x1420 9) ≠ 2 → Answers (.faultInNChange active) s fun t => t.mem = s.mem ∧ t.power.faultIn = active ∧
    t.power.throttle = s.power.throttle ∧ t.power.state = s.power.state ∧
    (s.power.faultIn = false → active = true → s.scribe.st = .running → Logs s t 0x0A20 ∧ t.scribe.divisor = (demands t).foldl max 6)) ∧
  (follows s 3 = true → s.o (okey 0x1420 9) = 2 → s.power.faultIn = false → s.scribe.st = .running → Answers (.faultInNChange true) s fun t => t.mem = s.mem ∧
    t.power.faultIn = true ∧ t.power.state = 5 ∧ t.scribe.tripped = some s.time) ∧
  (s.power.chatter.getLsbD 1 = true → s.power.state = 0 → Answers (.inputQuiet .pwrEn true) s fun t => t.mem = s.mem ∧ t.power.chatter.getLsbD 1 = false ∧
    t.power.pwrEn = true ∧ t.power.state = 1) ∧
  (s.power.chatter.getLsbD 2 = true → Answers (.inputQuiet .throttleN active) s fun t => t.mem = s.mem ∧ t.power.chatter.getLsbD 2 = false ∧
    t.power.throttle = active) ∧
  (s.power.vio = true → Answers .vioLoss s fun t => t.mem = s.mem ∧ t.power.vio = false ∧ t.power.resetLow = true ∧ t.power.pwrEn = false ∧ t.power.throttle = true ∧
    t.power.faultIn = true ∧ t.power.state = 0) ∧
  (s.power.vio = false → exec .vioLoss s = .next s) ∧
  (s.power.vio = false → s.o (okey 0x1420 9) ≠ 2 → Answers (.vioApply levels) s fun t => t.mem = s.mem ∧ t.power.vio = true ∧
    t.power.resetLow = levels.getLsbD 0 ∧ t.power.throttle = levels.getLsbD 2 ∧ t.power.faultIn = levels.getLsbD 3 ∧
    (levels.getLsbD 1 = true → t.power.pwrEn = true) ∧ (s.scribe.st ≠ .off → t.scribe.bypass = levels.getLsbD 0)) ∧
  (s.power.vio = true → exec (.vioApply levels) s = .next s)

/-- What a step is (the model's choice for a block, notes/assumptions/4.md): the command at the front of the queue is performed on the state with the rest
of the queue, and with no command waiting 10 ns pass. R27 and R521 give the two counts that such an interval advances. -/
def Obligations.StepPerformsTheFrontCommand : Prop := ∀ (s : State) (c : Instr) (cs : List Instr),
  (s.pending = c :: cs → step s = exec c { s with pending := cs }) ∧
  (s.pending = [] → step s = .next (tick s)) ∧
  (s.pending = [] → s.power.vstby = false → step s = .next s) ∧
  (s.pending = [] → s.power.vstby = true → (∀ p, p < 32 → (s.part p).sealAt = none ∧ (s.part p).removeAt = none ∧ (s.part p).releaseAt = none) → ∃ t, step s = .next t ∧ t.time = (s.time + 1) % 2 ^ 64 ∧
    t.timebase = (if s.power.refclkOk then (s.timebase + 1) % 2 ^ 64 else s.timebase) ∧ t.mem = s.mem ∧ t.pending = [] ∧ t.parts = s.parts)

/-- R386, R413, R475: the state before VSTBY: objects at their defaults, counters at zero, partition 0 OPEN and the others FREE, no session, memory that
reads zero (the model's choice, notes/assumptions/1.md, where the spec gives no value), and both invariants. -/
def Obligations.ResetState : Prop := (∀ k, State.reset.o k = objDefault k ∧ State.reset.c k = 0) ∧ (∀ a, Memory.read State.reset.mem a = 0) ∧
  (State.reset.part 0).st = .open_ ∧ (∀ p, p ≠ 0 → (State.reset.part p).st = .free) ∧ (∀ p, (State.reset.port p).st = .disabled) ∧
  State.reset.sessions = [] ∧ State.reset.pending = [] ∧ State.reset.power.vstby = false ∧ State.reset.memOk ∧ State.reset.queueOk

/-- The spec gives the device no stop: every command, in every state, answers a next state, and none touches the queue of commands (the model's own field,
notes/assumptions/4.md). -/
def Obligations.EveryCommandCompletes : Prop := ∀ (c : Instr) (s : State), ∃ t, exec c s = .next t ∧ t.pending = s.pending

/-- The invariant of memory: from every state whose memory has its canonical form and whose waiting commands are well formed, a step leads to such a
state. -/
def Obligations.MemoryFormIsKept : Prop := ∀ s t : State, s.memOk → s.queueOk → step s = .next t → t.memOk ∧ t.queueOk

/-- What commands store. A command that stores nothing leaves every byte of memory as it was; one that may only end transactions of a HELD domain (R200)
leaves every byte as it was while no request waits for a line, since memory changes then by what such a request stores. -/
def Obligations.NonStoringCommandsKeepMemory : Prop := ∀ (c : Instr) (s t : State), exec c s = .next t →
  (c.storing = .never → SameMemory s t) ∧ (c.storing = .wakes → s.cohWait = [] → SameMemory s t)

/-- R577, whole: a tachometer whose gate counts more than 20,000 edges reads 20,000 Hz and sets its bit; TACH_SATURATED is raised then, and again only
after the reading has fallen below 20,000 Hz, which clears the bit. -/
def Obligations.TachometerSaturation : Prop := ∀ (s : State) (fan : Bool) (edges : BitVec 32), s.scribe.st = .running →
  (20000 < edges.toNat → Answers (.tachGate fan edges) s fun t => (if fan then t.scribe.tach1 else t.scribe.tach0) = 20000 ∧
    t.power.tachSat.getLsbD (4 + b2n fan) = true ∧
    (s.power.tachSat.getLsbD (4 + b2n fan) = false → Logs s t 0x0B04) ∧
    (s.power.tachSat.getLsbD (4 + b2n fan) = true → t.scribe.log = s.scribe.log)) ∧
  (edges.toNat ≤ 20000 → Answers (.tachGate fan edges) s fun t => (if fan then t.scribe.tach1 else t.scribe.tach0) = edges.toNat ∧ t.scribe.log = s.scribe.log ∧
    (edges.toNat < 20000 → t.power.tachSat.getLsbD (4 + b2n fan) = false) ∧
    (edges.toNat = 20000 → t.power.tachSat.getLsbD (4 + b2n fan) = s.power.tachSat.getLsbD (4 + b2n fan))) ∧
  (∀ t, exec (.tachGate fan edges) s = .next t → ∀ b, b < 8 → b ≠ 4 + b2n fan → t.power.tachSat.getLsbD b = s.power.tachSat.getLsbD b)

/-- R406, whole: KEY_ESTABLISH, KEY_RETIRE, PEER_ALLOW and HOST_REKEY of a SEALED partition are written by its PRT only; of an OPEN partition OPR may
write them as well, and its PRT always may. -/
def Obligations.KeyObjectsOfAPartition : Prop := ∀ (s : State) (by_ : Caller) (p : Part) (v : BitVec 16) (h : BitVec 8) (ds : List (BitVec 256)) (c : Instr),
  c = .keyEstablish by_ p v ∨ c = .keyRetire by_ p v ∨ c = .peerAllow by_ p ds ∨ c = .hostRekey by_ p h →
  ((s.part p.val).st = .sealed → isPrt by_ p.val = false → Rejects c by_ s Ds.accessDenied) ∧
  (isPrt by_ p.val = true ∨ ((s.part p.val).st = .open_ ∧ isOpr s by_ = true) → Answers c s fun t =>
    ∃ d aux value, t.out.getLast? = some (.answer by_ d aux value) ∧ d ≠ Ds.accessDenied) ∧
  (isPrt by_ p.val = false → isOpr s by_ = false → Rejects c by_ s Ds.accessDenied)

/-- R175: An ATOMIC on a word held here replaces it under its AOP: ADD by the sum with OPA modulo the width, CAS by OPA only if the word equals OPB, SWAP
by OPA, MAX and MIN by the greater and the lesser of word and OPA, signed for I32 and I64 and unsigned for U32 and U64; no other byte of memory
changes. -/
def Obligations.AtomicOperations : Prop := ∀ (s : State) (m : Msg) (x n w old a b : Nat),
  m.hdr.op = Op.atomic → m.body.length = 16 → FirstTime s m.hdr → mustWait s m = false → m.hdr.mcast = false → n = atomicWidth m.hdr → w = 8 * n → m.hdr.addr.toNat % n = 0 →
  PlainRun s m.hdr.part.toNat m.hdr.addr.toNat n x true →
  old = leNat (Memory.readN s.mem x n) → a = leAt m.body 0 8 % 2 ^ w → b = leAt m.body 8 8 % 2 ^ w → ∀ aop aty : Nat,
  aop = bits m.hdr.aux.toNat 3 0 → aty = bits m.hdr.aux.toNat 7 4 →
  (aop = 1 → aty < 4 → Answers (.atomic m) s fun t => Stored s t x (leBytes n ((old + a) % 2 ^ w))) ∧
  (aop = 2 → aty < 5 → old = b → Answers (.atomic m) s fun t => Stored s t x (leBytes n a)) ∧
  (aop = 2 → aty < 5 → old ≠ b → Answers (.atomic m) s fun t => Stored s t x (leBytes n old)) ∧
  (aop = 3 → aty < 5 → Answers (.atomic m) s fun t => Stored s t x (leBytes n a)) ∧
  (aop = 4 → aty < 2 → Answers (.atomic m) s fun t => Stored s t x (leBytes n (max old a))) ∧
  (aop = 5 → aty < 2 → Answers (.atomic m) s fun t => Stored s t x (leBytes n (min old a))) ∧
  (aop = 4 → aty = 2 ∨ aty = 3 → Answers (.atomic m) s fun t =>
    Stored s t x (leBytes n (if signedOf w old ≤ signedOf w a then a else old))) ∧
  (aop = 5 → aty = 2 ∨ aty = 3 → Answers (.atomic m) s fun t =>
    Stored s t x (leBytes n (if signedOf w old ≤ signedOf w a then old else a)))
end

