-- ==== Sys2Proof/Laws/Sparse.lean ====
section
/-! SUPPORT. What a sparse map and memory hold after each operation, and that each keeps the canonical form. -/

namespace Sys2Proof.Machine

section Sparse
variable {α : Type}

theorem Sparse.get_above (d : α) (m : Sparse α) (k j : Nat) :
    Sparse.get d (Sparse.above k m) j = if j ≤ k then d else Sparse.get d m j := by
  induction m with
  | nil => simp [Sparse.above, Sparse.get]
  | cons e m ih =>
    obtain ⟨k', v⟩ := e
    unfold Sparse.above
    split
    · rw [ih, Sparse.get]; (repeat' split) <;> first | rfl | omega
    · simp only [Sparse.get]; (repeat' split) <;> first | rfl | omega

variable [DecidableEq α]

/-- Reading the key just written gives the value written. -/
@[simp] theorem Sparse.get_set_self (d : α) (m : Sparse α) (k : Nat) (v : α) :
    Sparse.get d (Sparse.set d m k v) k = v := by
  induction m with
  | nil => unfold Sparse.set; split <;> simp_all [Sparse.get]
  | cons e m ih =>
    obtain ⟨k', v'⟩ := e
    unfold Sparse.set
    by_cases h : k < k'
    · by_cases hv : v = d <;> simp [h, hv, Sparse.get]
    · by_cases hk : k = k'
      · by_cases hv : v = d <;> simp [hk, hv, Sparse.get, Sparse.get_above]
      · simp [h, hk, Sparse.get, ih]

/-- Writing one key leaves every other as it was. -/
theorem Sparse.get_set_ne (d e : α) (m : Sparse α) {k j : Nat} (v : α) (h : j ≠ k) :
    Sparse.get e (Sparse.set d m k v) j = Sparse.get e m j := by
  induction m with
  | nil => unfold Sparse.set; (repeat' split) <;> simp_all [Sparse.get]
  | cons c m ih =>
    obtain ⟨k', v'⟩ := c
    unfold Sparse.set
    by_cases h1 : k < k'
    · by_cases hv : v = d <;> simp only [h1, hv, if_true, if_false, Sparse.get] <;> (repeat' split) <;> first | rfl | omega
    · by_cases hk : k = k'
      · by_cases hv : v = d <;> simp only [hk, hv, if_true, if_false, Sparse.get, Sparse.get_above, Nat.lt_irrefl] <;>
          (repeat' split) <;> first | rfl | omega
      · simp only [h1, hk, if_false, Sparse.get, ih]

theorem Sparse.get_set (d : α) (m : Sparse α) (k j : Nat) (v : α) :
    Sparse.get d (Sparse.set d m k v) j = if j = k then v else Sparse.get d m j := by
  split
  · next h => subst h; simp
  · next h => exact Sparse.get_set_ne d d m v h

theorem Sparse.wfFrom_mono (d : α) (m : Sparse α) {a b : Nat} (h : a ≤ b) (w : Sparse.wfFrom d b m = true) :
    Sparse.wfFrom d a m = true := by
  cases m with
  | nil => rfl
  | cons e m =>
    obtain ⟨k', v'⟩ := e
    simp only [Sparse.wfFrom, Bool.and_eq_true, decide_eq_true_eq] at *
    exact ⟨⟨by omega, w.1.2⟩, w.2⟩

theorem Sparse.above_of_wf (d : α) (m : Sparse α) (k : Nat) (w : Sparse.wfFrom d (k + 1) m = true) : Sparse.above k m = m := by
  cases m with
  | nil => rfl
  | cons e m =>
    obtain ⟨k', v'⟩ := e
    simp only [Sparse.wfFrom, Bool.and_eq_true, decide_eq_true_eq] at w
    unfold Sparse.above
    rw [if_neg (by omega)]

theorem Sparse.wfFrom_set (d : α) (m : Sparse α) (lo k : Nat) (v : α) (hk : lo ≤ k)
    (w : Sparse.wfFrom d lo m = true) : Sparse.wfFrom d lo (Sparse.set d m k v) = true := by
  induction m generalizing lo with
  | nil => unfold Sparse.set; split <;> simp_all [Sparse.wfFrom]
  | cons e m ih =>
    obtain ⟨k', v'⟩ := e
    have w' := w
    simp only [Sparse.wfFrom, Bool.and_eq_true, decide_eq_true_eq, Bool.not_eq_true', decide_eq_false_iff_not] at w'
    unfold Sparse.set
    split
    · split
      · exact w
      · next h1 hv => simp [Sparse.wfFrom, hk, hv, w'.1.2, w'.2]; omega
    · split
      · next hkk =>
        subst hkk
        split
        · rw [Sparse.above_of_wf d m k w'.2]; exact Sparse.wfFrom_mono d m (by omega) w'.2
        · next hv => simp [Sparse.wfFrom, hk, hv, w'.2]
      · next h1 h2 =>
        simp only [Sparse.wfFrom, Bool.and_eq_true, decide_eq_true_eq, Bool.not_eq_true', decide_eq_false_iff_not]
        exact ⟨w'.1, ih (k' + 1) (by omega) w'.2⟩

/-- A write keeps the canonical form. -/
theorem Sparse.wf_set (d : α) (m : Sparse α) (k : Nat) (v : α) (w : Sparse.wf d m = true) :
    Sparse.wf d (Sparse.set d m k v) = true := Sparse.wfFrom_set d m 0 k v (Nat.zero_le _) w

theorem Sparse.wfFrom_filter (d : α) (m : Sparse α) (lo : Nat) (p : Nat × α → Bool)
    (w : Sparse.wfFrom d lo m = true) : Sparse.wfFrom d lo (m.filter p) = true := by
  induction m generalizing lo with
  | nil => rfl
  | cons e m ih =>
    obtain ⟨k', v'⟩ := e
    simp only [Sparse.wfFrom, Bool.and_eq_true, decide_eq_true_eq] at w
    rw [List.filter_cons]
    split
    · simp only [Sparse.wfFrom, Bool.and_eq_true, decide_eq_true_eq]; exact ⟨w.1, ih _ w.2⟩
    · exact Sparse.wfFrom_mono d _ (by omega) (ih _ w.2)

/-- Dropping entries keeps the canonical form. -/
theorem Sparse.wf_drop (d : α) (m : Sparse α) (p : Nat → Bool) (w : Sparse.wf d m = true) :
    Sparse.wf d (Sparse.drop p m) = true := Sparse.wfFrom_filter d m 0 _ w

/-- Every key is at least the bound of the form. -/
theorem Sparse.get_below (d : α) (m : Sparse α) (lo k : Nat) (w : Sparse.wfFrom d lo m = true) (h : k < lo) :
    Sparse.get d m k = d := by
  cases m with
  | nil => rfl
  | cons e m =>
    obtain ⟨k', v'⟩ := e
    simp only [Sparse.wfFrom, Bool.and_eq_true, decide_eq_true_eq] at w
    unfold Sparse.get
    rw [if_pos (by omega)]

theorem Sparse.get_drop_from (d : α) (m : Sparse α) (lo k : Nat) (p : Nat → Bool) (w : Sparse.wfFrom d lo m = true) :
    Sparse.get d (Sparse.drop p m) k = if p k then d else Sparse.get d m k := by
  induction m generalizing lo with
  | nil => simp [Sparse.drop, Sparse.get]
  | cons e m ih =>
    obtain ⟨k', v'⟩ := e
    simp only [Sparse.wfFrom, Bool.and_eq_true, decide_eq_true_eq] at w
    have ih' := ih (k' + 1) w.2
    have hd : Sparse.drop p ((k', v') :: m) = if p k' then Sparse.drop p m else (k', v') :: Sparse.drop p m := by
      unfold Sparse.drop; rw [List.filter_cons]; by_cases h : p k' = true <;> simp [h]
    rw [hd]
    by_cases hp : p k' = true
    · rw [if_pos hp, ih']
      by_cases h1 : k < k'
      · rw [Sparse.get_below d m (k' + 1) k w.2 (by omega)]; simp [Sparse.get, h1]
      · by_cases h2 : k = k'
        · subst h2; simp [hp]
        · simp [Sparse.get, h1, h2]
    · rw [if_neg hp]
      by_cases h1 : k < k'
      · simp [Sparse.get, h1]
      · by_cases h2 : k = k'
        · subst h2; simp [Sparse.get, hp]
        · simp [Sparse.get, h1, h2, ih']

/-- A dropped key reads as the default, every other as before. -/
theorem Sparse.get_drop (d : α) (m : Sparse α) (k : Nat) (p : Nat → Bool) (w : Sparse.wf d m = true) :
    Sparse.get d (Sparse.drop p m) k = if p k then d else Sparse.get d m k := Sparse.get_drop_from d m 0 k p w

end Sparse

/-! ### Memory -/

/-- A byte just stored reads back. -/
@[simp] theorem Memory.read_write_self (m : List Host.Cell) (a : Nat) (b : Byte) :
    Memory.read (Memory.write m a b) a = b := Sparse.get_set_self _ _ _ _

/-- A store leaves every other byte as it was. -/
theorem Memory.read_write_ne (m : List Host.Cell) {a x : Nat} (b : Byte) (h : x ≠ a) :
    Memory.read (Memory.write m a b) x = Memory.read m x := Sparse.get_set_ne _ _ _ _ h

theorem Memory.wf_write (m : List Host.Cell) (a : Nat) (b : Byte) (w : Memory.wf m = true) :
    Memory.wf (Memory.write m a b) = true := Sparse.wf_set _ _ _ _ w

theorem Memory.wf_writeN (m : List Host.Cell) (a : Nat) (bs : List Byte) (w : Memory.wf m = true) :
    Memory.wf (Memory.writeN m a bs) = true := by
  induction bs generalizing m a with
  | nil => exact w
  | cons b bs ih => exact ih _ _ (Memory.wf_write m a b w)

theorem Memory.wf_zero (m : List Host.Cell) (a n : Nat) (w : Memory.wf m = true) :
    Memory.wf (Memory.zero m a n) = true := Sparse.wf_drop _ _ _ w

/-- A store of bytes leaves every byte outside them as it was. -/
theorem Memory.read_writeN_out (m : List Host.Cell) (a : Nat) (bs : List Byte) (x : Nat) (h : x < a ∨ a + bs.length ≤ x) :
    Memory.read (Memory.writeN m a bs) x = Memory.read m x := by
  induction bs generalizing m a with
  | nil => rfl
  | cons b bs ih =>
    simp only [List.length_cons] at h
    rw [Memory.writeN, ih _ _ (by omega), Memory.read_write_ne _ _ (by omega)]

/-- Stored bytes read back. -/
theorem Memory.readN_writeN (m : List Host.Cell) (a : Nat) (bs : List Byte) :
    Memory.readN (Memory.writeN m a bs) a bs.length = bs := by
  induction bs generalizing m a with
  | nil => rfl
  | cons b bs ih =>
    rw [List.length_cons, Memory.readN, Memory.writeN, ih, Memory.read_writeN_out _ _ _ _ (by omega),
      Memory.read_write_self]

/-- Zeroed bytes read as zero, every other byte as before. -/
theorem Memory.read_zero (m : List Host.Cell) (a n x : Nat) (w : Memory.wf m = true) :
    Memory.read (Memory.zero m a n) x = if a ≤ x ∧ x < a + n then 0#8 else Memory.read m x := by
  unfold Memory.read Memory.zero
  rw [Sparse.get_drop _ _ _ _ w]
  by_cases h : a ≤ x ∧ x < a + n <;> simp [h, emptyByte]

end Sys2Proof.Machine
end

