-- ==== Sys2Proof/Laws/State.lean ====
section
/-! SUPPORT. What each write of the state leaves as it was, field by field, and what a record reads as after a write. -/

namespace Sys2Proof.Machine

@[simp] theorem State.setO_frame (s : State) (k v : Nat) :
    (s.setO k v).pending = s.pending ∧ (s.setO k v).time = s.time ∧ (s.setO k v).timebase = s.timebase ∧
    (s.setO k v).blob = s.blob ∧ (s.setO k v).ctr = s.ctr ∧ (s.setO k v).qos = s.qos ∧ (s.setO k v).limits = s.limits ∧
    (s.setO k v).serial = s.serial ∧ (s.setO k v).free = s.free ∧ (s.setO k v).out = s.out ∧ (s.setO k v).ports = s.ports ∧
    (s.setO k v).keys = s.keys ∧ (s.setO k v).kx = s.kx ∧ (s.setO k v).rawOut = s.rawOut ∧ (s.setO k v).epPrev = s.epPrev ∧
    (s.setO k v).epTime = s.epTime ∧ (s.setO k v).slot0 = s.slot0 ∧ (s.setO k v).slot1 = s.slot1 ∧ (s.setO k v).ligs = s.ligs ∧
    (s.setO k v).inq = s.inq ∧ (s.setO k v).spine = s.spine ∧ (s.setO k v).spinePtr = s.spinePtr ∧ (s.setO k v).outs = s.outs ∧
    (s.setO k v).meters = s.meters ∧ (s.setO k v).holds = s.holds ∧ (s.setO k v).draws = s.draws ∧
    (s.setO k v).notices = s.notices ∧ (s.setO k v).asm = s.asm ∧ (s.setO k v).badMsgs = s.badMsgs ∧
    (s.setO k v).delivered = s.delivered ∧ (s.setO k v).tags = s.tags ∧ (s.setO k v).late = s.late ∧
    (s.setO k v).journal = s.journal ∧ (s.setO k v).ligRecs = s.ligRecs ∧ (s.setO k v).opRecs = s.opRecs ∧
    (s.setO k v).mem = s.mem ∧ (s.setO k v).poison = s.poison ∧ (s.setO k v).domains = s.domains ∧ (s.setO k v).dir = s.dir ∧
    (s.setO k v).txns = s.txns ∧ (s.setO k v).cohWait = s.cohWait ∧ (s.setO k v).folios = s.folios ∧
    (s.setO k v).reissues = s.reissues ∧ (s.setO k v).regions = s.regions ∧ (s.setO k v).vloads = s.vloads ∧
    (s.setO k v).waitPubs = s.waitPubs ∧ (s.setO k v).ctxs = s.ctxs ∧ (s.setO k v).chunks = s.chunks ∧
    (s.setO k v).tables = s.tables ∧ (s.setO k v).quills = s.quills ∧ (s.setO k v).objects = s.objects ∧
    (s.setO k v).moves = s.moves ∧ (s.setO k v).moveQ = s.moveQ ∧ (s.setO k v).transitWait = s.transitWait ∧
    (s.setO k v).scheds = s.scheds ∧ (s.setO k v).pfPool = s.pfPool ∧ (s.setO k v).slots = s.slots ∧
    (s.setO k v).basisJobs = s.basisJobs ∧ (s.setO k v).encJobs = s.encJobs ∧ (s.setO k v).expanders = s.expanders ∧
    (s.setO k v).expResps = s.expResps ∧ (s.setO k v).batches = s.batches ∧ (s.setO k v).parts = s.parts ∧
    (s.setO k v).macsec = s.macsec ∧ (s.setO k v).units = s.units ∧ (s.setO k v).standIn = s.standIn ∧
    (s.setO k v).dumap = s.dumap ∧ (s.setO k v).watches = s.watches ∧ (s.setO k v).hbSeq = s.hbSeq ∧
    (s.setO k v).hbHeard = s.hbHeard ∧ (s.setO k v).dead = s.dead ∧ (s.setO k v).alive = s.alive ∧
    (s.setO k v).fences = s.fences ∧ (s.setO k v).fepoch = s.fepoch ∧ (s.setO k v).members = s.members ∧
    (s.setO k v).mepoch = s.mepoch ∧ (s.setO k v).staged = s.staged ∧ (s.setO k v).grandfathered = s.grandfathered ∧
    (s.setO k v).strags = s.strags ∧ (s.setO k v).sessions = s.sessions ∧ (s.setO k v).loader = s.loader ∧
    (s.setO k v).oprCred = s.oprCred ∧ (s.setO k v).refused = s.refused ∧ (s.setO k v).hostSt = s.hostSt ∧
    (s.setO k v).hrbs = s.hrbs ∧ (s.setO k v).scribe = s.scribe ∧ (s.setO k v).power = s.power ∧ (s.setO k v).snap = s.snap := by
  and_intros <;> rfl

@[simp] theorem State.setO_obj (s : State) (k v : Nat) :
    (s.setO k v).obj = Sparse.set (objDefault k) s.obj k v := rfl

@[simp] theorem State.setB_frame (s : State) (k : Nat) (v : List Byte) :
    (s.setB k v).pending = s.pending ∧ (s.setB k v).time = s.time ∧ (s.setB k v).timebase = s.timebase ∧
    (s.setB k v).obj = s.obj ∧ (s.setB k v).ctr = s.ctr ∧ (s.setB k v).qos = s.qos ∧ (s.setB k v).limits = s.limits ∧
    (s.setB k v).serial = s.serial ∧ (s.setB k v).free = s.free ∧ (s.setB k v).out = s.out ∧ (s.setB k v).ports = s.ports ∧
    (s.setB k v).keys = s.keys ∧ (s.setB k v).kx = s.kx ∧ (s.setB k v).rawOut = s.rawOut ∧ (s.setB k v).epPrev = s.epPrev ∧
    (s.setB k v).epTime = s.epTime ∧ (s.setB k v).slot0 = s.slot0 ∧ (s.setB k v).slot1 = s.slot1 ∧ (s.setB k v).ligs = s.ligs ∧
    (s.setB k v).inq = s.inq ∧ (s.setB k v).spine = s.spine ∧ (s.setB k v).spinePtr = s.spinePtr ∧ (s.setB k v).outs = s.outs ∧
    (s.setB k v).meters = s.meters ∧ (s.setB k v).holds = s.holds ∧ (s.setB k v).draws = s.draws ∧
    (s.setB k v).notices = s.notices ∧ (s.setB k v).asm = s.asm ∧ (s.setB k v).badMsgs = s.badMsgs ∧
    (s.setB k v).delivered = s.delivered ∧ (s.setB k v).tags = s.tags ∧ (s.setB k v).late = s.late ∧
    (s.setB k v).journal = s.journal ∧ (s.setB k v).ligRecs = s.ligRecs ∧ (s.setB k v).opRecs = s.opRecs ∧
    (s.setB k v).mem = s.mem ∧ (s.setB k v).poison = s.poison ∧ (s.setB k v).domains = s.domains ∧ (s.setB k v).dir = s.dir ∧
    (s.setB k v).txns = s.txns ∧ (s.setB k v).cohWait = s.cohWait ∧ (s.setB k v).folios = s.folios ∧
    (s.setB k v).reissues = s.reissues ∧ (s.setB k v).regions = s.regions ∧ (s.setB k v).vloads = s.vloads ∧
    (s.setB k v).waitPubs = s.waitPubs ∧ (s.setB k v).ctxs = s.ctxs ∧ (s.setB k v).chunks = s.chunks ∧
    (s.setB k v).tables = s.tables ∧ (s.setB k v).quills = s.quills ∧ (s.setB k v).objects = s.objects ∧
    (s.setB k v).moves = s.moves ∧ (s.setB k v).moveQ = s.moveQ ∧ (s.setB k v).transitWait = s.transitWait ∧
    (s.setB k v).scheds = s.scheds ∧ (s.setB k v).pfPool = s.pfPool ∧ (s.setB k v).slots = s.slots ∧
    (s.setB k v).basisJobs = s.basisJobs ∧ (s.setB k v).encJobs = s.encJobs ∧ (s.setB k v).expanders = s.expanders ∧
    (s.setB k v).expResps = s.expResps ∧ (s.setB k v).batches = s.batches ∧ (s.setB k v).parts = s.parts ∧
    (s.setB k v).macsec = s.macsec ∧ (s.setB k v).units = s.units ∧ (s.setB k v).standIn = s.standIn ∧
    (s.setB k v).dumap = s.dumap ∧ (s.setB k v).watches = s.watches ∧ (s.setB k v).hbSeq = s.hbSeq ∧
    (s.setB k v).hbHeard = s.hbHeard ∧ (s.setB k v).dead = s.dead ∧ (s.setB k v).alive = s.alive ∧
    (s.setB k v).fences = s.fences ∧ (s.setB k v).fepoch = s.fepoch ∧ (s.setB k v).members = s.members ∧
    (s.setB k v).mepoch = s.mepoch ∧ (s.setB k v).staged = s.staged ∧ (s.setB k v).grandfathered = s.grandfathered ∧
    (s.setB k v).strags = s.strags ∧ (s.setB k v).sessions = s.sessions ∧ (s.setB k v).loader = s.loader ∧
    (s.setB k v).oprCred = s.oprCred ∧ (s.setB k v).refused = s.refused ∧ (s.setB k v).hostSt = s.hostSt ∧
    (s.setB k v).hrbs = s.hrbs ∧ (s.setB k v).scribe = s.scribe ∧ (s.setB k v).power = s.power ∧ (s.setB k v).snap = s.snap := by
  and_intros <;> rfl

@[simp] theorem State.setB_blob (s : State) (k : Nat) (v : List Byte) :
    (s.setB k v).blob = Sparse.set (blobDefault k) s.blob k v := rfl

@[simp] theorem State.setC_frame (s : State) (k v : Nat) :
    (s.setC k v).pending = s.pending ∧ (s.setC k v).time = s.time ∧ (s.setC k v).timebase = s.timebase ∧
    (s.setC k v).obj = s.obj ∧ (s.setC k v).blob = s.blob ∧ (s.setC k v).qos = s.qos ∧ (s.setC k v).limits = s.limits ∧
    (s.setC k v).serial = s.serial ∧ (s.setC k v).free = s.free ∧ (s.setC k v).out = s.out ∧ (s.setC k v).ports = s.ports ∧
    (s.setC k v).keys = s.keys ∧ (s.setC k v).kx = s.kx ∧ (s.setC k v).rawOut = s.rawOut ∧ (s.setC k v).epPrev = s.epPrev ∧
    (s.setC k v).epTime = s.epTime ∧ (s.setC k v).slot0 = s.slot0 ∧ (s.setC k v).slot1 = s.slot1 ∧ (s.setC k v).ligs = s.ligs ∧
    (s.setC k v).inq = s.inq ∧ (s.setC k v).spine = s.spine ∧ (s.setC k v).spinePtr = s.spinePtr ∧ (s.setC k v).outs = s.outs ∧
    (s.setC k v).meters = s.meters ∧ (s.setC k v).holds = s.holds ∧ (s.setC k v).draws = s.draws ∧
    (s.setC k v).notices = s.notices ∧ (s.setC k v).asm = s.asm ∧ (s.setC k v).badMsgs = s.badMsgs ∧
    (s.setC k v).delivered = s.delivered ∧ (s.setC k v).tags = s.tags ∧ (s.setC k v).late = s.late ∧
    (s.setC k v).journal = s.journal ∧ (s.setC k v).ligRecs = s.ligRecs ∧ (s.setC k v).opRecs = s.opRecs ∧
    (s.setC k v).mem = s.mem ∧ (s.setC k v).poison = s.poison ∧ (s.setC k v).domains = s.domains ∧ (s.setC k v).dir = s.dir ∧
    (s.setC k v).txns = s.txns ∧ (s.setC k v).cohWait = s.cohWait ∧ (s.setC k v).folios = s.folios ∧
    (s.setC k v).reissues = s.reissues ∧ (s.setC k v).regions = s.regions ∧ (s.setC k v).vloads = s.vloads ∧
    (s.setC k v).waitPubs = s.waitPubs ∧ (s.setC k v).ctxs = s.ctxs ∧ (s.setC k v).chunks = s.chunks ∧
    (s.setC k v).tables = s.tables ∧ (s.setC k v).quills = s.quills ∧ (s.setC k v).objects = s.objects ∧
    (s.setC k v).moves = s.moves ∧ (s.setC k v).moveQ = s.moveQ ∧ (s.setC k v).transitWait = s.transitWait ∧
    (s.setC k v).scheds = s.scheds ∧ (s.setC k v).pfPool = s.pfPool ∧ (s.setC k v).slots = s.slots ∧
    (s.setC k v).basisJobs = s.basisJobs ∧ (s.setC k v).encJobs = s.encJobs ∧ (s.setC k v).expanders = s.expanders ∧
    (s.setC k v).expResps = s.expResps ∧ (s.setC k v).batches = s.batches ∧ (s.setC k v).parts = s.parts ∧
    (s.setC k v).macsec = s.macsec ∧ (s.setC k v).units = s.units ∧ (s.setC k v).standIn = s.standIn ∧
    (s.setC k v).dumap = s.dumap ∧ (s.setC k v).watches = s.watches ∧ (s.setC k v).hbSeq = s.hbSeq ∧
    (s.setC k v).hbHeard = s.hbHeard ∧ (s.setC k v).dead = s.dead ∧ (s.setC k v).alive = s.alive ∧
    (s.setC k v).fences = s.fences ∧ (s.setC k v).fepoch = s.fepoch ∧ (s.setC k v).members = s.members ∧
    (s.setC k v).mepoch = s.mepoch ∧ (s.setC k v).staged = s.staged ∧ (s.setC k v).grandfathered = s.grandfathered ∧
    (s.setC k v).strags = s.strags ∧ (s.setC k v).sessions = s.sessions ∧ (s.setC k v).loader = s.loader ∧
    (s.setC k v).oprCred = s.oprCred ∧ (s.setC k v).refused = s.refused ∧ (s.setC k v).hostSt = s.hostSt ∧
    (s.setC k v).hrbs = s.hrbs ∧ (s.setC k v).scribe = s.scribe ∧ (s.setC k v).power = s.power ∧ (s.setC k v).snap = s.snap := by
  and_intros <;> rfl

@[simp] theorem State.setC_ctr (s : State) (k v : Nat) :
    (s.setC k v).ctr = Sparse.set 0 s.ctr k v := rfl

@[simp] theorem State.setPort_frame (s : State) (p : Nat) (v : PortSt) :
    (s.setPort p v).pending = s.pending ∧ (s.setPort p v).time = s.time ∧ (s.setPort p v).timebase = s.timebase ∧
    (s.setPort p v).obj = s.obj ∧ (s.setPort p v).blob = s.blob ∧ (s.setPort p v).ctr = s.ctr ∧ (s.setPort p v).qos = s.qos ∧
    (s.setPort p v).limits = s.limits ∧ (s.setPort p v).serial = s.serial ∧ (s.setPort p v).free = s.free ∧
    (s.setPort p v).out = s.out ∧ (s.setPort p v).keys = s.keys ∧ (s.setPort p v).kx = s.kx ∧
    (s.setPort p v).rawOut = s.rawOut ∧ (s.setPort p v).epPrev = s.epPrev ∧ (s.setPort p v).epTime = s.epTime ∧
    (s.setPort p v).slot0 = s.slot0 ∧ (s.setPort p v).slot1 = s.slot1 ∧ (s.setPort p v).ligs = s.ligs ∧
    (s.setPort p v).inq = s.inq ∧ (s.setPort p v).spine = s.spine ∧ (s.setPort p v).spinePtr = s.spinePtr ∧
    (s.setPort p v).outs = s.outs ∧ (s.setPort p v).meters = s.meters ∧ (s.setPort p v).holds = s.holds ∧
    (s.setPort p v).draws = s.draws ∧ (s.setPort p v).notices = s.notices ∧ (s.setPort p v).asm = s.asm ∧
    (s.setPort p v).badMsgs = s.badMsgs ∧ (s.setPort p v).delivered = s.delivered ∧ (s.setPort p v).tags = s.tags ∧
    (s.setPort p v).late = s.late ∧ (s.setPort p v).journal = s.journal ∧ (s.setPort p v).ligRecs = s.ligRecs ∧
    (s.setPort p v).opRecs = s.opRecs ∧ (s.setPort p v).mem = s.mem ∧ (s.setPort p v).poison = s.poison ∧
    (s.setPort p v).domains = s.domains ∧ (s.setPort p v).dir = s.dir ∧ (s.setPort p v).txns = s.txns ∧
    (s.setPort p v).cohWait = s.cohWait ∧ (s.setPort p v).folios = s.folios ∧ (s.setPort p v).reissues = s.reissues ∧
    (s.setPort p v).regions = s.regions ∧ (s.setPort p v).vloads = s.vloads ∧ (s.setPort p v).waitPubs = s.waitPubs ∧
    (s.setPort p v).ctxs = s.ctxs ∧ (s.setPort p v).chunks = s.chunks ∧ (s.setPort p v).tables = s.tables ∧
    (s.setPort p v).quills = s.quills ∧ (s.setPort p v).objects = s.objects ∧ (s.setPort p v).moves = s.moves ∧
    (s.setPort p v).moveQ = s.moveQ ∧ (s.setPort p v).transitWait = s.transitWait ∧ (s.setPort p v).scheds = s.scheds ∧
    (s.setPort p v).pfPool = s.pfPool ∧ (s.setPort p v).slots = s.slots ∧ (s.setPort p v).basisJobs = s.basisJobs ∧
    (s.setPort p v).encJobs = s.encJobs ∧ (s.setPort p v).expanders = s.expanders ∧ (s.setPort p v).expResps = s.expResps ∧
    (s.setPort p v).batches = s.batches ∧ (s.setPort p v).parts = s.parts ∧ (s.setPort p v).macsec = s.macsec ∧
    (s.setPort p v).units = s.units ∧ (s.setPort p v).standIn = s.standIn ∧ (s.setPort p v).dumap = s.dumap ∧
    (s.setPort p v).watches = s.watches ∧ (s.setPort p v).hbSeq = s.hbSeq ∧ (s.setPort p v).hbHeard = s.hbHeard ∧
    (s.setPort p v).dead = s.dead ∧ (s.setPort p v).alive = s.alive ∧ (s.setPort p v).fences = s.fences ∧
    (s.setPort p v).fepoch = s.fepoch ∧ (s.setPort p v).members = s.members ∧ (s.setPort p v).mepoch = s.mepoch ∧
    (s.setPort p v).staged = s.staged ∧ (s.setPort p v).grandfathered = s.grandfathered ∧ (s.setPort p v).strags = s.strags ∧
    (s.setPort p v).sessions = s.sessions ∧ (s.setPort p v).loader = s.loader ∧ (s.setPort p v).oprCred = s.oprCred ∧
    (s.setPort p v).refused = s.refused ∧ (s.setPort p v).hostSt = s.hostSt ∧ (s.setPort p v).hrbs = s.hrbs ∧
    (s.setPort p v).scribe = s.scribe ∧ (s.setPort p v).power = s.power ∧ (s.setPort p v).snap = s.snap := by
  and_intros <;> rfl

@[simp] theorem State.setPort_ports (s : State) (p : Nat) (v : PortSt) :
    (s.setPort p v).ports = Sparse.set {} s.ports p v := rfl

@[simp] theorem State.setOut_frame (s : State) (o : Nat) (v : OutSt) :
    (s.setOut o v).pending = s.pending ∧ (s.setOut o v).time = s.time ∧ (s.setOut o v).timebase = s.timebase ∧
    (s.setOut o v).obj = s.obj ∧ (s.setOut o v).blob = s.blob ∧ (s.setOut o v).ctr = s.ctr ∧ (s.setOut o v).qos = s.qos ∧
    (s.setOut o v).limits = s.limits ∧ (s.setOut o v).serial = s.serial ∧ (s.setOut o v).free = s.free ∧
    (s.setOut o v).out = s.out ∧ (s.setOut o v).ports = s.ports ∧ (s.setOut o v).keys = s.keys ∧ (s.setOut o v).kx = s.kx ∧
    (s.setOut o v).rawOut = s.rawOut ∧ (s.setOut o v).epPrev = s.epPrev ∧ (s.setOut o v).epTime = s.epTime ∧
    (s.setOut o v).slot0 = s.slot0 ∧ (s.setOut o v).slot1 = s.slot1 ∧ (s.setOut o v).ligs = s.ligs ∧
    (s.setOut o v).inq = s.inq ∧ (s.setOut o v).spine = s.spine ∧ (s.setOut o v).spinePtr = s.spinePtr ∧
    (s.setOut o v).meters = s.meters ∧ (s.setOut o v).holds = s.holds ∧ (s.setOut o v).draws = s.draws ∧
    (s.setOut o v).notices = s.notices ∧ (s.setOut o v).asm = s.asm ∧ (s.setOut o v).badMsgs = s.badMsgs ∧
    (s.setOut o v).delivered = s.delivered ∧ (s.setOut o v).tags = s.tags ∧ (s.setOut o v).late = s.late ∧
    (s.setOut o v).journal = s.journal ∧ (s.setOut o v).ligRecs = s.ligRecs ∧ (s.setOut o v).opRecs = s.opRecs ∧
    (s.setOut o v).mem = s.mem ∧ (s.setOut o v).poison = s.poison ∧ (s.setOut o v).domains = s.domains ∧
    (s.setOut o v).dir = s.dir ∧ (s.setOut o v).txns = s.txns ∧ (s.setOut o v).cohWait = s.cohWait ∧
    (s.setOut o v).folios = s.folios ∧ (s.setOut o v).reissues = s.reissues ∧ (s.setOut o v).regions = s.regions ∧
    (s.setOut o v).vloads = s.vloads ∧ (s.setOut o v).waitPubs = s.waitPubs ∧ (s.setOut o v).ctxs = s.ctxs ∧
    (s.setOut o v).chunks = s.chunks ∧ (s.setOut o v).tables = s.tables ∧ (s.setOut o v).quills = s.quills ∧
    (s.setOut o v).objects = s.objects ∧ (s.setOut o v).moves = s.moves ∧ (s.setOut o v).moveQ = s.moveQ ∧
    (s.setOut o v).transitWait = s.transitWait ∧ (s.setOut o v).scheds = s.scheds ∧ (s.setOut o v).pfPool = s.pfPool ∧
    (s.setOut o v).slots = s.slots ∧ (s.setOut o v).basisJobs = s.basisJobs ∧ (s.setOut o v).encJobs = s.encJobs ∧
    (s.setOut o v).expanders = s.expanders ∧ (s.setOut o v).expResps = s.expResps ∧ (s.setOut o v).batches = s.batches ∧
    (s.setOut o v).parts = s.parts ∧ (s.setOut o v).macsec = s.macsec ∧ (s.setOut o v).units = s.units ∧
    (s.setOut o v).standIn = s.standIn ∧ (s.setOut o v).dumap = s.dumap ∧ (s.setOut o v).watches = s.watches ∧
    (s.setOut o v).hbSeq = s.hbSeq ∧ (s.setOut o v).hbHeard = s.hbHeard ∧ (s.setOut o v).dead = s.dead ∧
    (s.setOut o v).alive = s.alive ∧ (s.setOut o v).fences = s.fences ∧ (s.setOut o v).fepoch = s.fepoch ∧
    (s.setOut o v).members = s.members ∧ (s.setOut o v).mepoch = s.mepoch ∧ (s.setOut o v).staged = s.staged ∧
    (s.setOut o v).grandfathered = s.grandfathered ∧ (s.setOut o v).strags = s.strags ∧ (s.setOut o v).sessions = s.sessions ∧
    (s.setOut o v).loader = s.loader ∧ (s.setOut o v).oprCred = s.oprCred ∧ (s.setOut o v).refused = s.refused ∧
    (s.setOut o v).hostSt = s.hostSt ∧ (s.setOut o v).hrbs = s.hrbs ∧ (s.setOut o v).scribe = s.scribe ∧
    (s.setOut o v).power = s.power ∧ (s.setOut o v).snap = s.snap := by
  and_intros <;> rfl

@[simp] theorem State.setOut_outs (s : State) (o : Nat) (v : OutSt) :
    (s.setOut o v).outs = Sparse.set {} s.outs o v := rfl

@[simp] theorem State.setPart_frame (s : State) (p : Nat) (v : Partition) :
    (s.setPart p v).pending = s.pending ∧ (s.setPart p v).time = s.time ∧ (s.setPart p v).timebase = s.timebase ∧
    (s.setPart p v).obj = s.obj ∧ (s.setPart p v).blob = s.blob ∧ (s.setPart p v).ctr = s.ctr ∧ (s.setPart p v).qos = s.qos ∧
    (s.setPart p v).limits = s.limits ∧ (s.setPart p v).serial = s.serial ∧ (s.setPart p v).free = s.free ∧
    (s.setPart p v).out = s.out ∧ (s.setPart p v).ports = s.ports ∧ (s.setPart p v).keys = s.keys ∧ (s.setPart p v).kx = s.kx ∧
    (s.setPart p v).rawOut = s.rawOut ∧ (s.setPart p v).epPrev = s.epPrev ∧ (s.setPart p v).epTime = s.epTime ∧
    (s.setPart p v).slot0 = s.slot0 ∧ (s.setPart p v).slot1 = s.slot1 ∧ (s.setPart p v).ligs = s.ligs ∧
    (s.setPart p v).inq = s.inq ∧ (s.setPart p v).spine = s.spine ∧ (s.setPart p v).spinePtr = s.spinePtr ∧
    (s.setPart p v).outs = s.outs ∧ (s.setPart p v).meters = s.meters ∧ (s.setPart p v).holds = s.holds ∧
    (s.setPart p v).draws = s.draws ∧ (s.setPart p v).notices = s.notices ∧ (s.setPart p v).asm = s.asm ∧
    (s.setPart p v).badMsgs = s.badMsgs ∧ (s.setPart p v).delivered = s.delivered ∧ (s.setPart p v).tags = s.tags ∧
    (s.setPart p v).late = s.late ∧ (s.setPart p v).journal = s.journal ∧ (s.setPart p v).ligRecs = s.ligRecs ∧
    (s.setPart p v).opRecs = s.opRecs ∧ (s.setPart p v).mem = s.mem ∧ (s.setPart p v).poison = s.poison ∧
    (s.setPart p v).domains = s.domains ∧ (s.setPart p v).dir = s.dir ∧ (s.setPart p v).txns = s.txns ∧
    (s.setPart p v).cohWait = s.cohWait ∧ (s.setPart p v).folios = s.folios ∧ (s.setPart p v).reissues = s.reissues ∧
    (s.setPart p v).regions = s.regions ∧ (s.setPart p v).vloads = s.vloads ∧ (s.setPart p v).waitPubs = s.waitPubs ∧
    (s.setPart p v).ctxs = s.ctxs ∧ (s.setPart p v).chunks = s.chunks ∧ (s.setPart p v).tables = s.tables ∧
    (s.setPart p v).quills = s.quills ∧ (s.setPart p v).objects = s.objects ∧ (s.setPart p v).moves = s.moves ∧
    (s.setPart p v).moveQ = s.moveQ ∧ (s.setPart p v).transitWait = s.transitWait ∧ (s.setPart p v).scheds = s.scheds ∧
    (s.setPart p v).pfPool = s.pfPool ∧ (s.setPart p v).slots = s.slots ∧ (s.setPart p v).basisJobs = s.basisJobs ∧
    (s.setPart p v).encJobs = s.encJobs ∧ (s.setPart p v).expanders = s.expanders ∧ (s.setPart p v).expResps = s.expResps ∧
    (s.setPart p v).batches = s.batches ∧ (s.setPart p v).macsec = s.macsec ∧ (s.setPart p v).units = s.units ∧
    (s.setPart p v).standIn = s.standIn ∧ (s.setPart p v).dumap = s.dumap ∧ (s.setPart p v).watches = s.watches ∧
    (s.setPart p v).hbSeq = s.hbSeq ∧ (s.setPart p v).hbHeard = s.hbHeard ∧ (s.setPart p v).dead = s.dead ∧
    (s.setPart p v).alive = s.alive ∧ (s.setPart p v).fences = s.fences ∧ (s.setPart p v).fepoch = s.fepoch ∧
    (s.setPart p v).members = s.members ∧ (s.setPart p v).mepoch = s.mepoch ∧ (s.setPart p v).staged = s.staged ∧
    (s.setPart p v).grandfathered = s.grandfathered ∧ (s.setPart p v).strags = s.strags ∧
    (s.setPart p v).sessions = s.sessions ∧ (s.setPart p v).loader = s.loader ∧ (s.setPart p v).oprCred = s.oprCred ∧
    (s.setPart p v).refused = s.refused ∧ (s.setPart p v).hostSt = s.hostSt ∧ (s.setPart p v).hrbs = s.hrbs ∧
    (s.setPart p v).scribe = s.scribe ∧ (s.setPart p v).power = s.power ∧ (s.setPart p v).snap = s.snap := by
  and_intros <;> rfl

@[simp] theorem State.setPart_parts (s : State) (p : Nat) (v : Partition) :
    (s.setPart p v).parts = Sparse.set {} s.parts p v := rfl

@[simp] theorem State.setFolio_frame (s : State) (i : Nat) (v : Folio) :
    (s.setFolio i v).pending = s.pending ∧ (s.setFolio i v).time = s.time ∧ (s.setFolio i v).timebase = s.timebase ∧
    (s.setFolio i v).obj = s.obj ∧ (s.setFolio i v).blob = s.blob ∧ (s.setFolio i v).ctr = s.ctr ∧
    (s.setFolio i v).qos = s.qos ∧ (s.setFolio i v).limits = s.limits ∧ (s.setFolio i v).serial = s.serial ∧
    (s.setFolio i v).free = s.free ∧ (s.setFolio i v).out = s.out ∧ (s.setFolio i v).ports = s.ports ∧
    (s.setFolio i v).keys = s.keys ∧ (s.setFolio i v).kx = s.kx ∧ (s.setFolio i v).rawOut = s.rawOut ∧
    (s.setFolio i v).epPrev = s.epPrev ∧ (s.setFolio i v).epTime = s.epTime ∧ (s.setFolio i v).slot0 = s.slot0 ∧
    (s.setFolio i v).slot1 = s.slot1 ∧ (s.setFolio i v).ligs = s.ligs ∧ (s.setFolio i v).inq = s.inq ∧
    (s.setFolio i v).spine = s.spine ∧ (s.setFolio i v).spinePtr = s.spinePtr ∧ (s.setFolio i v).outs = s.outs ∧
    (s.setFolio i v).meters = s.meters ∧ (s.setFolio i v).holds = s.holds ∧ (s.setFolio i v).draws = s.draws ∧
    (s.setFolio i v).notices = s.notices ∧ (s.setFolio i v).asm = s.asm ∧ (s.setFolio i v).badMsgs = s.badMsgs ∧
    (s.setFolio i v).delivered = s.delivered ∧ (s.setFolio i v).tags = s.tags ∧ (s.setFolio i v).late = s.late ∧
    (s.setFolio i v).journal = s.journal ∧ (s.setFolio i v).ligRecs = s.ligRecs ∧ (s.setFolio i v).opRecs = s.opRecs ∧
    (s.setFolio i v).mem = s.mem ∧ (s.setFolio i v).poison = s.poison ∧ (s.setFolio i v).domains = s.domains ∧
    (s.setFolio i v).dir = s.dir ∧ (s.setFolio i v).txns = s.txns ∧ (s.setFolio i v).cohWait = s.cohWait ∧
    (s.setFolio i v).reissues = s.reissues ∧ (s.setFolio i v).regions = s.regions ∧ (s.setFolio i v).vloads = s.vloads ∧
    (s.setFolio i v).waitPubs = s.waitPubs ∧ (s.setFolio i v).ctxs = s.ctxs ∧ (s.setFolio i v).chunks = s.chunks ∧
    (s.setFolio i v).tables = s.tables ∧ (s.setFolio i v).quills = s.quills ∧ (s.setFolio i v).objects = s.objects ∧
    (s.setFolio i v).moves = s.moves ∧ (s.setFolio i v).moveQ = s.moveQ ∧ (s.setFolio i v).transitWait = s.transitWait ∧
    (s.setFolio i v).scheds = s.scheds ∧ (s.setFolio i v).pfPool = s.pfPool ∧ (s.setFolio i v).slots = s.slots ∧
    (s.setFolio i v).basisJobs = s.basisJobs ∧ (s.setFolio i v).encJobs = s.encJobs ∧
    (s.setFolio i v).expanders = s.expanders ∧ (s.setFolio i v).expResps = s.expResps ∧ (s.setFolio i v).batches = s.batches ∧
    (s.setFolio i v).parts = s.parts ∧ (s.setFolio i v).macsec = s.macsec ∧ (s.setFolio i v).units = s.units ∧
    (s.setFolio i v).standIn = s.standIn ∧ (s.setFolio i v).dumap = s.dumap ∧ (s.setFolio i v).watches = s.watches ∧
    (s.setFolio i v).hbSeq = s.hbSeq ∧ (s.setFolio i v).hbHeard = s.hbHeard ∧ (s.setFolio i v).dead = s.dead ∧
    (s.setFolio i v).alive = s.alive ∧ (s.setFolio i v).fences = s.fences ∧ (s.setFolio i v).fepoch = s.fepoch ∧
    (s.setFolio i v).members = s.members ∧ (s.setFolio i v).mepoch = s.mepoch ∧ (s.setFolio i v).staged = s.staged ∧
    (s.setFolio i v).grandfathered = s.grandfathered ∧ (s.setFolio i v).strags = s.strags ∧
    (s.setFolio i v).sessions = s.sessions ∧ (s.setFolio i v).loader = s.loader ∧ (s.setFolio i v).oprCred = s.oprCred ∧
    (s.setFolio i v).refused = s.refused ∧ (s.setFolio i v).hostSt = s.hostSt ∧ (s.setFolio i v).hrbs = s.hrbs ∧
    (s.setFolio i v).scribe = s.scribe ∧ (s.setFolio i v).power = s.power ∧ (s.setFolio i v).snap = s.snap := by
  and_intros <;> rfl

@[simp] theorem State.setFolio_folios (s : State) (i : Nat) (v : Folio) :
    (s.setFolio i v).folios = Sparse.set {} s.folios i v := rfl

@[simp] theorem State.setDomain_frame (s : State) (d : Nat) (v : Domain) :
    (s.setDomain d v).pending = s.pending ∧ (s.setDomain d v).time = s.time ∧ (s.setDomain d v).timebase = s.timebase ∧
    (s.setDomain d v).obj = s.obj ∧ (s.setDomain d v).blob = s.blob ∧ (s.setDomain d v).ctr = s.ctr ∧
    (s.setDomain d v).qos = s.qos ∧ (s.setDomain d v).limits = s.limits ∧ (s.setDomain d v).serial = s.serial ∧
    (s.setDomain d v).free = s.free ∧ (s.setDomain d v).out = s.out ∧ (s.setDomain d v).ports = s.ports ∧
    (s.setDomain d v).keys = s.keys ∧ (s.setDomain d v).kx = s.kx ∧ (s.setDomain d v).rawOut = s.rawOut ∧
    (s.setDomain d v).epPrev = s.epPrev ∧ (s.setDomain d v).epTime = s.epTime ∧ (s.setDomain d v).slot0 = s.slot0 ∧
    (s.setDomain d v).slot1 = s.slot1 ∧ (s.setDomain d v).ligs = s.ligs ∧ (s.setDomain d v).inq = s.inq ∧
    (s.setDomain d v).spine = s.spine ∧ (s.setDomain d v).spinePtr = s.spinePtr ∧ (s.setDomain d v).outs = s.outs ∧
    (s.setDomain d v).meters = s.meters ∧ (s.setDomain d v).holds = s.holds ∧ (s.setDomain d v).draws = s.draws ∧
    (s.setDomain d v).notices = s.notices ∧ (s.setDomain d v).asm = s.asm ∧ (s.setDomain d v).badMsgs = s.badMsgs ∧
    (s.setDomain d v).delivered = s.delivered ∧ (s.setDomain d v).tags = s.tags ∧ (s.setDomain d v).late = s.late ∧
    (s.setDomain d v).journal = s.journal ∧ (s.setDomain d v).ligRecs = s.ligRecs ∧ (s.setDomain d v).opRecs = s.opRecs ∧
    (s.setDomain d v).mem = s.mem ∧ (s.setDomain d v).poison = s.poison ∧ (s.setDomain d v).dir = s.dir ∧
    (s.setDomain d v).txns = s.txns ∧ (s.setDomain d v).cohWait = s.cohWait ∧ (s.setDomain d v).folios = s.folios ∧
    (s.setDomain d v).reissues = s.reissues ∧ (s.setDomain d v).regions = s.regions ∧ (s.setDomain d v).vloads = s.vloads ∧
    (s.setDomain d v).waitPubs = s.waitPubs ∧ (s.setDomain d v).ctxs = s.ctxs ∧ (s.setDomain d v).chunks = s.chunks ∧
    (s.setDomain d v).tables = s.tables ∧ (s.setDomain d v).quills = s.quills ∧ (s.setDomain d v).objects = s.objects ∧
    (s.setDomain d v).moves = s.moves ∧ (s.setDomain d v).moveQ = s.moveQ ∧ (s.setDomain d v).transitWait = s.transitWait ∧
    (s.setDomain d v).scheds = s.scheds ∧ (s.setDomain d v).pfPool = s.pfPool ∧ (s.setDomain d v).slots = s.slots ∧
    (s.setDomain d v).basisJobs = s.basisJobs ∧ (s.setDomain d v).encJobs = s.encJobs ∧
    (s.setDomain d v).expanders = s.expanders ∧ (s.setDomain d v).expResps = s.expResps ∧
    (s.setDomain d v).batches = s.batches ∧ (s.setDomain d v).parts = s.parts ∧ (s.setDomain d v).macsec = s.macsec ∧
    (s.setDomain d v).units = s.units ∧ (s.setDomain d v).standIn = s.standIn ∧ (s.setDomain d v).dumap = s.dumap ∧
    (s.setDomain d v).watches = s.watches ∧ (s.setDomain d v).hbSeq = s.hbSeq ∧ (s.setDomain d v).hbHeard = s.hbHeard ∧
    (s.setDomain d v).dead = s.dead ∧ (s.setDomain d v).alive = s.alive ∧ (s.setDomain d v).fences = s.fences ∧
    (s.setDomain d v).fepoch = s.fepoch ∧ (s.setDomain d v).members = s.members ∧ (s.setDomain d v).mepoch = s.mepoch ∧
    (s.setDomain d v).staged = s.staged ∧ (s.setDomain d v).grandfathered = s.grandfathered ∧
    (s.setDomain d v).strags = s.strags ∧ (s.setDomain d v).sessions = s.sessions ∧ (s.setDomain d v).loader = s.loader ∧
    (s.setDomain d v).oprCred = s.oprCred ∧ (s.setDomain d v).refused = s.refused ∧ (s.setDomain d v).hostSt = s.hostSt ∧
    (s.setDomain d v).hrbs = s.hrbs ∧ (s.setDomain d v).scribe = s.scribe ∧ (s.setDomain d v).power = s.power ∧
    (s.setDomain d v).snap = s.snap := by
  and_intros <;> rfl

@[simp] theorem State.setDomain_domains (s : State) (d : Nat) (v : Domain) :
    (s.setDomain d v).domains = Sparse.set {} s.domains d v := rfl

@[simp] theorem State.setCtx_frame (s : State) (c : Nat) (v : Ctx) :
    (s.setCtx c v).pending = s.pending ∧ (s.setCtx c v).time = s.time ∧ (s.setCtx c v).timebase = s.timebase ∧
    (s.setCtx c v).obj = s.obj ∧ (s.setCtx c v).blob = s.blob ∧ (s.setCtx c v).ctr = s.ctr ∧ (s.setCtx c v).qos = s.qos ∧
    (s.setCtx c v).limits = s.limits ∧ (s.setCtx c v).serial = s.serial ∧ (s.setCtx c v).free = s.free ∧
    (s.setCtx c v).out = s.out ∧ (s.setCtx c v).ports = s.ports ∧ (s.setCtx c v).keys = s.keys ∧ (s.setCtx c v).kx = s.kx ∧
    (s.setCtx c v).rawOut = s.rawOut ∧ (s.setCtx c v).epPrev = s.epPrev ∧ (s.setCtx c v).epTime = s.epTime ∧
    (s.setCtx c v).slot0 = s.slot0 ∧ (s.setCtx c v).slot1 = s.slot1 ∧ (s.setCtx c v).ligs = s.ligs ∧
    (s.setCtx c v).inq = s.inq ∧ (s.setCtx c v).spine = s.spine ∧ (s.setCtx c v).spinePtr = s.spinePtr ∧
    (s.setCtx c v).outs = s.outs ∧ (s.setCtx c v).meters = s.meters ∧ (s.setCtx c v).holds = s.holds ∧
    (s.setCtx c v).draws = s.draws ∧ (s.setCtx c v).notices = s.notices ∧ (s.setCtx c v).asm = s.asm ∧
    (s.setCtx c v).badMsgs = s.badMsgs ∧ (s.setCtx c v).delivered = s.delivered ∧ (s.setCtx c v).tags = s.tags ∧
    (s.setCtx c v).late = s.late ∧ (s.setCtx c v).journal = s.journal ∧ (s.setCtx c v).ligRecs = s.ligRecs ∧
    (s.setCtx c v).opRecs = s.opRecs ∧ (s.setCtx c v).mem = s.mem ∧ (s.setCtx c v).poison = s.poison ∧
    (s.setCtx c v).domains = s.domains ∧ (s.setCtx c v).dir = s.dir ∧ (s.setCtx c v).txns = s.txns ∧
    (s.setCtx c v).cohWait = s.cohWait ∧ (s.setCtx c v).folios = s.folios ∧ (s.setCtx c v).reissues = s.reissues ∧
    (s.setCtx c v).regions = s.regions ∧ (s.setCtx c v).vloads = s.vloads ∧ (s.setCtx c v).waitPubs = s.waitPubs ∧
    (s.setCtx c v).chunks = s.chunks ∧ (s.setCtx c v).tables = s.tables ∧ (s.setCtx c v).quills = s.quills ∧
    (s.setCtx c v).objects = s.objects ∧ (s.setCtx c v).moves = s.moves ∧ (s.setCtx c v).moveQ = s.moveQ ∧
    (s.setCtx c v).transitWait = s.transitWait ∧ (s.setCtx c v).scheds = s.scheds ∧ (s.setCtx c v).pfPool = s.pfPool ∧
    (s.setCtx c v).slots = s.slots ∧ (s.setCtx c v).basisJobs = s.basisJobs ∧ (s.setCtx c v).encJobs = s.encJobs ∧
    (s.setCtx c v).expanders = s.expanders ∧ (s.setCtx c v).expResps = s.expResps ∧ (s.setCtx c v).batches = s.batches ∧
    (s.setCtx c v).parts = s.parts ∧ (s.setCtx c v).macsec = s.macsec ∧ (s.setCtx c v).units = s.units ∧
    (s.setCtx c v).standIn = s.standIn ∧ (s.setCtx c v).dumap = s.dumap ∧ (s.setCtx c v).watches = s.watches ∧
    (s.setCtx c v).hbSeq = s.hbSeq ∧ (s.setCtx c v).hbHeard = s.hbHeard ∧ (s.setCtx c v).dead = s.dead ∧
    (s.setCtx c v).alive = s.alive ∧ (s.setCtx c v).fences = s.fences ∧ (s.setCtx c v).fepoch = s.fepoch ∧
    (s.setCtx c v).members = s.members ∧ (s.setCtx c v).mepoch = s.mepoch ∧ (s.setCtx c v).staged = s.staged ∧
    (s.setCtx c v).grandfathered = s.grandfathered ∧ (s.setCtx c v).strags = s.strags ∧ (s.setCtx c v).sessions = s.sessions ∧
    (s.setCtx c v).loader = s.loader ∧ (s.setCtx c v).oprCred = s.oprCred ∧ (s.setCtx c v).refused = s.refused ∧
    (s.setCtx c v).hostSt = s.hostSt ∧ (s.setCtx c v).hrbs = s.hrbs ∧ (s.setCtx c v).scribe = s.scribe ∧
    (s.setCtx c v).power = s.power ∧ (s.setCtx c v).snap = s.snap := by
  and_intros <;> rfl

@[simp] theorem State.setCtx_ctxs (s : State) (c : Nat) (v : Ctx) :
    (s.setCtx c v).ctxs = Sparse.set {} s.ctxs c v := rfl

@[simp] theorem State.setTable_frame (s : State) (t : Nat) (v : Table) :
    (s.setTable t v).pending = s.pending ∧ (s.setTable t v).time = s.time ∧ (s.setTable t v).timebase = s.timebase ∧
    (s.setTable t v).obj = s.obj ∧ (s.setTable t v).blob = s.blob ∧ (s.setTable t v).ctr = s.ctr ∧
    (s.setTable t v).qos = s.qos ∧ (s.setTable t v).limits = s.limits ∧ (s.setTable t v).serial = s.serial ∧
    (s.setTable t v).free = s.free ∧ (s.setTable t v).out = s.out ∧ (s.setTable t v).ports = s.ports ∧
    (s.setTable t v).keys = s.keys ∧ (s.setTable t v).kx = s.kx ∧ (s.setTable t v).rawOut = s.rawOut ∧
    (s.setTable t v).epPrev = s.epPrev ∧ (s.setTable t v).epTime = s.epTime ∧ (s.setTable t v).slot0 = s.slot0 ∧
    (s.setTable t v).slot1 = s.slot1 ∧ (s.setTable t v).ligs = s.ligs ∧ (s.setTable t v).inq = s.inq ∧
    (s.setTable t v).spine = s.spine ∧ (s.setTable t v).spinePtr = s.spinePtr ∧ (s.setTable t v).outs = s.outs ∧
    (s.setTable t v).meters = s.meters ∧ (s.setTable t v).holds = s.holds ∧ (s.setTable t v).draws = s.draws ∧
    (s.setTable t v).notices = s.notices ∧ (s.setTable t v).asm = s.asm ∧ (s.setTable t v).badMsgs = s.badMsgs ∧
    (s.setTable t v).delivered = s.delivered ∧ (s.setTable t v).tags = s.tags ∧ (s.setTable t v).late = s.late ∧
    (s.setTable t v).journal = s.journal ∧ (s.setTable t v).ligRecs = s.ligRecs ∧ (s.setTable t v).opRecs = s.opRecs ∧
    (s.setTable t v).mem = s.mem ∧ (s.setTable t v).poison = s.poison ∧ (s.setTable t v).domains = s.domains ∧
    (s.setTable t v).dir = s.dir ∧ (s.setTable t v).txns = s.txns ∧ (s.setTable t v).cohWait = s.cohWait ∧
    (s.setTable t v).folios = s.folios ∧ (s.setTable t v).reissues = s.reissues ∧ (s.setTable t v).regions = s.regions ∧
    (s.setTable t v).vloads = s.vloads ∧ (s.setTable t v).waitPubs = s.waitPubs ∧ (s.setTable t v).ctxs = s.ctxs ∧
    (s.setTable t v).chunks = s.chunks ∧ (s.setTable t v).quills = s.quills ∧ (s.setTable t v).objects = s.objects ∧
    (s.setTable t v).moves = s.moves ∧ (s.setTable t v).moveQ = s.moveQ ∧ (s.setTable t v).transitWait = s.transitWait ∧
    (s.setTable t v).scheds = s.scheds ∧ (s.setTable t v).pfPool = s.pfPool ∧ (s.setTable t v).slots = s.slots ∧
    (s.setTable t v).basisJobs = s.basisJobs ∧ (s.setTable t v).encJobs = s.encJobs ∧
    (s.setTable t v).expanders = s.expanders ∧ (s.setTable t v).expResps = s.expResps ∧ (s.setTable t v).batches = s.batches ∧
    (s.setTable t v).parts = s.parts ∧ (s.setTable t v).macsec = s.macsec ∧ (s.setTable t v).units = s.units ∧
    (s.setTable t v).standIn = s.standIn ∧ (s.setTable t v).dumap = s.dumap ∧ (s.setTable t v).watches = s.watches ∧
    (s.setTable t v).hbSeq = s.hbSeq ∧ (s.setTable t v).hbHeard = s.hbHeard ∧ (s.setTable t v).dead = s.dead ∧
    (s.setTable t v).alive = s.alive ∧ (s.setTable t v).fences = s.fences ∧ (s.setTable t v).fepoch = s.fepoch ∧
    (s.setTable t v).members = s.members ∧ (s.setTable t v).mepoch = s.mepoch ∧ (s.setTable t v).staged = s.staged ∧
    (s.setTable t v).grandfathered = s.grandfathered ∧ (s.setTable t v).strags = s.strags ∧
    (s.setTable t v).sessions = s.sessions ∧ (s.setTable t v).loader = s.loader ∧ (s.setTable t v).oprCred = s.oprCred ∧
    (s.setTable t v).refused = s.refused ∧ (s.setTable t v).hostSt = s.hostSt ∧ (s.setTable t v).hrbs = s.hrbs ∧
    (s.setTable t v).scribe = s.scribe ∧ (s.setTable t v).power = s.power ∧ (s.setTable t v).snap = s.snap := by
  and_intros <;> rfl

@[simp] theorem State.setTable_tables (s : State) (t : Nat) (v : Table) :
    (s.setTable t v).tables = Sparse.set {} s.tables t v := rfl

@[simp] theorem State.setQuill_frame (s : State) (q : Nat) (v : QuillSt) :
    (s.setQuill q v).pending = s.pending ∧ (s.setQuill q v).time = s.time ∧ (s.setQuill q v).timebase = s.timebase ∧
    (s.setQuill q v).obj = s.obj ∧ (s.setQuill q v).blob = s.blob ∧ (s.setQuill q v).ctr = s.ctr ∧
    (s.setQuill q v).qos = s.qos ∧ (s.setQuill q v).limits = s.limits ∧ (s.setQuill q v).serial = s.serial ∧
    (s.setQuill q v).free = s.free ∧ (s.setQuill q v).out = s.out ∧ (s.setQuill q v).ports = s.ports ∧
    (s.setQuill q v).keys = s.keys ∧ (s.setQuill q v).kx = s.kx ∧ (s.setQuill q v).rawOut = s.rawOut ∧
    (s.setQuill q v).epPrev = s.epPrev ∧ (s.setQuill q v).epTime = s.epTime ∧ (s.setQuill q v).slot0 = s.slot0 ∧
    (s.setQuill q v).slot1 = s.slot1 ∧ (s.setQuill q v).ligs = s.ligs ∧ (s.setQuill q v).inq = s.inq ∧
    (s.setQuill q v).spine = s.spine ∧ (s.setQuill q v).spinePtr = s.spinePtr ∧ (s.setQuill q v).outs = s.outs ∧
    (s.setQuill q v).meters = s.meters ∧ (s.setQuill q v).holds = s.holds ∧ (s.setQuill q v).draws = s.draws ∧
    (s.setQuill q v).notices = s.notices ∧ (s.setQuill q v).asm = s.asm ∧ (s.setQuill q v).badMsgs = s.badMsgs ∧
    (s.setQuill q v).delivered = s.delivered ∧ (s.setQuill q v).tags = s.tags ∧ (s.setQuill q v).late = s.late ∧
    (s.setQuill q v).journal = s.journal ∧ (s.setQuill q v).ligRecs = s.ligRecs ∧ (s.setQuill q v).opRecs = s.opRecs ∧
    (s.setQuill q v).mem = s.mem ∧ (s.setQuill q v).poison = s.poison ∧ (s.setQuill q v).domains = s.domains ∧
    (s.setQuill q v).dir = s.dir ∧ (s.setQuill q v).txns = s.txns ∧ (s.setQuill q v).cohWait = s.cohWait ∧
    (s.setQuill q v).folios = s.folios ∧ (s.setQuill q v).reissues = s.reissues ∧ (s.setQuill q v).regions = s.regions ∧
    (s.setQuill q v).vloads = s.vloads ∧ (s.setQuill q v).waitPubs = s.waitPubs ∧ (s.setQuill q v).ctxs = s.ctxs ∧
    (s.setQuill q v).chunks = s.chunks ∧ (s.setQuill q v).tables = s.tables ∧ (s.setQuill q v).objects = s.objects ∧
    (s.setQuill q v).moves = s.moves ∧ (s.setQuill q v).moveQ = s.moveQ ∧ (s.setQuill q v).transitWait = s.transitWait ∧
    (s.setQuill q v).scheds = s.scheds ∧ (s.setQuill q v).pfPool = s.pfPool ∧ (s.setQuill q v).slots = s.slots ∧
    (s.setQuill q v).basisJobs = s.basisJobs ∧ (s.setQuill q v).encJobs = s.encJobs ∧
    (s.setQuill q v).expanders = s.expanders ∧ (s.setQuill q v).expResps = s.expResps ∧ (s.setQuill q v).batches = s.batches ∧
    (s.setQuill q v).parts = s.parts ∧ (s.setQuill q v).macsec = s.macsec ∧ (s.setQuill q v).units = s.units ∧
    (s.setQuill q v).standIn = s.standIn ∧ (s.setQuill q v).dumap = s.dumap ∧ (s.setQuill q v).watches = s.watches ∧
    (s.setQuill q v).hbSeq = s.hbSeq ∧ (s.setQuill q v).hbHeard = s.hbHeard ∧ (s.setQuill q v).dead = s.dead ∧
    (s.setQuill q v).alive = s.alive ∧ (s.setQuill q v).fences = s.fences ∧ (s.setQuill q v).fepoch = s.fepoch ∧
    (s.setQuill q v).members = s.members ∧ (s.setQuill q v).mepoch = s.mepoch ∧ (s.setQuill q v).staged = s.staged ∧
    (s.setQuill q v).grandfathered = s.grandfathered ∧ (s.setQuill q v).strags = s.strags ∧
    (s.setQuill q v).sessions = s.sessions ∧ (s.setQuill q v).loader = s.loader ∧ (s.setQuill q v).oprCred = s.oprCred ∧
    (s.setQuill q v).refused = s.refused ∧ (s.setQuill q v).hostSt = s.hostSt ∧ (s.setQuill q v).hrbs = s.hrbs ∧
    (s.setQuill q v).scribe = s.scribe ∧ (s.setQuill q v).power = s.power ∧ (s.setQuill q v).snap = s.snap := by
  and_intros <;> rfl

@[simp] theorem State.setQuill_quills (s : State) (q : Nat) (v : QuillSt) :
    (s.setQuill q v).quills = Sparse.set {} s.quills q v := rfl

@[simp] theorem State.setObject_frame (s : State) (n : Nat) (v : Obj) :
    (s.setObject n v).pending = s.pending ∧ (s.setObject n v).time = s.time ∧ (s.setObject n v).timebase = s.timebase ∧
    (s.setObject n v).obj = s.obj ∧ (s.setObject n v).blob = s.blob ∧ (s.setObject n v).ctr = s.ctr ∧
    (s.setObject n v).qos = s.qos ∧ (s.setObject n v).limits = s.limits ∧ (s.setObject n v).serial = s.serial ∧
    (s.setObject n v).free = s.free ∧ (s.setObject n v).out = s.out ∧ (s.setObject n v).ports = s.ports ∧
    (s.setObject n v).keys = s.keys ∧ (s.setObject n v).kx = s.kx ∧ (s.setObject n v).rawOut = s.rawOut ∧
    (s.setObject n v).epPrev = s.epPrev ∧ (s.setObject n v).epTime = s.epTime ∧ (s.setObject n v).slot0 = s.slot0 ∧
    (s.setObject n v).slot1 = s.slot1 ∧ (s.setObject n v).ligs = s.ligs ∧ (s.setObject n v).inq = s.inq ∧
    (s.setObject n v).spine = s.spine ∧ (s.setObject n v).spinePtr = s.spinePtr ∧ (s.setObject n v).outs = s.outs ∧
    (s.setObject n v).meters = s.meters ∧ (s.setObject n v).holds = s.holds ∧ (s.setObject n v).draws = s.draws ∧
    (s.setObject n v).notices = s.notices ∧ (s.setObject n v).asm = s.asm ∧ (s.setObject n v).badMsgs = s.badMsgs ∧
    (s.setObject n v).delivered = s.delivered ∧ (s.setObject n v).tags = s.tags ∧ (s.setObject n v).late = s.late ∧
    (s.setObject n v).journal = s.journal ∧ (s.setObject n v).ligRecs = s.ligRecs ∧ (s.setObject n v).opRecs = s.opRecs ∧
    (s.setObject n v).mem = s.mem ∧ (s.setObject n v).poison = s.poison ∧ (s.setObject n v).domains = s.domains ∧
    (s.setObject n v).dir = s.dir ∧ (s.setObject n v).txns = s.txns ∧ (s.setObject n v).cohWait = s.cohWait ∧
    (s.setObject n v).folios = s.folios ∧ (s.setObject n v).reissues = s.reissues ∧ (s.setObject n v).regions = s.regions ∧
    (s.setObject n v).vloads = s.vloads ∧ (s.setObject n v).waitPubs = s.waitPubs ∧ (s.setObject n v).ctxs = s.ctxs ∧
    (s.setObject n v).chunks = s.chunks ∧ (s.setObject n v).tables = s.tables ∧ (s.setObject n v).quills = s.quills ∧
    (s.setObject n v).moves = s.moves ∧ (s.setObject n v).moveQ = s.moveQ ∧ (s.setObject n v).transitWait = s.transitWait ∧
    (s.setObject n v).scheds = s.scheds ∧ (s.setObject n v).pfPool = s.pfPool ∧ (s.setObject n v).slots = s.slots ∧
    (s.setObject n v).basisJobs = s.basisJobs ∧ (s.setObject n v).encJobs = s.encJobs ∧
    (s.setObject n v).expanders = s.expanders ∧ (s.setObject n v).expResps = s.expResps ∧
    (s.setObject n v).batches = s.batches ∧ (s.setObject n v).parts = s.parts ∧ (s.setObject n v).macsec = s.macsec ∧
    (s.setObject n v).units = s.units ∧ (s.setObject n v).standIn = s.standIn ∧ (s.setObject n v).dumap = s.dumap ∧
    (s.setObject n v).watches = s.watches ∧ (s.setObject n v).hbSeq = s.hbSeq ∧ (s.setObject n v).hbHeard = s.hbHeard ∧
    (s.setObject n v).dead = s.dead ∧ (s.setObject n v).alive = s.alive ∧ (s.setObject n v).fences = s.fences ∧
    (s.setObject n v).fepoch = s.fepoch ∧ (s.setObject n v).members = s.members ∧ (s.setObject n v).mepoch = s.mepoch ∧
    (s.setObject n v).staged = s.staged ∧ (s.setObject n v).grandfathered = s.grandfathered ∧
    (s.setObject n v).strags = s.strags ∧ (s.setObject n v).sessions = s.sessions ∧ (s.setObject n v).loader = s.loader ∧
    (s.setObject n v).oprCred = s.oprCred ∧ (s.setObject n v).refused = s.refused ∧ (s.setObject n v).hostSt = s.hostSt ∧
    (s.setObject n v).hrbs = s.hrbs ∧ (s.setObject n v).scribe = s.scribe ∧ (s.setObject n v).power = s.power ∧
    (s.setObject n v).snap = s.snap := by
  and_intros <;> rfl

@[simp] theorem State.setObject_objects (s : State) (n : Nat) (v : Obj) :
    (s.setObject n v).objects = Sparse.set {} s.objects n v := rfl

@[simp] theorem State.setSched_frame (s : State) (n : Nat) (v : Sched) :
    (s.setSched n v).pending = s.pending ∧ (s.setSched n v).time = s.time ∧ (s.setSched n v).timebase = s.timebase ∧
    (s.setSched n v).obj = s.obj ∧ (s.setSched n v).blob = s.blob ∧ (s.setSched n v).ctr = s.ctr ∧
    (s.setSched n v).qos = s.qos ∧ (s.setSched n v).limits = s.limits ∧ (s.setSched n v).serial = s.serial ∧
    (s.setSched n v).free = s.free ∧ (s.setSched n v).out = s.out ∧ (s.setSched n v).ports = s.ports ∧
    (s.setSched n v).keys = s.keys ∧ (s.setSched n v).kx = s.kx ∧ (s.setSched n v).rawOut = s.rawOut ∧
    (s.setSched n v).epPrev = s.epPrev ∧ (s.setSched n v).epTime = s.epTime ∧ (s.setSched n v).slot0 = s.slot0 ∧
    (s.setSched n v).slot1 = s.slot1 ∧ (s.setSched n v).ligs = s.ligs ∧ (s.setSched n v).inq = s.inq ∧
    (s.setSched n v).spine = s.spine ∧ (s.setSched n v).spinePtr = s.spinePtr ∧ (s.setSched n v).outs = s.outs ∧
    (s.setSched n v).meters = s.meters ∧ (s.setSched n v).holds = s.holds ∧ (s.setSched n v).draws = s.draws ∧
    (s.setSched n v).notices = s.notices ∧ (s.setSched n v).asm = s.asm ∧ (s.setSched n v).badMsgs = s.badMsgs ∧
    (s.setSched n v).delivered = s.delivered ∧ (s.setSched n v).tags = s.tags ∧ (s.setSched n v).late = s.late ∧
    (s.setSched n v).journal = s.journal ∧ (s.setSched n v).ligRecs = s.ligRecs ∧ (s.setSched n v).opRecs = s.opRecs ∧
    (s.setSched n v).mem = s.mem ∧ (s.setSched n v).poison = s.poison ∧ (s.setSched n v).domains = s.domains ∧
    (s.setSched n v).dir = s.dir ∧ (s.setSched n v).txns = s.txns ∧ (s.setSched n v).cohWait = s.cohWait ∧
    (s.setSched n v).folios = s.folios ∧ (s.setSched n v).reissues = s.reissues ∧ (s.setSched n v).regions = s.regions ∧
    (s.setSched n v).vloads = s.vloads ∧ (s.setSched n v).waitPubs = s.waitPubs ∧ (s.setSched n v).ctxs = s.ctxs ∧
    (s.setSched n v).chunks = s.chunks ∧ (s.setSched n v).tables = s.tables ∧ (s.setSched n v).quills = s.quills ∧
    (s.setSched n v).objects = s.objects ∧ (s.setSched n v).moves = s.moves ∧ (s.setSched n v).moveQ = s.moveQ ∧
    (s.setSched n v).transitWait = s.transitWait ∧ (s.setSched n v).pfPool = s.pfPool ∧ (s.setSched n v).slots = s.slots ∧
    (s.setSched n v).basisJobs = s.basisJobs ∧ (s.setSched n v).encJobs = s.encJobs ∧
    (s.setSched n v).expanders = s.expanders ∧ (s.setSched n v).expResps = s.expResps ∧ (s.setSched n v).batches = s.batches ∧
    (s.setSched n v).parts = s.parts ∧ (s.setSched n v).macsec = s.macsec ∧ (s.setSched n v).units = s.units ∧
    (s.setSched n v).standIn = s.standIn ∧ (s.setSched n v).dumap = s.dumap ∧ (s.setSched n v).watches = s.watches ∧
    (s.setSched n v).hbSeq = s.hbSeq ∧ (s.setSched n v).hbHeard = s.hbHeard ∧ (s.setSched n v).dead = s.dead ∧
    (s.setSched n v).alive = s.alive ∧ (s.setSched n v).fences = s.fences ∧ (s.setSched n v).fepoch = s.fepoch ∧
    (s.setSched n v).members = s.members ∧ (s.setSched n v).mepoch = s.mepoch ∧ (s.setSched n v).staged = s.staged ∧
    (s.setSched n v).grandfathered = s.grandfathered ∧ (s.setSched n v).strags = s.strags ∧
    (s.setSched n v).sessions = s.sessions ∧ (s.setSched n v).loader = s.loader ∧ (s.setSched n v).oprCred = s.oprCred ∧
    (s.setSched n v).refused = s.refused ∧ (s.setSched n v).hostSt = s.hostSt ∧ (s.setSched n v).hrbs = s.hrbs ∧
    (s.setSched n v).scribe = s.scribe ∧ (s.setSched n v).power = s.power ∧ (s.setSched n v).snap = s.snap := by
  and_intros <;> rfl

@[simp] theorem State.setSched_scheds (s : State) (n : Nat) (v : Sched) :
    (s.setSched n v).scheds = Sparse.set {} s.scheds n v := rfl

@[simp] theorem State.setSlot_frame (s : State) (n : Nat) (v : BasisSlot) :
    (s.setSlot n v).pending = s.pending ∧ (s.setSlot n v).time = s.time ∧ (s.setSlot n v).timebase = s.timebase ∧
    (s.setSlot n v).obj = s.obj ∧ (s.setSlot n v).blob = s.blob ∧ (s.setSlot n v).ctr = s.ctr ∧ (s.setSlot n v).qos = s.qos ∧
    (s.setSlot n v).limits = s.limits ∧ (s.setSlot n v).serial = s.serial ∧ (s.setSlot n v).free = s.free ∧
    (s.setSlot n v).out = s.out ∧ (s.setSlot n v).ports = s.ports ∧ (s.setSlot n v).keys = s.keys ∧ (s.setSlot n v).kx = s.kx ∧
    (s.setSlot n v).rawOut = s.rawOut ∧ (s.setSlot n v).epPrev = s.epPrev ∧ (s.setSlot n v).epTime = s.epTime ∧
    (s.setSlot n v).slot0 = s.slot0 ∧ (s.setSlot n v).slot1 = s.slot1 ∧ (s.setSlot n v).ligs = s.ligs ∧
    (s.setSlot n v).inq = s.inq ∧ (s.setSlot n v).spine = s.spine ∧ (s.setSlot n v).spinePtr = s.spinePtr ∧
    (s.setSlot n v).outs = s.outs ∧ (s.setSlot n v).meters = s.meters ∧ (s.setSlot n v).holds = s.holds ∧
    (s.setSlot n v).draws = s.draws ∧ (s.setSlot n v).notices = s.notices ∧ (s.setSlot n v).asm = s.asm ∧
    (s.setSlot n v).badMsgs = s.badMsgs ∧ (s.setSlot n v).delivered = s.delivered ∧ (s.setSlot n v).tags = s.tags ∧
    (s.setSlot n v).late = s.late ∧ (s.setSlot n v).journal = s.journal ∧ (s.setSlot n v).ligRecs = s.ligRecs ∧
    (s.setSlot n v).opRecs = s.opRecs ∧ (s.setSlot n v).mem = s.mem ∧ (s.setSlot n v).poison = s.poison ∧
    (s.setSlot n v).domains = s.domains ∧ (s.setSlot n v).dir = s.dir ∧ (s.setSlot n v).txns = s.txns ∧
    (s.setSlot n v).cohWait = s.cohWait ∧ (s.setSlot n v).folios = s.folios ∧ (s.setSlot n v).reissues = s.reissues ∧
    (s.setSlot n v).regions = s.regions ∧ (s.setSlot n v).vloads = s.vloads ∧ (s.setSlot n v).waitPubs = s.waitPubs ∧
    (s.setSlot n v).ctxs = s.ctxs ∧ (s.setSlot n v).chunks = s.chunks ∧ (s.setSlot n v).tables = s.tables ∧
    (s.setSlot n v).quills = s.quills ∧ (s.setSlot n v).objects = s.objects ∧ (s.setSlot n v).moves = s.moves ∧
    (s.setSlot n v).moveQ = s.moveQ ∧ (s.setSlot n v).transitWait = s.transitWait ∧ (s.setSlot n v).scheds = s.scheds ∧
    (s.setSlot n v).pfPool = s.pfPool ∧ (s.setSlot n v).basisJobs = s.basisJobs ∧ (s.setSlot n v).encJobs = s.encJobs ∧
    (s.setSlot n v).expanders = s.expanders ∧ (s.setSlot n v).expResps = s.expResps ∧ (s.setSlot n v).batches = s.batches ∧
    (s.setSlot n v).parts = s.parts ∧ (s.setSlot n v).macsec = s.macsec ∧ (s.setSlot n v).units = s.units ∧
    (s.setSlot n v).standIn = s.standIn ∧ (s.setSlot n v).dumap = s.dumap ∧ (s.setSlot n v).watches = s.watches ∧
    (s.setSlot n v).hbSeq = s.hbSeq ∧ (s.setSlot n v).hbHeard = s.hbHeard ∧ (s.setSlot n v).dead = s.dead ∧
    (s.setSlot n v).alive = s.alive ∧ (s.setSlot n v).fences = s.fences ∧ (s.setSlot n v).fepoch = s.fepoch ∧
    (s.setSlot n v).members = s.members ∧ (s.setSlot n v).mepoch = s.mepoch ∧ (s.setSlot n v).staged = s.staged ∧
    (s.setSlot n v).grandfathered = s.grandfathered ∧ (s.setSlot n v).strags = s.strags ∧
    (s.setSlot n v).sessions = s.sessions ∧ (s.setSlot n v).loader = s.loader ∧ (s.setSlot n v).oprCred = s.oprCred ∧
    (s.setSlot n v).refused = s.refused ∧ (s.setSlot n v).hostSt = s.hostSt ∧ (s.setSlot n v).hrbs = s.hrbs ∧
    (s.setSlot n v).scribe = s.scribe ∧ (s.setSlot n v).power = s.power ∧ (s.setSlot n v).snap = s.snap := by
  and_intros <;> rfl

@[simp] theorem State.setSlot_slots (s : State) (n : Nat) (v : BasisSlot) :
    (s.setSlot n v).slots = Sparse.set {} s.slots n v := rfl

@[simp] theorem State.setBatch_frame (s : State) (p : Nat) (v : Batch) :
    (s.setBatch p v).pending = s.pending ∧ (s.setBatch p v).time = s.time ∧ (s.setBatch p v).timebase = s.timebase ∧
    (s.setBatch p v).obj = s.obj ∧ (s.setBatch p v).blob = s.blob ∧ (s.setBatch p v).ctr = s.ctr ∧
    (s.setBatch p v).qos = s.qos ∧ (s.setBatch p v).limits = s.limits ∧ (s.setBatch p v).serial = s.serial ∧
    (s.setBatch p v).free = s.free ∧ (s.setBatch p v).out = s.out ∧ (s.setBatch p v).ports = s.ports ∧
    (s.setBatch p v).keys = s.keys ∧ (s.setBatch p v).kx = s.kx ∧ (s.setBatch p v).rawOut = s.rawOut ∧
    (s.setBatch p v).epPrev = s.epPrev ∧ (s.setBatch p v).epTime = s.epTime ∧ (s.setBatch p v).slot0 = s.slot0 ∧
    (s.setBatch p v).slot1 = s.slot1 ∧ (s.setBatch p v).ligs = s.ligs ∧ (s.setBatch p v).inq = s.inq ∧
    (s.setBatch p v).spine = s.spine ∧ (s.setBatch p v).spinePtr = s.spinePtr ∧ (s.setBatch p v).outs = s.outs ∧
    (s.setBatch p v).meters = s.meters ∧ (s.setBatch p v).holds = s.holds ∧ (s.setBatch p v).draws = s.draws ∧
    (s.setBatch p v).notices = s.notices ∧ (s.setBatch p v).asm = s.asm ∧ (s.setBatch p v).badMsgs = s.badMsgs ∧
    (s.setBatch p v).delivered = s.delivered ∧ (s.setBatch p v).tags = s.tags ∧ (s.setBatch p v).late = s.late ∧
    (s.setBatch p v).journal = s.journal ∧ (s.setBatch p v).ligRecs = s.ligRecs ∧ (s.setBatch p v).opRecs = s.opRecs ∧
    (s.setBatch p v).mem = s.mem ∧ (s.setBatch p v).poison = s.poison ∧ (s.setBatch p v).domains = s.domains ∧
    (s.setBatch p v).dir = s.dir ∧ (s.setBatch p v).txns = s.txns ∧ (s.setBatch p v).cohWait = s.cohWait ∧
    (s.setBatch p v).folios = s.folios ∧ (s.setBatch p v).reissues = s.reissues ∧ (s.setBatch p v).regions = s.regions ∧
    (s.setBatch p v).vloads = s.vloads ∧ (s.setBatch p v).waitPubs = s.waitPubs ∧ (s.setBatch p v).ctxs = s.ctxs ∧
    (s.setBatch p v).chunks = s.chunks ∧ (s.setBatch p v).tables = s.tables ∧ (s.setBatch p v).quills = s.quills ∧
    (s.setBatch p v).objects = s.objects ∧ (s.setBatch p v).moves = s.moves ∧ (s.setBatch p v).moveQ = s.moveQ ∧
    (s.setBatch p v).transitWait = s.transitWait ∧ (s.setBatch p v).scheds = s.scheds ∧ (s.setBatch p v).pfPool = s.pfPool ∧
    (s.setBatch p v).slots = s.slots ∧ (s.setBatch p v).basisJobs = s.basisJobs ∧ (s.setBatch p v).encJobs = s.encJobs ∧
    (s.setBatch p v).expanders = s.expanders ∧ (s.setBatch p v).expResps = s.expResps ∧ (s.setBatch p v).parts = s.parts ∧
    (s.setBatch p v).macsec = s.macsec ∧ (s.setBatch p v).units = s.units ∧ (s.setBatch p v).standIn = s.standIn ∧
    (s.setBatch p v).dumap = s.dumap ∧ (s.setBatch p v).watches = s.watches ∧ (s.setBatch p v).hbSeq = s.hbSeq ∧
    (s.setBatch p v).hbHeard = s.hbHeard ∧ (s.setBatch p v).dead = s.dead ∧ (s.setBatch p v).alive = s.alive ∧
    (s.setBatch p v).fences = s.fences ∧ (s.setBatch p v).fepoch = s.fepoch ∧ (s.setBatch p v).members = s.members ∧
    (s.setBatch p v).mepoch = s.mepoch ∧ (s.setBatch p v).staged = s.staged ∧
    (s.setBatch p v).grandfathered = s.grandfathered ∧ (s.setBatch p v).strags = s.strags ∧
    (s.setBatch p v).sessions = s.sessions ∧ (s.setBatch p v).loader = s.loader ∧ (s.setBatch p v).oprCred = s.oprCred ∧
    (s.setBatch p v).refused = s.refused ∧ (s.setBatch p v).hostSt = s.hostSt ∧ (s.setBatch p v).hrbs = s.hrbs ∧
    (s.setBatch p v).scribe = s.scribe ∧ (s.setBatch p v).power = s.power ∧ (s.setBatch p v).snap = s.snap := by
  and_intros <;> rfl

@[simp] theorem State.setBatch_batches (s : State) (p : Nat) (v : Batch) :
    (s.setBatch p v).batches = Sparse.set {} s.batches p v := rfl

@[simp] theorem State.setRegion_frame (s : State) (r : Nat) (v : Option Region) :
    (s.setRegion r v).pending = s.pending ∧ (s.setRegion r v).time = s.time ∧ (s.setRegion r v).timebase = s.timebase ∧
    (s.setRegion r v).obj = s.obj ∧ (s.setRegion r v).blob = s.blob ∧ (s.setRegion r v).ctr = s.ctr ∧
    (s.setRegion r v).qos = s.qos ∧ (s.setRegion r v).limits = s.limits ∧ (s.setRegion r v).serial = s.serial ∧
    (s.setRegion r v).free = s.free ∧ (s.setRegion r v).out = s.out ∧ (s.setRegion r v).ports = s.ports ∧
    (s.setRegion r v).keys = s.keys ∧ (s.setRegion r v).kx = s.kx ∧ (s.setRegion r v).rawOut = s.rawOut ∧
    (s.setRegion r v).epPrev = s.epPrev ∧ (s.setRegion r v).epTime = s.epTime ∧ (s.setRegion r v).slot0 = s.slot0 ∧
    (s.setRegion r v).slot1 = s.slot1 ∧ (s.setRegion r v).ligs = s.ligs ∧ (s.setRegion r v).inq = s.inq ∧
    (s.setRegion r v).spine = s.spine ∧ (s.setRegion r v).spinePtr = s.spinePtr ∧ (s.setRegion r v).outs = s.outs ∧
    (s.setRegion r v).meters = s.meters ∧ (s.setRegion r v).holds = s.holds ∧ (s.setRegion r v).draws = s.draws ∧
    (s.setRegion r v).notices = s.notices ∧ (s.setRegion r v).asm = s.asm ∧ (s.setRegion r v).badMsgs = s.badMsgs ∧
    (s.setRegion r v).delivered = s.delivered ∧ (s.setRegion r v).tags = s.tags ∧ (s.setRegion r v).late = s.late ∧
    (s.setRegion r v).journal = s.journal ∧ (s.setRegion r v).ligRecs = s.ligRecs ∧ (s.setRegion r v).opRecs = s.opRecs ∧
    (s.setRegion r v).mem = s.mem ∧ (s.setRegion r v).poison = s.poison ∧ (s.setRegion r v).domains = s.domains ∧
    (s.setRegion r v).dir = s.dir ∧ (s.setRegion r v).txns = s.txns ∧ (s.setRegion r v).cohWait = s.cohWait ∧
    (s.setRegion r v).folios = s.folios ∧ (s.setRegion r v).reissues = s.reissues ∧ (s.setRegion r v).vloads = s.vloads ∧
    (s.setRegion r v).waitPubs = s.waitPubs ∧ (s.setRegion r v).ctxs = s.ctxs ∧ (s.setRegion r v).chunks = s.chunks ∧
    (s.setRegion r v).tables = s.tables ∧ (s.setRegion r v).quills = s.quills ∧ (s.setRegion r v).objects = s.objects ∧
    (s.setRegion r v).moves = s.moves ∧ (s.setRegion r v).moveQ = s.moveQ ∧ (s.setRegion r v).transitWait = s.transitWait ∧
    (s.setRegion r v).scheds = s.scheds ∧ (s.setRegion r v).pfPool = s.pfPool ∧ (s.setRegion r v).slots = s.slots ∧
    (s.setRegion r v).basisJobs = s.basisJobs ∧ (s.setRegion r v).encJobs = s.encJobs ∧
    (s.setRegion r v).expanders = s.expanders ∧ (s.setRegion r v).expResps = s.expResps ∧
    (s.setRegion r v).batches = s.batches ∧ (s.setRegion r v).parts = s.parts ∧ (s.setRegion r v).macsec = s.macsec ∧
    (s.setRegion r v).units = s.units ∧ (s.setRegion r v).standIn = s.standIn ∧ (s.setRegion r v).dumap = s.dumap ∧
    (s.setRegion r v).watches = s.watches ∧ (s.setRegion r v).hbSeq = s.hbSeq ∧ (s.setRegion r v).hbHeard = s.hbHeard ∧
    (s.setRegion r v).dead = s.dead ∧ (s.setRegion r v).alive = s.alive ∧ (s.setRegion r v).fences = s.fences ∧
    (s.setRegion r v).fepoch = s.fepoch ∧ (s.setRegion r v).members = s.members ∧ (s.setRegion r v).mepoch = s.mepoch ∧
    (s.setRegion r v).staged = s.staged ∧ (s.setRegion r v).grandfathered = s.grandfathered ∧
    (s.setRegion r v).strags = s.strags ∧ (s.setRegion r v).sessions = s.sessions ∧ (s.setRegion r v).loader = s.loader ∧
    (s.setRegion r v).oprCred = s.oprCred ∧ (s.setRegion r v).refused = s.refused ∧ (s.setRegion r v).hostSt = s.hostSt ∧
    (s.setRegion r v).hrbs = s.hrbs ∧ (s.setRegion r v).scribe = s.scribe ∧ (s.setRegion r v).power = s.power ∧
    (s.setRegion r v).snap = s.snap := by
  and_intros <;> rfl

@[simp] theorem State.setRegion_regions (s : State) (r : Nat) (v : Option Region) :
    (s.setRegion r v).regions = Sparse.set none s.regions r v := rfl

@[simp] theorem State.setMeter_frame (s : State) (m : Nat) (v : MeterSt) :
    (s.setMeter m v).pending = s.pending ∧ (s.setMeter m v).time = s.time ∧ (s.setMeter m v).timebase = s.timebase ∧
    (s.setMeter m v).obj = s.obj ∧ (s.setMeter m v).blob = s.blob ∧ (s.setMeter m v).ctr = s.ctr ∧
    (s.setMeter m v).qos = s.qos ∧ (s.setMeter m v).limits = s.limits ∧ (s.setMeter m v).serial = s.serial ∧
    (s.setMeter m v).free = s.free ∧ (s.setMeter m v).out = s.out ∧ (s.setMeter m v).ports = s.ports ∧
    (s.setMeter m v).keys = s.keys ∧ (s.setMeter m v).kx = s.kx ∧ (s.setMeter m v).rawOut = s.rawOut ∧
    (s.setMeter m v).epPrev = s.epPrev ∧ (s.setMeter m v).epTime = s.epTime ∧ (s.setMeter m v).slot0 = s.slot0 ∧
    (s.setMeter m v).slot1 = s.slot1 ∧ (s.setMeter m v).ligs = s.ligs ∧ (s.setMeter m v).inq = s.inq ∧
    (s.setMeter m v).spine = s.spine ∧ (s.setMeter m v).spinePtr = s.spinePtr ∧ (s.setMeter m v).outs = s.outs ∧
    (s.setMeter m v).holds = s.holds ∧ (s.setMeter m v).draws = s.draws ∧ (s.setMeter m v).notices = s.notices ∧
    (s.setMeter m v).asm = s.asm ∧ (s.setMeter m v).badMsgs = s.badMsgs ∧ (s.setMeter m v).delivered = s.delivered ∧
    (s.setMeter m v).tags = s.tags ∧ (s.setMeter m v).late = s.late ∧ (s.setMeter m v).journal = s.journal ∧
    (s.setMeter m v).ligRecs = s.ligRecs ∧ (s.setMeter m v).opRecs = s.opRecs ∧ (s.setMeter m v).mem = s.mem ∧
    (s.setMeter m v).poison = s.poison ∧ (s.setMeter m v).domains = s.domains ∧ (s.setMeter m v).dir = s.dir ∧
    (s.setMeter m v).txns = s.txns ∧ (s.setMeter m v).cohWait = s.cohWait ∧ (s.setMeter m v).folios = s.folios ∧
    (s.setMeter m v).reissues = s.reissues ∧ (s.setMeter m v).regions = s.regions ∧ (s.setMeter m v).vloads = s.vloads ∧
    (s.setMeter m v).waitPubs = s.waitPubs ∧ (s.setMeter m v).ctxs = s.ctxs ∧ (s.setMeter m v).chunks = s.chunks ∧
    (s.setMeter m v).tables = s.tables ∧ (s.setMeter m v).quills = s.quills ∧ (s.setMeter m v).objects = s.objects ∧
    (s.setMeter m v).moves = s.moves ∧ (s.setMeter m v).moveQ = s.moveQ ∧ (s.setMeter m v).transitWait = s.transitWait ∧
    (s.setMeter m v).scheds = s.scheds ∧ (s.setMeter m v).pfPool = s.pfPool ∧ (s.setMeter m v).slots = s.slots ∧
    (s.setMeter m v).basisJobs = s.basisJobs ∧ (s.setMeter m v).encJobs = s.encJobs ∧
    (s.setMeter m v).expanders = s.expanders ∧ (s.setMeter m v).expResps = s.expResps ∧ (s.setMeter m v).batches = s.batches ∧
    (s.setMeter m v).parts = s.parts ∧ (s.setMeter m v).macsec = s.macsec ∧ (s.setMeter m v).units = s.units ∧
    (s.setMeter m v).standIn = s.standIn ∧ (s.setMeter m v).dumap = s.dumap ∧ (s.setMeter m v).watches = s.watches ∧
    (s.setMeter m v).hbSeq = s.hbSeq ∧ (s.setMeter m v).hbHeard = s.hbHeard ∧ (s.setMeter m v).dead = s.dead ∧
    (s.setMeter m v).alive = s.alive ∧ (s.setMeter m v).fences = s.fences ∧ (s.setMeter m v).fepoch = s.fepoch ∧
    (s.setMeter m v).members = s.members ∧ (s.setMeter m v).mepoch = s.mepoch ∧ (s.setMeter m v).staged = s.staged ∧
    (s.setMeter m v).grandfathered = s.grandfathered ∧ (s.setMeter m v).strags = s.strags ∧
    (s.setMeter m v).sessions = s.sessions ∧ (s.setMeter m v).loader = s.loader ∧ (s.setMeter m v).oprCred = s.oprCred ∧
    (s.setMeter m v).refused = s.refused ∧ (s.setMeter m v).hostSt = s.hostSt ∧ (s.setMeter m v).hrbs = s.hrbs ∧
    (s.setMeter m v).scribe = s.scribe ∧ (s.setMeter m v).power = s.power ∧ (s.setMeter m v).snap = s.snap := by
  and_intros <;> rfl

@[simp] theorem State.setMeter_meters (s : State) (m : Nat) (v : MeterSt) :
    (s.setMeter m v).meters = Sparse.set {} s.meters m v := rfl

@[simp] theorem State.setUnit_frame (s : State) (u : Nat) (v : UnitSt) :
    (s.setUnit u v).pending = s.pending ∧ (s.setUnit u v).time = s.time ∧ (s.setUnit u v).timebase = s.timebase ∧
    (s.setUnit u v).obj = s.obj ∧ (s.setUnit u v).blob = s.blob ∧ (s.setUnit u v).ctr = s.ctr ∧ (s.setUnit u v).qos = s.qos ∧
    (s.setUnit u v).limits = s.limits ∧ (s.setUnit u v).serial = s.serial ∧ (s.setUnit u v).free = s.free ∧
    (s.setUnit u v).out = s.out ∧ (s.setUnit u v).ports = s.ports ∧ (s.setUnit u v).keys = s.keys ∧ (s.setUnit u v).kx = s.kx ∧
    (s.setUnit u v).rawOut = s.rawOut ∧ (s.setUnit u v).epPrev = s.epPrev ∧ (s.setUnit u v).epTime = s.epTime ∧
    (s.setUnit u v).slot0 = s.slot0 ∧ (s.setUnit u v).slot1 = s.slot1 ∧ (s.setUnit u v).ligs = s.ligs ∧
    (s.setUnit u v).inq = s.inq ∧ (s.setUnit u v).spine = s.spine ∧ (s.setUnit u v).spinePtr = s.spinePtr ∧
    (s.setUnit u v).outs = s.outs ∧ (s.setUnit u v).meters = s.meters ∧ (s.setUnit u v).holds = s.holds ∧
    (s.setUnit u v).draws = s.draws ∧ (s.setUnit u v).notices = s.notices ∧ (s.setUnit u v).asm = s.asm ∧
    (s.setUnit u v).badMsgs = s.badMsgs ∧ (s.setUnit u v).delivered = s.delivered ∧ (s.setUnit u v).tags = s.tags ∧
    (s.setUnit u v).late = s.late ∧ (s.setUnit u v).journal = s.journal ∧ (s.setUnit u v).ligRecs = s.ligRecs ∧
    (s.setUnit u v).opRecs = s.opRecs ∧ (s.setUnit u v).mem = s.mem ∧ (s.setUnit u v).poison = s.poison ∧
    (s.setUnit u v).domains = s.domains ∧ (s.setUnit u v).dir = s.dir ∧ (s.setUnit u v).txns = s.txns ∧
    (s.setUnit u v).cohWait = s.cohWait ∧ (s.setUnit u v).folios = s.folios ∧ (s.setUnit u v).reissues = s.reissues ∧
    (s.setUnit u v).regions = s.regions ∧ (s.setUnit u v).vloads = s.vloads ∧ (s.setUnit u v).waitPubs = s.waitPubs ∧
    (s.setUnit u v).ctxs = s.ctxs ∧ (s.setUnit u v).chunks = s.chunks ∧ (s.setUnit u v).tables = s.tables ∧
    (s.setUnit u v).quills = s.quills ∧ (s.setUnit u v).objects = s.objects ∧ (s.setUnit u v).moves = s.moves ∧
    (s.setUnit u v).moveQ = s.moveQ ∧ (s.setUnit u v).transitWait = s.transitWait ∧ (s.setUnit u v).scheds = s.scheds ∧
    (s.setUnit u v).pfPool = s.pfPool ∧ (s.setUnit u v).slots = s.slots ∧ (s.setUnit u v).basisJobs = s.basisJobs ∧
    (s.setUnit u v).encJobs = s.encJobs ∧ (s.setUnit u v).expanders = s.expanders ∧ (s.setUnit u v).expResps = s.expResps ∧
    (s.setUnit u v).batches = s.batches ∧ (s.setUnit u v).parts = s.parts ∧ (s.setUnit u v).macsec = s.macsec ∧
    (s.setUnit u v).standIn = s.standIn ∧ (s.setUnit u v).dumap = s.dumap ∧ (s.setUnit u v).watches = s.watches ∧
    (s.setUnit u v).hbSeq = s.hbSeq ∧ (s.setUnit u v).hbHeard = s.hbHeard ∧ (s.setUnit u v).dead = s.dead ∧
    (s.setUnit u v).alive = s.alive ∧ (s.setUnit u v).fences = s.fences ∧ (s.setUnit u v).fepoch = s.fepoch ∧
    (s.setUnit u v).members = s.members ∧ (s.setUnit u v).mepoch = s.mepoch ∧ (s.setUnit u v).staged = s.staged ∧
    (s.setUnit u v).grandfathered = s.grandfathered ∧ (s.setUnit u v).strags = s.strags ∧
    (s.setUnit u v).sessions = s.sessions ∧ (s.setUnit u v).loader = s.loader ∧ (s.setUnit u v).oprCred = s.oprCred ∧
    (s.setUnit u v).refused = s.refused ∧ (s.setUnit u v).hostSt = s.hostSt ∧ (s.setUnit u v).hrbs = s.hrbs ∧
    (s.setUnit u v).scribe = s.scribe ∧ (s.setUnit u v).power = s.power ∧ (s.setUnit u v).snap = s.snap := by
  and_intros <;> rfl

@[simp] theorem State.setUnit_units (s : State) (u : Nat) (v : UnitSt) :
    (s.setUnit u v).units = Sparse.set {} s.units u v := rfl

@[simp] theorem State.setHrb_frame (s : State) (h : Nat) (v : Hrb) :
    (s.setHrb h v).pending = s.pending ∧ (s.setHrb h v).time = s.time ∧ (s.setHrb h v).timebase = s.timebase ∧
    (s.setHrb h v).obj = s.obj ∧ (s.setHrb h v).blob = s.blob ∧ (s.setHrb h v).ctr = s.ctr ∧ (s.setHrb h v).qos = s.qos ∧
    (s.setHrb h v).limits = s.limits ∧ (s.setHrb h v).serial = s.serial ∧ (s.setHrb h v).free = s.free ∧
    (s.setHrb h v).out = s.out ∧ (s.setHrb h v).ports = s.ports ∧ (s.setHrb h v).keys = s.keys ∧ (s.setHrb h v).kx = s.kx ∧
    (s.setHrb h v).rawOut = s.rawOut ∧ (s.setHrb h v).epPrev = s.epPrev ∧ (s.setHrb h v).epTime = s.epTime ∧
    (s.setHrb h v).slot0 = s.slot0 ∧ (s.setHrb h v).slot1 = s.slot1 ∧ (s.setHrb h v).ligs = s.ligs ∧
    (s.setHrb h v).inq = s.inq ∧ (s.setHrb h v).spine = s.spine ∧ (s.setHrb h v).spinePtr = s.spinePtr ∧
    (s.setHrb h v).outs = s.outs ∧ (s.setHrb h v).meters = s.meters ∧ (s.setHrb h v).holds = s.holds ∧
    (s.setHrb h v).draws = s.draws ∧ (s.setHrb h v).notices = s.notices ∧ (s.setHrb h v).asm = s.asm ∧
    (s.setHrb h v).badMsgs = s.badMsgs ∧ (s.setHrb h v).delivered = s.delivered ∧ (s.setHrb h v).tags = s.tags ∧
    (s.setHrb h v).late = s.late ∧ (s.setHrb h v).journal = s.journal ∧ (s.setHrb h v).ligRecs = s.ligRecs ∧
    (s.setHrb h v).opRecs = s.opRecs ∧ (s.setHrb h v).mem = s.mem ∧ (s.setHrb h v).poison = s.poison ∧
    (s.setHrb h v).domains = s.domains ∧ (s.setHrb h v).dir = s.dir ∧ (s.setHrb h v).txns = s.txns ∧
    (s.setHrb h v).cohWait = s.cohWait ∧ (s.setHrb h v).folios = s.folios ∧ (s.setHrb h v).reissues = s.reissues ∧
    (s.setHrb h v).regions = s.regions ∧ (s.setHrb h v).vloads = s.vloads ∧ (s.setHrb h v).waitPubs = s.waitPubs ∧
    (s.setHrb h v).ctxs = s.ctxs ∧ (s.setHrb h v).chunks = s.chunks ∧ (s.setHrb h v).tables = s.tables ∧
    (s.setHrb h v).quills = s.quills ∧ (s.setHrb h v).objects = s.objects ∧ (s.setHrb h v).moves = s.moves ∧
    (s.setHrb h v).moveQ = s.moveQ ∧ (s.setHrb h v).transitWait = s.transitWait ∧ (s.setHrb h v).scheds = s.scheds ∧
    (s.setHrb h v).pfPool = s.pfPool ∧ (s.setHrb h v).slots = s.slots ∧ (s.setHrb h v).basisJobs = s.basisJobs ∧
    (s.setHrb h v).encJobs = s.encJobs ∧ (s.setHrb h v).expanders = s.expanders ∧ (s.setHrb h v).expResps = s.expResps ∧
    (s.setHrb h v).batches = s.batches ∧ (s.setHrb h v).parts = s.parts ∧ (s.setHrb h v).macsec = s.macsec ∧
    (s.setHrb h v).units = s.units ∧ (s.setHrb h v).standIn = s.standIn ∧ (s.setHrb h v).dumap = s.dumap ∧
    (s.setHrb h v).watches = s.watches ∧ (s.setHrb h v).hbSeq = s.hbSeq ∧ (s.setHrb h v).hbHeard = s.hbHeard ∧
    (s.setHrb h v).dead = s.dead ∧ (s.setHrb h v).alive = s.alive ∧ (s.setHrb h v).fences = s.fences ∧
    (s.setHrb h v).fepoch = s.fepoch ∧ (s.setHrb h v).members = s.members ∧ (s.setHrb h v).mepoch = s.mepoch ∧
    (s.setHrb h v).staged = s.staged ∧ (s.setHrb h v).grandfathered = s.grandfathered ∧ (s.setHrb h v).strags = s.strags ∧
    (s.setHrb h v).sessions = s.sessions ∧ (s.setHrb h v).loader = s.loader ∧ (s.setHrb h v).oprCred = s.oprCred ∧
    (s.setHrb h v).refused = s.refused ∧ (s.setHrb h v).hostSt = s.hostSt ∧ (s.setHrb h v).scribe = s.scribe ∧
    (s.setHrb h v).power = s.power ∧ (s.setHrb h v).snap = s.snap := by
  and_intros <;> rfl

@[simp] theorem State.setHrb_hrbs (s : State) (h : Nat) (v : Hrb) :
    (s.setHrb h v).hrbs = Sparse.set {} s.hrbs h v := rfl

@[simp] theorem State.setHostP_frame (s : State) (h : Nat) (v : HostSt) :
    (s.setHostP h v).pending = s.pending ∧ (s.setHostP h v).time = s.time ∧ (s.setHostP h v).timebase = s.timebase ∧
    (s.setHostP h v).obj = s.obj ∧ (s.setHostP h v).blob = s.blob ∧ (s.setHostP h v).ctr = s.ctr ∧
    (s.setHostP h v).qos = s.qos ∧ (s.setHostP h v).limits = s.limits ∧ (s.setHostP h v).serial = s.serial ∧
    (s.setHostP h v).free = s.free ∧ (s.setHostP h v).out = s.out ∧ (s.setHostP h v).ports = s.ports ∧
    (s.setHostP h v).keys = s.keys ∧ (s.setHostP h v).kx = s.kx ∧ (s.setHostP h v).rawOut = s.rawOut ∧
    (s.setHostP h v).epPrev = s.epPrev ∧ (s.setHostP h v).epTime = s.epTime ∧ (s.setHostP h v).slot0 = s.slot0 ∧
    (s.setHostP h v).slot1 = s.slot1 ∧ (s.setHostP h v).ligs = s.ligs ∧ (s.setHostP h v).inq = s.inq ∧
    (s.setHostP h v).spine = s.spine ∧ (s.setHostP h v).spinePtr = s.spinePtr ∧ (s.setHostP h v).outs = s.outs ∧
    (s.setHostP h v).meters = s.meters ∧ (s.setHostP h v).holds = s.holds ∧ (s.setHostP h v).draws = s.draws ∧
    (s.setHostP h v).notices = s.notices ∧ (s.setHostP h v).asm = s.asm ∧ (s.setHostP h v).badMsgs = s.badMsgs ∧
    (s.setHostP h v).delivered = s.delivered ∧ (s.setHostP h v).tags = s.tags ∧ (s.setHostP h v).late = s.late ∧
    (s.setHostP h v).journal = s.journal ∧ (s.setHostP h v).ligRecs = s.ligRecs ∧ (s.setHostP h v).opRecs = s.opRecs ∧
    (s.setHostP h v).mem = s.mem ∧ (s.setHostP h v).poison = s.poison ∧ (s.setHostP h v).domains = s.domains ∧
    (s.setHostP h v).dir = s.dir ∧ (s.setHostP h v).txns = s.txns ∧ (s.setHostP h v).cohWait = s.cohWait ∧
    (s.setHostP h v).folios = s.folios ∧ (s.setHostP h v).reissues = s.reissues ∧ (s.setHostP h v).regions = s.regions ∧
    (s.setHostP h v).vloads = s.vloads ∧ (s.setHostP h v).waitPubs = s.waitPubs ∧ (s.setHostP h v).ctxs = s.ctxs ∧
    (s.setHostP h v).chunks = s.chunks ∧ (s.setHostP h v).tables = s.tables ∧ (s.setHostP h v).quills = s.quills ∧
    (s.setHostP h v).objects = s.objects ∧ (s.setHostP h v).moves = s.moves ∧ (s.setHostP h v).moveQ = s.moveQ ∧
    (s.setHostP h v).transitWait = s.transitWait ∧ (s.setHostP h v).scheds = s.scheds ∧ (s.setHostP h v).pfPool = s.pfPool ∧
    (s.setHostP h v).slots = s.slots ∧ (s.setHostP h v).basisJobs = s.basisJobs ∧ (s.setHostP h v).encJobs = s.encJobs ∧
    (s.setHostP h v).expanders = s.expanders ∧ (s.setHostP h v).expResps = s.expResps ∧ (s.setHostP h v).batches = s.batches ∧
    (s.setHostP h v).parts = s.parts ∧ (s.setHostP h v).macsec = s.macsec ∧ (s.setHostP h v).units = s.units ∧
    (s.setHostP h v).standIn = s.standIn ∧ (s.setHostP h v).dumap = s.dumap ∧ (s.setHostP h v).watches = s.watches ∧
    (s.setHostP h v).hbSeq = s.hbSeq ∧ (s.setHostP h v).hbHeard = s.hbHeard ∧ (s.setHostP h v).dead = s.dead ∧
    (s.setHostP h v).alive = s.alive ∧ (s.setHostP h v).fences = s.fences ∧ (s.setHostP h v).fepoch = s.fepoch ∧
    (s.setHostP h v).members = s.members ∧ (s.setHostP h v).mepoch = s.mepoch ∧ (s.setHostP h v).staged = s.staged ∧
    (s.setHostP h v).grandfathered = s.grandfathered ∧ (s.setHostP h v).strags = s.strags ∧
    (s.setHostP h v).sessions = s.sessions ∧ (s.setHostP h v).loader = s.loader ∧ (s.setHostP h v).oprCred = s.oprCred ∧
    (s.setHostP h v).refused = s.refused ∧ (s.setHostP h v).hrbs = s.hrbs ∧ (s.setHostP h v).scribe = s.scribe ∧
    (s.setHostP h v).power = s.power ∧ (s.setHostP h v).snap = s.snap := by
  and_intros <;> rfl

@[simp] theorem State.setHostP_hostSt (s : State) (h : Nat) (v : HostSt) :
    (s.setHostP h v).hostSt = Sparse.set {} s.hostSt h v := rfl

@[simp] theorem State.setMac_frame (s : State) (h : Nat) (v : Macsec) :
    (s.setMac h v).pending = s.pending ∧ (s.setMac h v).time = s.time ∧ (s.setMac h v).timebase = s.timebase ∧
    (s.setMac h v).obj = s.obj ∧ (s.setMac h v).blob = s.blob ∧ (s.setMac h v).ctr = s.ctr ∧ (s.setMac h v).qos = s.qos ∧
    (s.setMac h v).limits = s.limits ∧ (s.setMac h v).serial = s.serial ∧ (s.setMac h v).free = s.free ∧
    (s.setMac h v).out = s.out ∧ (s.setMac h v).ports = s.ports ∧ (s.setMac h v).keys = s.keys ∧ (s.setMac h v).kx = s.kx ∧
    (s.setMac h v).rawOut = s.rawOut ∧ (s.setMac h v).epPrev = s.epPrev ∧ (s.setMac h v).epTime = s.epTime ∧
    (s.setMac h v).slot0 = s.slot0 ∧ (s.setMac h v).slot1 = s.slot1 ∧ (s.setMac h v).ligs = s.ligs ∧
    (s.setMac h v).inq = s.inq ∧ (s.setMac h v).spine = s.spine ∧ (s.setMac h v).spinePtr = s.spinePtr ∧
    (s.setMac h v).outs = s.outs ∧ (s.setMac h v).meters = s.meters ∧ (s.setMac h v).holds = s.holds ∧
    (s.setMac h v).draws = s.draws ∧ (s.setMac h v).notices = s.notices ∧ (s.setMac h v).asm = s.asm ∧
    (s.setMac h v).badMsgs = s.badMsgs ∧ (s.setMac h v).delivered = s.delivered ∧ (s.setMac h v).tags = s.tags ∧
    (s.setMac h v).late = s.late ∧ (s.setMac h v).journal = s.journal ∧ (s.setMac h v).ligRecs = s.ligRecs ∧
    (s.setMac h v).opRecs = s.opRecs ∧ (s.setMac h v).mem = s.mem ∧ (s.setMac h v).poison = s.poison ∧
    (s.setMac h v).domains = s.domains ∧ (s.setMac h v).dir = s.dir ∧ (s.setMac h v).txns = s.txns ∧
    (s.setMac h v).cohWait = s.cohWait ∧ (s.setMac h v).folios = s.folios ∧ (s.setMac h v).reissues = s.reissues ∧
    (s.setMac h v).regions = s.regions ∧ (s.setMac h v).vloads = s.vloads ∧ (s.setMac h v).waitPubs = s.waitPubs ∧
    (s.setMac h v).ctxs = s.ctxs ∧ (s.setMac h v).chunks = s.chunks ∧ (s.setMac h v).tables = s.tables ∧
    (s.setMac h v).quills = s.quills ∧ (s.setMac h v).objects = s.objects ∧ (s.setMac h v).moves = s.moves ∧
    (s.setMac h v).moveQ = s.moveQ ∧ (s.setMac h v).transitWait = s.transitWait ∧ (s.setMac h v).scheds = s.scheds ∧
    (s.setMac h v).pfPool = s.pfPool ∧ (s.setMac h v).slots = s.slots ∧ (s.setMac h v).basisJobs = s.basisJobs ∧
    (s.setMac h v).encJobs = s.encJobs ∧ (s.setMac h v).expanders = s.expanders ∧ (s.setMac h v).expResps = s.expResps ∧
    (s.setMac h v).batches = s.batches ∧ (s.setMac h v).parts = s.parts ∧ (s.setMac h v).units = s.units ∧
    (s.setMac h v).standIn = s.standIn ∧ (s.setMac h v).dumap = s.dumap ∧ (s.setMac h v).watches = s.watches ∧
    (s.setMac h v).hbSeq = s.hbSeq ∧ (s.setMac h v).hbHeard = s.hbHeard ∧ (s.setMac h v).dead = s.dead ∧
    (s.setMac h v).alive = s.alive ∧ (s.setMac h v).fences = s.fences ∧ (s.setMac h v).fepoch = s.fepoch ∧
    (s.setMac h v).members = s.members ∧ (s.setMac h v).mepoch = s.mepoch ∧ (s.setMac h v).staged = s.staged ∧
    (s.setMac h v).grandfathered = s.grandfathered ∧ (s.setMac h v).strags = s.strags ∧ (s.setMac h v).sessions = s.sessions ∧
    (s.setMac h v).loader = s.loader ∧ (s.setMac h v).oprCred = s.oprCred ∧ (s.setMac h v).refused = s.refused ∧
    (s.setMac h v).hostSt = s.hostSt ∧ (s.setMac h v).hrbs = s.hrbs ∧ (s.setMac h v).scribe = s.scribe ∧
    (s.setMac h v).power = s.power ∧ (s.setMac h v).snap = s.snap := by
  and_intros <;> rfl

@[simp] theorem State.setMac_macsec (s : State) (h : Nat) (v : Macsec) :
    (s.setMac h v).macsec = Sparse.set {} s.macsec h v := rfl

@[simp] theorem State.setStrag_frame (s : State) (m : Nat) (v : Strag) :
    (s.setStrag m v).pending = s.pending ∧ (s.setStrag m v).time = s.time ∧ (s.setStrag m v).timebase = s.timebase ∧
    (s.setStrag m v).obj = s.obj ∧ (s.setStrag m v).blob = s.blob ∧ (s.setStrag m v).ctr = s.ctr ∧
    (s.setStrag m v).qos = s.qos ∧ (s.setStrag m v).limits = s.limits ∧ (s.setStrag m v).serial = s.serial ∧
    (s.setStrag m v).free = s.free ∧ (s.setStrag m v).out = s.out ∧ (s.setStrag m v).ports = s.ports ∧
    (s.setStrag m v).keys = s.keys ∧ (s.setStrag m v).kx = s.kx ∧ (s.setStrag m v).rawOut = s.rawOut ∧
    (s.setStrag m v).epPrev = s.epPrev ∧ (s.setStrag m v).epTime = s.epTime ∧ (s.setStrag m v).slot0 = s.slot0 ∧
    (s.setStrag m v).slot1 = s.slot1 ∧ (s.setStrag m v).ligs = s.ligs ∧ (s.setStrag m v).inq = s.inq ∧
    (s.setStrag m v).spine = s.spine ∧ (s.setStrag m v).spinePtr = s.spinePtr ∧ (s.setStrag m v).outs = s.outs ∧
    (s.setStrag m v).meters = s.meters ∧ (s.setStrag m v).holds = s.holds ∧ (s.setStrag m v).draws = s.draws ∧
    (s.setStrag m v).notices = s.notices ∧ (s.setStrag m v).asm = s.asm ∧ (s.setStrag m v).badMsgs = s.badMsgs ∧
    (s.setStrag m v).delivered = s.delivered ∧ (s.setStrag m v).tags = s.tags ∧ (s.setStrag m v).late = s.late ∧
    (s.setStrag m v).journal = s.journal ∧ (s.setStrag m v).ligRecs = s.ligRecs ∧ (s.setStrag m v).opRecs = s.opRecs ∧
    (s.setStrag m v).mem = s.mem ∧ (s.setStrag m v).poison = s.poison ∧ (s.setStrag m v).domains = s.domains ∧
    (s.setStrag m v).dir = s.dir ∧ (s.setStrag m v).txns = s.txns ∧ (s.setStrag m v).cohWait = s.cohWait ∧
    (s.setStrag m v).folios = s.folios ∧ (s.setStrag m v).reissues = s.reissues ∧ (s.setStrag m v).regions = s.regions ∧
    (s.setStrag m v).vloads = s.vloads ∧ (s.setStrag m v).waitPubs = s.waitPubs ∧ (s.setStrag m v).ctxs = s.ctxs ∧
    (s.setStrag m v).chunks = s.chunks ∧ (s.setStrag m v).tables = s.tables ∧ (s.setStrag m v).quills = s.quills ∧
    (s.setStrag m v).objects = s.objects ∧ (s.setStrag m v).moves = s.moves ∧ (s.setStrag m v).moveQ = s.moveQ ∧
    (s.setStrag m v).transitWait = s.transitWait ∧ (s.setStrag m v).scheds = s.scheds ∧ (s.setStrag m v).pfPool = s.pfPool ∧
    (s.setStrag m v).slots = s.slots ∧ (s.setStrag m v).basisJobs = s.basisJobs ∧ (s.setStrag m v).encJobs = s.encJobs ∧
    (s.setStrag m v).expanders = s.expanders ∧ (s.setStrag m v).expResps = s.expResps ∧ (s.setStrag m v).batches = s.batches ∧
    (s.setStrag m v).parts = s.parts ∧ (s.setStrag m v).macsec = s.macsec ∧ (s.setStrag m v).units = s.units ∧
    (s.setStrag m v).standIn = s.standIn ∧ (s.setStrag m v).dumap = s.dumap ∧ (s.setStrag m v).watches = s.watches ∧
    (s.setStrag m v).hbSeq = s.hbSeq ∧ (s.setStrag m v).hbHeard = s.hbHeard ∧ (s.setStrag m v).dead = s.dead ∧
    (s.setStrag m v).alive = s.alive ∧ (s.setStrag m v).fences = s.fences ∧ (s.setStrag m v).fepoch = s.fepoch ∧
    (s.setStrag m v).members = s.members ∧ (s.setStrag m v).mepoch = s.mepoch ∧ (s.setStrag m v).staged = s.staged ∧
    (s.setStrag m v).grandfathered = s.grandfathered ∧ (s.setStrag m v).sessions = s.sessions ∧
    (s.setStrag m v).loader = s.loader ∧ (s.setStrag m v).oprCred = s.oprCred ∧ (s.setStrag m v).refused = s.refused ∧
    (s.setStrag m v).hostSt = s.hostSt ∧ (s.setStrag m v).hrbs = s.hrbs ∧ (s.setStrag m v).scribe = s.scribe ∧
    (s.setStrag m v).power = s.power ∧ (s.setStrag m v).snap = s.snap := by
  and_intros <;> rfl

@[simp] theorem State.setStrag_strags (s : State) (m : Nat) (v : Strag) :
    (s.setStrag m v).strags = Sparse.set {} s.strags m v := rfl

@[simp] theorem State.setInputQ_frame (s : State) (i : Nat) (v : List Held) :
    (s.setInputQ i v).pending = s.pending ∧ (s.setInputQ i v).time = s.time ∧ (s.setInputQ i v).timebase = s.timebase ∧
    (s.setInputQ i v).obj = s.obj ∧ (s.setInputQ i v).blob = s.blob ∧ (s.setInputQ i v).ctr = s.ctr ∧
    (s.setInputQ i v).qos = s.qos ∧ (s.setInputQ i v).limits = s.limits ∧ (s.setInputQ i v).serial = s.serial ∧
    (s.setInputQ i v).free = s.free ∧ (s.setInputQ i v).out = s.out ∧ (s.setInputQ i v).ports = s.ports ∧
    (s.setInputQ i v).keys = s.keys ∧ (s.setInputQ i v).kx = s.kx ∧ (s.setInputQ i v).rawOut = s.rawOut ∧
    (s.setInputQ i v).epPrev = s.epPrev ∧ (s.setInputQ i v).epTime = s.epTime ∧ (s.setInputQ i v).slot0 = s.slot0 ∧
    (s.setInputQ i v).slot1 = s.slot1 ∧ (s.setInputQ i v).ligs = s.ligs ∧ (s.setInputQ i v).spine = s.spine ∧
    (s.setInputQ i v).spinePtr = s.spinePtr ∧ (s.setInputQ i v).outs = s.outs ∧ (s.setInputQ i v).meters = s.meters ∧
    (s.setInputQ i v).holds = s.holds ∧ (s.setInputQ i v).draws = s.draws ∧ (s.setInputQ i v).notices = s.notices ∧
    (s.setInputQ i v).asm = s.asm ∧ (s.setInputQ i v).badMsgs = s.badMsgs ∧ (s.setInputQ i v).delivered = s.delivered ∧
    (s.setInputQ i v).tags = s.tags ∧ (s.setInputQ i v).late = s.late ∧ (s.setInputQ i v).journal = s.journal ∧
    (s.setInputQ i v).ligRecs = s.ligRecs ∧ (s.setInputQ i v).opRecs = s.opRecs ∧ (s.setInputQ i v).mem = s.mem ∧
    (s.setInputQ i v).poison = s.poison ∧ (s.setInputQ i v).domains = s.domains ∧ (s.setInputQ i v).dir = s.dir ∧
    (s.setInputQ i v).txns = s.txns ∧ (s.setInputQ i v).cohWait = s.cohWait ∧ (s.setInputQ i v).folios = s.folios ∧
    (s.setInputQ i v).reissues = s.reissues ∧ (s.setInputQ i v).regions = s.regions ∧ (s.setInputQ i v).vloads = s.vloads ∧
    (s.setInputQ i v).waitPubs = s.waitPubs ∧ (s.setInputQ i v).ctxs = s.ctxs ∧ (s.setInputQ i v).chunks = s.chunks ∧
    (s.setInputQ i v).tables = s.tables ∧ (s.setInputQ i v).quills = s.quills ∧ (s.setInputQ i v).objects = s.objects ∧
    (s.setInputQ i v).moves = s.moves ∧ (s.setInputQ i v).moveQ = s.moveQ ∧ (s.setInputQ i v).transitWait = s.transitWait ∧
    (s.setInputQ i v).scheds = s.scheds ∧ (s.setInputQ i v).pfPool = s.pfPool ∧ (s.setInputQ i v).slots = s.slots ∧
    (s.setInputQ i v).basisJobs = s.basisJobs ∧ (s.setInputQ i v).encJobs = s.encJobs ∧
    (s.setInputQ i v).expanders = s.expanders ∧ (s.setInputQ i v).expResps = s.expResps ∧
    (s.setInputQ i v).batches = s.batches ∧ (s.setInputQ i v).parts = s.parts ∧ (s.setInputQ i v).macsec = s.macsec ∧
    (s.setInputQ i v).units = s.units ∧ (s.setInputQ i v).standIn = s.standIn ∧ (s.setInputQ i v).dumap = s.dumap ∧
    (s.setInputQ i v).watches = s.watches ∧ (s.setInputQ i v).hbSeq = s.hbSeq ∧ (s.setInputQ i v).hbHeard = s.hbHeard ∧
    (s.setInputQ i v).dead = s.dead ∧ (s.setInputQ i v).alive = s.alive ∧ (s.setInputQ i v).fences = s.fences ∧
    (s.setInputQ i v).fepoch = s.fepoch ∧ (s.setInputQ i v).members = s.members ∧ (s.setInputQ i v).mepoch = s.mepoch ∧
    (s.setInputQ i v).staged = s.staged ∧ (s.setInputQ i v).grandfathered = s.grandfathered ∧
    (s.setInputQ i v).strags = s.strags ∧ (s.setInputQ i v).sessions = s.sessions ∧ (s.setInputQ i v).loader = s.loader ∧
    (s.setInputQ i v).oprCred = s.oprCred ∧ (s.setInputQ i v).refused = s.refused ∧ (s.setInputQ i v).hostSt = s.hostSt ∧
    (s.setInputQ i v).hrbs = s.hrbs ∧ (s.setInputQ i v).scribe = s.scribe ∧ (s.setInputQ i v).power = s.power ∧
    (s.setInputQ i v).snap = s.snap := by
  and_intros <;> rfl

@[simp] theorem State.setInputQ_inq (s : State) (i : Nat) (v : List Held) :
    (s.setInputQ i v).inq = Sparse.set [] s.inq i v := rfl

@[simp] theorem State.setKey_frame (s : State) (port part slot : Nat) (v : KeySt) :
    (s.setKey port part slot v).pending = s.pending ∧ (s.setKey port part slot v).time = s.time ∧
    (s.setKey port part slot v).timebase = s.timebase ∧ (s.setKey port part slot v).obj = s.obj ∧
    (s.setKey port part slot v).blob = s.blob ∧ (s.setKey port part slot v).ctr = s.ctr ∧
    (s.setKey port part slot v).qos = s.qos ∧ (s.setKey port part slot v).limits = s.limits ∧
    (s.setKey port part slot v).serial = s.serial ∧ (s.setKey port part slot v).free = s.free ∧
    (s.setKey port part slot v).out = s.out ∧ (s.setKey port part slot v).ports = s.ports ∧
    (s.setKey port part slot v).kx = s.kx ∧ (s.setKey port part slot v).rawOut = s.rawOut ∧
    (s.setKey port part slot v).epPrev = s.epPrev ∧ (s.setKey port part slot v).epTime = s.epTime ∧
    (s.setKey port part slot v).slot0 = s.slot0 ∧ (s.setKey port part slot v).slot1 = s.slot1 ∧
    (s.setKey port part slot v).ligs = s.ligs ∧ (s.setKey port part slot v).inq = s.inq ∧
    (s.setKey port part slot v).spine = s.spine ∧ (s.setKey port part slot v).spinePtr = s.spinePtr ∧
    (s.setKey port part slot v).outs = s.outs ∧ (s.setKey port part slot v).meters = s.meters ∧
    (s.setKey port part slot v).holds = s.holds ∧ (s.setKey port part slot v).draws = s.draws ∧
    (s.setKey port part slot v).notices = s.notices ∧ (s.setKey port part slot v).asm = s.asm ∧
    (s.setKey port part slot v).badMsgs = s.badMsgs ∧ (s.setKey port part slot v).delivered = s.delivered ∧
    (s.setKey port part slot v).tags = s.tags ∧ (s.setKey port part slot v).late = s.late ∧
    (s.setKey port part slot v).journal = s.journal ∧ (s.setKey port part slot v).ligRecs = s.ligRecs ∧
    (s.setKey port part slot v).opRecs = s.opRecs ∧ (s.setKey port part slot v).mem = s.mem ∧
    (s.setKey port part slot v).poison = s.poison ∧ (s.setKey port part slot v).domains = s.domains ∧
    (s.setKey port part slot v).dir = s.dir ∧ (s.setKey port part slot v).txns = s.txns ∧
    (s.setKey port part slot v).cohWait = s.cohWait ∧ (s.setKey port part slot v).folios = s.folios ∧
    (s.setKey port part slot v).reissues = s.reissues ∧ (s.setKey port part slot v).regions = s.regions ∧
    (s.setKey port part slot v).vloads = s.vloads ∧ (s.setKey port part slot v).waitPubs = s.waitPubs ∧
    (s.setKey port part slot v).ctxs = s.ctxs ∧ (s.setKey port part slot v).chunks = s.chunks ∧
    (s.setKey port part slot v).tables = s.tables ∧ (s.setKey port part slot v).quills = s.quills ∧
    (s.setKey port part slot v).objects = s.objects ∧ (s.setKey port part slot v).moves = s.moves ∧
    (s.setKey port part slot v).moveQ = s.moveQ ∧ (s.setKey port part slot v).transitWait = s.transitWait ∧
    (s.setKey port part slot v).scheds = s.scheds ∧ (s.setKey port part slot v).pfPool = s.pfPool ∧
    (s.setKey port part slot v).slots = s.slots ∧ (s.setKey port part slot v).basisJobs = s.basisJobs ∧
    (s.setKey port part slot v).encJobs = s.encJobs ∧ (s.setKey port part slot v).expanders = s.expanders ∧
    (s.setKey port part slot v).expResps = s.expResps ∧ (s.setKey port part slot v).batches = s.batches ∧
    (s.setKey port part slot v).parts = s.parts ∧ (s.setKey port part slot v).macsec = s.macsec ∧
    (s.setKey port part slot v).units = s.units ∧ (s.setKey port part slot v).standIn = s.standIn ∧
    (s.setKey port part slot v).dumap = s.dumap ∧ (s.setKey port part slot v).watches = s.watches ∧
    (s.setKey port part slot v).hbSeq = s.hbSeq ∧ (s.setKey port part slot v).hbHeard = s.hbHeard ∧
    (s.setKey port part slot v).dead = s.dead ∧ (s.setKey port part slot v).alive = s.alive ∧
    (s.setKey port part slot v).fences = s.fences ∧ (s.setKey port part slot v).fepoch = s.fepoch ∧
    (s.setKey port part slot v).members = s.members ∧ (s.setKey port part slot v).mepoch = s.mepoch ∧
    (s.setKey port part slot v).staged = s.staged ∧ (s.setKey port part slot v).grandfathered = s.grandfathered ∧
    (s.setKey port part slot v).strags = s.strags ∧ (s.setKey port part slot v).sessions = s.sessions ∧
    (s.setKey port part slot v).loader = s.loader ∧ (s.setKey port part slot v).oprCred = s.oprCred ∧
    (s.setKey port part slot v).refused = s.refused ∧ (s.setKey port part slot v).hostSt = s.hostSt ∧
    (s.setKey port part slot v).hrbs = s.hrbs ∧ (s.setKey port part slot v).scribe = s.scribe ∧
    (s.setKey port part slot v).power = s.power ∧ (s.setKey port part slot v).snap = s.snap := by
  and_intros <;> rfl

@[simp] theorem State.setKey_keys (s : State) (port part slot : Nat) (v : KeySt) :
    (s.setKey port part slot v).keys = Sparse.set {} s.keys (keyIx port part slot) v := rfl

@[simp] theorem State.setSession_frame (s : State) (v : Session) :
    (s.setSession v).pending = s.pending ∧ (s.setSession v).time = s.time ∧ (s.setSession v).timebase = s.timebase ∧
    (s.setSession v).obj = s.obj ∧ (s.setSession v).blob = s.blob ∧ (s.setSession v).ctr = s.ctr ∧
    (s.setSession v).qos = s.qos ∧ (s.setSession v).limits = s.limits ∧ (s.setSession v).serial = s.serial ∧
    (s.setSession v).free = s.free ∧ (s.setSession v).out = s.out ∧ (s.setSession v).ports = s.ports ∧
    (s.setSession v).keys = s.keys ∧ (s.setSession v).kx = s.kx ∧ (s.setSession v).rawOut = s.rawOut ∧
    (s.setSession v).epPrev = s.epPrev ∧ (s.setSession v).epTime = s.epTime ∧ (s.setSession v).slot0 = s.slot0 ∧
    (s.setSession v).slot1 = s.slot1 ∧ (s.setSession v).ligs = s.ligs ∧ (s.setSession v).inq = s.inq ∧
    (s.setSession v).spine = s.spine ∧ (s.setSession v).spinePtr = s.spinePtr ∧ (s.setSession v).outs = s.outs ∧
    (s.setSession v).meters = s.meters ∧ (s.setSession v).holds = s.holds ∧ (s.setSession v).draws = s.draws ∧
    (s.setSession v).notices = s.notices ∧ (s.setSession v).asm = s.asm ∧ (s.setSession v).badMsgs = s.badMsgs ∧
    (s.setSession v).delivered = s.delivered ∧ (s.setSession v).tags = s.tags ∧ (s.setSession v).late = s.late ∧
    (s.setSession v).journal = s.journal ∧ (s.setSession v).ligRecs = s.ligRecs ∧ (s.setSession v).opRecs = s.opRecs ∧
    (s.setSession v).mem = s.mem ∧ (s.setSession v).poison = s.poison ∧ (s.setSession v).domains = s.domains ∧
    (s.setSession v).dir = s.dir ∧ (s.setSession v).txns = s.txns ∧ (s.setSession v).cohWait = s.cohWait ∧
    (s.setSession v).folios = s.folios ∧ (s.setSession v).reissues = s.reissues ∧ (s.setSession v).regions = s.regions ∧
    (s.setSession v).vloads = s.vloads ∧ (s.setSession v).waitPubs = s.waitPubs ∧ (s.setSession v).ctxs = s.ctxs ∧
    (s.setSession v).chunks = s.chunks ∧ (s.setSession v).tables = s.tables ∧ (s.setSession v).quills = s.quills ∧
    (s.setSession v).objects = s.objects ∧ (s.setSession v).moves = s.moves ∧ (s.setSession v).moveQ = s.moveQ ∧
    (s.setSession v).transitWait = s.transitWait ∧ (s.setSession v).scheds = s.scheds ∧ (s.setSession v).pfPool = s.pfPool ∧
    (s.setSession v).slots = s.slots ∧ (s.setSession v).basisJobs = s.basisJobs ∧ (s.setSession v).encJobs = s.encJobs ∧
    (s.setSession v).expanders = s.expanders ∧ (s.setSession v).expResps = s.expResps ∧ (s.setSession v).batches = s.batches ∧
    (s.setSession v).parts = s.parts ∧ (s.setSession v).macsec = s.macsec ∧ (s.setSession v).units = s.units ∧
    (s.setSession v).standIn = s.standIn ∧ (s.setSession v).dumap = s.dumap ∧ (s.setSession v).watches = s.watches ∧
    (s.setSession v).hbSeq = s.hbSeq ∧ (s.setSession v).hbHeard = s.hbHeard ∧ (s.setSession v).dead = s.dead ∧
    (s.setSession v).alive = s.alive ∧ (s.setSession v).fences = s.fences ∧ (s.setSession v).fepoch = s.fepoch ∧
    (s.setSession v).members = s.members ∧ (s.setSession v).mepoch = s.mepoch ∧ (s.setSession v).staged = s.staged ∧
    (s.setSession v).grandfathered = s.grandfathered ∧ (s.setSession v).strags = s.strags ∧
    (s.setSession v).loader = s.loader ∧ (s.setSession v).oprCred = s.oprCred ∧ (s.setSession v).refused = s.refused ∧
    (s.setSession v).hostSt = s.hostSt ∧ (s.setSession v).hrbs = s.hrbs ∧ (s.setSession v).scribe = s.scribe ∧
    (s.setSession v).power = s.power ∧ (s.setSession v).snap = s.snap := by
  and_intros <;> rfl

@[simp] theorem State.setSession_sessions (s : State) (v : Session) :
    (s.setSession v).sessions = s.sessions.map fun x => if x.sid = v.sid then v else x := rfl

@[simp] theorem State.emit_frame (s : State) (o : Out) :
    (s.emit o).pending = s.pending ∧ (s.emit o).time = s.time ∧ (s.emit o).timebase = s.timebase ∧ (s.emit o).obj = s.obj ∧
    (s.emit o).blob = s.blob ∧ (s.emit o).ctr = s.ctr ∧ (s.emit o).qos = s.qos ∧ (s.emit o).limits = s.limits ∧
    (s.emit o).serial = s.serial ∧ (s.emit o).free = s.free ∧ (s.emit o).ports = s.ports ∧ (s.emit o).keys = s.keys ∧
    (s.emit o).kx = s.kx ∧ (s.emit o).rawOut = s.rawOut ∧ (s.emit o).epPrev = s.epPrev ∧ (s.emit o).epTime = s.epTime ∧
    (s.emit o).slot0 = s.slot0 ∧ (s.emit o).slot1 = s.slot1 ∧ (s.emit o).ligs = s.ligs ∧ (s.emit o).inq = s.inq ∧
    (s.emit o).spine = s.spine ∧ (s.emit o).spinePtr = s.spinePtr ∧ (s.emit o).outs = s.outs ∧ (s.emit o).meters = s.meters ∧
    (s.emit o).holds = s.holds ∧ (s.emit o).draws = s.draws ∧ (s.emit o).notices = s.notices ∧ (s.emit o).asm = s.asm ∧
    (s.emit o).badMsgs = s.badMsgs ∧ (s.emit o).delivered = s.delivered ∧ (s.emit o).tags = s.tags ∧ (s.emit o).late = s.late ∧
    (s.emit o).journal = s.journal ∧ (s.emit o).ligRecs = s.ligRecs ∧ (s.emit o).opRecs = s.opRecs ∧ (s.emit o).mem = s.mem ∧
    (s.emit o).poison = s.poison ∧ (s.emit o).domains = s.domains ∧ (s.emit o).dir = s.dir ∧ (s.emit o).txns = s.txns ∧
    (s.emit o).cohWait = s.cohWait ∧ (s.emit o).folios = s.folios ∧ (s.emit o).reissues = s.reissues ∧
    (s.emit o).regions = s.regions ∧ (s.emit o).vloads = s.vloads ∧ (s.emit o).waitPubs = s.waitPubs ∧
    (s.emit o).ctxs = s.ctxs ∧ (s.emit o).chunks = s.chunks ∧ (s.emit o).tables = s.tables ∧ (s.emit o).quills = s.quills ∧
    (s.emit o).objects = s.objects ∧ (s.emit o).moves = s.moves ∧ (s.emit o).moveQ = s.moveQ ∧
    (s.emit o).transitWait = s.transitWait ∧ (s.emit o).scheds = s.scheds ∧ (s.emit o).pfPool = s.pfPool ∧
    (s.emit o).slots = s.slots ∧ (s.emit o).basisJobs = s.basisJobs ∧ (s.emit o).encJobs = s.encJobs ∧
    (s.emit o).expanders = s.expanders ∧ (s.emit o).expResps = s.expResps ∧ (s.emit o).batches = s.batches ∧
    (s.emit o).parts = s.parts ∧ (s.emit o).macsec = s.macsec ∧ (s.emit o).units = s.units ∧ (s.emit o).standIn = s.standIn ∧
    (s.emit o).dumap = s.dumap ∧ (s.emit o).watches = s.watches ∧ (s.emit o).hbSeq = s.hbSeq ∧ (s.emit o).hbHeard = s.hbHeard ∧
    (s.emit o).dead = s.dead ∧ (s.emit o).alive = s.alive ∧ (s.emit o).fences = s.fences ∧ (s.emit o).fepoch = s.fepoch ∧
    (s.emit o).members = s.members ∧ (s.emit o).mepoch = s.mepoch ∧ (s.emit o).staged = s.staged ∧
    (s.emit o).grandfathered = s.grandfathered ∧ (s.emit o).strags = s.strags ∧ (s.emit o).sessions = s.sessions ∧
    (s.emit o).loader = s.loader ∧ (s.emit o).oprCred = s.oprCred ∧ (s.emit o).refused = s.refused ∧
    (s.emit o).hostSt = s.hostSt ∧ (s.emit o).hrbs = s.hrbs ∧ (s.emit o).scribe = s.scribe ∧ (s.emit o).power = s.power ∧
    (s.emit o).snap = s.snap := by
  and_intros <;> rfl

@[simp] theorem State.emit_out (s : State) (o : Out) : (s.emit o).out = s.out ++ [o] := rfl

@[simp] theorem State.bump_frame (s : State) (k n : Nat) :
    (s.bump k n).pending = s.pending ∧ (s.bump k n).time = s.time ∧ (s.bump k n).timebase = s.timebase ∧
    (s.bump k n).obj = s.obj ∧ (s.bump k n).blob = s.blob ∧ (s.bump k n).qos = s.qos ∧ (s.bump k n).limits = s.limits ∧
    (s.bump k n).serial = s.serial ∧ (s.bump k n).free = s.free ∧ (s.bump k n).out = s.out ∧ (s.bump k n).ports = s.ports ∧
    (s.bump k n).keys = s.keys ∧ (s.bump k n).kx = s.kx ∧ (s.bump k n).rawOut = s.rawOut ∧ (s.bump k n).epPrev = s.epPrev ∧
    (s.bump k n).epTime = s.epTime ∧ (s.bump k n).slot0 = s.slot0 ∧ (s.bump k n).slot1 = s.slot1 ∧ (s.bump k n).ligs = s.ligs ∧
    (s.bump k n).inq = s.inq ∧ (s.bump k n).spine = s.spine ∧ (s.bump k n).spinePtr = s.spinePtr ∧ (s.bump k n).outs = s.outs ∧
    (s.bump k n).meters = s.meters ∧ (s.bump k n).holds = s.holds ∧ (s.bump k n).draws = s.draws ∧
    (s.bump k n).notices = s.notices ∧ (s.bump k n).asm = s.asm ∧ (s.bump k n).badMsgs = s.badMsgs ∧
    (s.bump k n).delivered = s.delivered ∧ (s.bump k n).tags = s.tags ∧ (s.bump k n).late = s.late ∧
    (s.bump k n).journal = s.journal ∧ (s.bump k n).ligRecs = s.ligRecs ∧ (s.bump k n).opRecs = s.opRecs ∧
    (s.bump k n).mem = s.mem ∧ (s.bump k n).poison = s.poison ∧ (s.bump k n).domains = s.domains ∧ (s.bump k n).dir = s.dir ∧
    (s.bump k n).txns = s.txns ∧ (s.bump k n).cohWait = s.cohWait ∧ (s.bump k n).folios = s.folios ∧
    (s.bump k n).reissues = s.reissues ∧ (s.bump k n).regions = s.regions ∧ (s.bump k n).vloads = s.vloads ∧
    (s.bump k n).waitPubs = s.waitPubs ∧ (s.bump k n).ctxs = s.ctxs ∧ (s.bump k n).chunks = s.chunks ∧
    (s.bump k n).tables = s.tables ∧ (s.bump k n).quills = s.quills ∧ (s.bump k n).objects = s.objects ∧
    (s.bump k n).moves = s.moves ∧ (s.bump k n).moveQ = s.moveQ ∧ (s.bump k n).transitWait = s.transitWait ∧
    (s.bump k n).scheds = s.scheds ∧ (s.bump k n).pfPool = s.pfPool ∧ (s.bump k n).slots = s.slots ∧
    (s.bump k n).basisJobs = s.basisJobs ∧ (s.bump k n).encJobs = s.encJobs ∧ (s.bump k n).expanders = s.expanders ∧
    (s.bump k n).expResps = s.expResps ∧ (s.bump k n).batches = s.batches ∧ (s.bump k n).parts = s.parts ∧
    (s.bump k n).macsec = s.macsec ∧ (s.bump k n).units = s.units ∧ (s.bump k n).standIn = s.standIn ∧
    (s.bump k n).dumap = s.dumap ∧ (s.bump k n).watches = s.watches ∧ (s.bump k n).hbSeq = s.hbSeq ∧
    (s.bump k n).hbHeard = s.hbHeard ∧ (s.bump k n).dead = s.dead ∧ (s.bump k n).alive = s.alive ∧
    (s.bump k n).fences = s.fences ∧ (s.bump k n).fepoch = s.fepoch ∧ (s.bump k n).members = s.members ∧
    (s.bump k n).mepoch = s.mepoch ∧ (s.bump k n).staged = s.staged ∧ (s.bump k n).grandfathered = s.grandfathered ∧
    (s.bump k n).strags = s.strags ∧ (s.bump k n).sessions = s.sessions ∧ (s.bump k n).loader = s.loader ∧
    (s.bump k n).oprCred = s.oprCred ∧ (s.bump k n).refused = s.refused ∧ (s.bump k n).hostSt = s.hostSt ∧
    (s.bump k n).hrbs = s.hrbs ∧ (s.bump k n).scribe = s.scribe ∧ (s.bump k n).power = s.power ∧ (s.bump k n).snap = s.snap := by
  and_intros <;> rfl

@[simp] theorem State.modPort_frame (s : State) (p : Nat) (f : PortSt → PortSt) :
    (s.modPort p f).pending = s.pending ∧ (s.modPort p f).time = s.time ∧ (s.modPort p f).timebase = s.timebase ∧
    (s.modPort p f).obj = s.obj ∧ (s.modPort p f).blob = s.blob ∧ (s.modPort p f).ctr = s.ctr ∧ (s.modPort p f).qos = s.qos ∧
    (s.modPort p f).limits = s.limits ∧ (s.modPort p f).serial = s.serial ∧ (s.modPort p f).free = s.free ∧
    (s.modPort p f).out = s.out ∧ (s.modPort p f).keys = s.keys ∧ (s.modPort p f).kx = s.kx ∧
    (s.modPort p f).rawOut = s.rawOut ∧ (s.modPort p f).epPrev = s.epPrev ∧ (s.modPort p f).epTime = s.epTime ∧
    (s.modPort p f).slot0 = s.slot0 ∧ (s.modPort p f).slot1 = s.slot1 ∧ (s.modPort p f).ligs = s.ligs ∧
    (s.modPort p f).inq = s.inq ∧ (s.modPort p f).spine = s.spine ∧ (s.modPort p f).spinePtr = s.spinePtr ∧
    (s.modPort p f).outs = s.outs ∧ (s.modPort p f).meters = s.meters ∧ (s.modPort p f).holds = s.holds ∧
    (s.modPort p f).draws = s.draws ∧ (s.modPort p f).notices = s.notices ∧ (s.modPort p f).asm = s.asm ∧
    (s.modPort p f).badMsgs = s.badMsgs ∧ (s.modPort p f).delivered = s.delivered ∧ (s.modPort p f).tags = s.tags ∧
    (s.modPort p f).late = s.late ∧ (s.modPort p f).journal = s.journal ∧ (s.modPort p f).ligRecs = s.ligRecs ∧
    (s.modPort p f).opRecs = s.opRecs ∧ (s.modPort p f).mem = s.mem ∧ (s.modPort p f).poison = s.poison ∧
    (s.modPort p f).domains = s.domains ∧ (s.modPort p f).dir = s.dir ∧ (s.modPort p f).txns = s.txns ∧
    (s.modPort p f).cohWait = s.cohWait ∧ (s.modPort p f).folios = s.folios ∧ (s.modPort p f).reissues = s.reissues ∧
    (s.modPort p f).regions = s.regions ∧ (s.modPort p f).vloads = s.vloads ∧ (s.modPort p f).waitPubs = s.waitPubs ∧
    (s.modPort p f).ctxs = s.ctxs ∧ (s.modPort p f).chunks = s.chunks ∧ (s.modPort p f).tables = s.tables ∧
    (s.modPort p f).quills = s.quills ∧ (s.modPort p f).objects = s.objects ∧ (s.modPort p f).moves = s.moves ∧
    (s.modPort p f).moveQ = s.moveQ ∧ (s.modPort p f).transitWait = s.transitWait ∧ (s.modPort p f).scheds = s.scheds ∧
    (s.modPort p f).pfPool = s.pfPool ∧ (s.modPort p f).slots = s.slots ∧ (s.modPort p f).basisJobs = s.basisJobs ∧
    (s.modPort p f).encJobs = s.encJobs ∧ (s.modPort p f).expanders = s.expanders ∧ (s.modPort p f).expResps = s.expResps ∧
    (s.modPort p f).batches = s.batches ∧ (s.modPort p f).parts = s.parts ∧ (s.modPort p f).macsec = s.macsec ∧
    (s.modPort p f).units = s.units ∧ (s.modPort p f).standIn = s.standIn ∧ (s.modPort p f).dumap = s.dumap ∧
    (s.modPort p f).watches = s.watches ∧ (s.modPort p f).hbSeq = s.hbSeq ∧ (s.modPort p f).hbHeard = s.hbHeard ∧
    (s.modPort p f).dead = s.dead ∧ (s.modPort p f).alive = s.alive ∧ (s.modPort p f).fences = s.fences ∧
    (s.modPort p f).fepoch = s.fepoch ∧ (s.modPort p f).members = s.members ∧ (s.modPort p f).mepoch = s.mepoch ∧
    (s.modPort p f).staged = s.staged ∧ (s.modPort p f).grandfathered = s.grandfathered ∧ (s.modPort p f).strags = s.strags ∧
    (s.modPort p f).sessions = s.sessions ∧ (s.modPort p f).loader = s.loader ∧ (s.modPort p f).oprCred = s.oprCred ∧
    (s.modPort p f).refused = s.refused ∧ (s.modPort p f).hostSt = s.hostSt ∧ (s.modPort p f).hrbs = s.hrbs ∧
    (s.modPort p f).scribe = s.scribe ∧ (s.modPort p f).power = s.power ∧ (s.modPort p f).snap = s.snap := by
  and_intros <;> rfl

@[simp] theorem State.modPart_frame (s : State) (p : Nat) (f : Partition → Partition) :
    (s.modPart p f).pending = s.pending ∧ (s.modPart p f).time = s.time ∧ (s.modPart p f).timebase = s.timebase ∧
    (s.modPart p f).obj = s.obj ∧ (s.modPart p f).blob = s.blob ∧ (s.modPart p f).ctr = s.ctr ∧ (s.modPart p f).qos = s.qos ∧
    (s.modPart p f).limits = s.limits ∧ (s.modPart p f).serial = s.serial ∧ (s.modPart p f).free = s.free ∧
    (s.modPart p f).out = s.out ∧ (s.modPart p f).ports = s.ports ∧ (s.modPart p f).keys = s.keys ∧ (s.modPart p f).kx = s.kx ∧
    (s.modPart p f).rawOut = s.rawOut ∧ (s.modPart p f).epPrev = s.epPrev ∧ (s.modPart p f).epTime = s.epTime ∧
    (s.modPart p f).slot0 = s.slot0 ∧ (s.modPart p f).slot1 = s.slot1 ∧ (s.modPart p f).ligs = s.ligs ∧
    (s.modPart p f).inq = s.inq ∧ (s.modPart p f).spine = s.spine ∧ (s.modPart p f).spinePtr = s.spinePtr ∧
    (s.modPart p f).outs = s.outs ∧ (s.modPart p f).meters = s.meters ∧ (s.modPart p f).holds = s.holds ∧
    (s.modPart p f).draws = s.draws ∧ (s.modPart p f).notices = s.notices ∧ (s.modPart p f).asm = s.asm ∧
    (s.modPart p f).badMsgs = s.badMsgs ∧ (s.modPart p f).delivered = s.delivered ∧ (s.modPart p f).tags = s.tags ∧
    (s.modPart p f).late = s.late ∧ (s.modPart p f).journal = s.journal ∧ (s.modPart p f).ligRecs = s.ligRecs ∧
    (s.modPart p f).opRecs = s.opRecs ∧ (s.modPart p f).mem = s.mem ∧ (s.modPart p f).poison = s.poison ∧
    (s.modPart p f).domains = s.domains ∧ (s.modPart p f).dir = s.dir ∧ (s.modPart p f).txns = s.txns ∧
    (s.modPart p f).cohWait = s.cohWait ∧ (s.modPart p f).folios = s.folios ∧ (s.modPart p f).reissues = s.reissues ∧
    (s.modPart p f).regions = s.regions ∧ (s.modPart p f).vloads = s.vloads ∧ (s.modPart p f).waitPubs = s.waitPubs ∧
    (s.modPart p f).ctxs = s.ctxs ∧ (s.modPart p f).chunks = s.chunks ∧ (s.modPart p f).tables = s.tables ∧
    (s.modPart p f).quills = s.quills ∧ (s.modPart p f).objects = s.objects ∧ (s.modPart p f).moves = s.moves ∧
    (s.modPart p f).moveQ = s.moveQ ∧ (s.modPart p f).transitWait = s.transitWait ∧ (s.modPart p f).scheds = s.scheds ∧
    (s.modPart p f).pfPool = s.pfPool ∧ (s.modPart p f).slots = s.slots ∧ (s.modPart p f).basisJobs = s.basisJobs ∧
    (s.modPart p f).encJobs = s.encJobs ∧ (s.modPart p f).expanders = s.expanders ∧ (s.modPart p f).expResps = s.expResps ∧
    (s.modPart p f).batches = s.batches ∧ (s.modPart p f).macsec = s.macsec ∧ (s.modPart p f).units = s.units ∧
    (s.modPart p f).standIn = s.standIn ∧ (s.modPart p f).dumap = s.dumap ∧ (s.modPart p f).watches = s.watches ∧
    (s.modPart p f).hbSeq = s.hbSeq ∧ (s.modPart p f).hbHeard = s.hbHeard ∧ (s.modPart p f).dead = s.dead ∧
    (s.modPart p f).alive = s.alive ∧ (s.modPart p f).fences = s.fences ∧ (s.modPart p f).fepoch = s.fepoch ∧
    (s.modPart p f).members = s.members ∧ (s.modPart p f).mepoch = s.mepoch ∧ (s.modPart p f).staged = s.staged ∧
    (s.modPart p f).grandfathered = s.grandfathered ∧ (s.modPart p f).strags = s.strags ∧
    (s.modPart p f).sessions = s.sessions ∧ (s.modPart p f).loader = s.loader ∧ (s.modPart p f).oprCred = s.oprCred ∧
    (s.modPart p f).refused = s.refused ∧ (s.modPart p f).hostSt = s.hostSt ∧ (s.modPart p f).hrbs = s.hrbs ∧
    (s.modPart p f).scribe = s.scribe ∧ (s.modPart p f).power = s.power ∧ (s.modPart p f).snap = s.snap := by
  and_intros <;> rfl

@[simp] theorem State.setO_reads (s : State) (k v : Nat) :
    (∀ j, (s.setO k v).b j = s.b j) ∧ (∀ j, (s.setO k v).c j = s.c j) ∧ (∀ j, (s.setO k v).port j = s.port j) ∧
    (∀ j, (s.setO k v).outSt j = s.outSt j) ∧ (∀ j, (s.setO k v).part j = s.part j) ∧ (∀ j, (s.setO k v).folio j = s.folio j) ∧
    (∀ j, (s.setO k v).domain j = s.domain j) ∧ (∀ j, (s.setO k v).ctx j = s.ctx j) ∧ (∀ j, (s.setO k v).table j = s.table j) ∧
    (∀ j, (s.setO k v).quill j = s.quill j) ∧ (∀ j, (s.setO k v).object j = s.object j) ∧
    (∀ j, (s.setO k v).sched j = s.sched j) ∧ (∀ j, (s.setO k v).slot j = s.slot j) ∧ (∀ j, (s.setO k v).batch j = s.batch j) ∧
    (∀ j, (s.setO k v).region j = s.region j) ∧ (∀ j, (s.setO k v).meter j = s.meter j) ∧
    (∀ j, (s.setO k v).unit j = s.unit j) ∧ (∀ j, (s.setO k v).hrb j = s.hrb j) ∧ (∀ j, (s.setO k v).hostP j = s.hostP j) ∧
    (∀ j, (s.setO k v).mac j = s.mac j) ∧ (∀ j, (s.setO k v).strag j = s.strag j) ∧ (∀ j, (s.setO k v).inputQ j = s.inputQ j) ∧
    (∀ j, (s.setO k v).routeSlot j = s.routeSlot j) ∧ (∀ i j l, (s.setO k v).key i j l = s.key i j l) := by
  and_intros <;> intros <;> rfl

@[simp] theorem State.setB_reads (s : State) (k : Nat) (v : List Byte) :
    (∀ j, (s.setB k v).o j = s.o j) ∧ (∀ j, (s.setB k v).c j = s.c j) ∧ (∀ j, (s.setB k v).port j = s.port j) ∧
    (∀ j, (s.setB k v).outSt j = s.outSt j) ∧ (∀ j, (s.setB k v).part j = s.part j) ∧ (∀ j, (s.setB k v).folio j = s.folio j) ∧
    (∀ j, (s.setB k v).domain j = s.domain j) ∧ (∀ j, (s.setB k v).ctx j = s.ctx j) ∧ (∀ j, (s.setB k v).table j = s.table j) ∧
    (∀ j, (s.setB k v).quill j = s.quill j) ∧ (∀ j, (s.setB k v).object j = s.object j) ∧
    (∀ j, (s.setB k v).sched j = s.sched j) ∧ (∀ j, (s.setB k v).slot j = s.slot j) ∧ (∀ j, (s.setB k v).batch j = s.batch j) ∧
    (∀ j, (s.setB k v).region j = s.region j) ∧ (∀ j, (s.setB k v).meter j = s.meter j) ∧
    (∀ j, (s.setB k v).unit j = s.unit j) ∧ (∀ j, (s.setB k v).hrb j = s.hrb j) ∧ (∀ j, (s.setB k v).hostP j = s.hostP j) ∧
    (∀ j, (s.setB k v).mac j = s.mac j) ∧ (∀ j, (s.setB k v).strag j = s.strag j) ∧ (∀ j, (s.setB k v).inputQ j = s.inputQ j) ∧
    (∀ j, (s.setB k v).routeSlot j = s.routeSlot j) ∧ (∀ i j l, (s.setB k v).key i j l = s.key i j l) := by
  and_intros <;> intros <;> rfl

@[simp] theorem State.setC_reads (s : State) (k v : Nat) :
    (∀ j, (s.setC k v).o j = s.o j) ∧ (∀ j, (s.setC k v).b j = s.b j) ∧ (∀ j, (s.setC k v).port j = s.port j) ∧
    (∀ j, (s.setC k v).outSt j = s.outSt j) ∧ (∀ j, (s.setC k v).part j = s.part j) ∧ (∀ j, (s.setC k v).folio j = s.folio j) ∧
    (∀ j, (s.setC k v).domain j = s.domain j) ∧ (∀ j, (s.setC k v).ctx j = s.ctx j) ∧ (∀ j, (s.setC k v).table j = s.table j) ∧
    (∀ j, (s.setC k v).quill j = s.quill j) ∧ (∀ j, (s.setC k v).object j = s.object j) ∧
    (∀ j, (s.setC k v).sched j = s.sched j) ∧ (∀ j, (s.setC k v).slot j = s.slot j) ∧ (∀ j, (s.setC k v).batch j = s.batch j) ∧
    (∀ j, (s.setC k v).region j = s.region j) ∧ (∀ j, (s.setC k v).meter j = s.meter j) ∧
    (∀ j, (s.setC k v).unit j = s.unit j) ∧ (∀ j, (s.setC k v).hrb j = s.hrb j) ∧ (∀ j, (s.setC k v).hostP j = s.hostP j) ∧
    (∀ j, (s.setC k v).mac j = s.mac j) ∧ (∀ j, (s.setC k v).strag j = s.strag j) ∧ (∀ j, (s.setC k v).inputQ j = s.inputQ j) ∧
    (∀ j, (s.setC k v).routeSlot j = s.routeSlot j) ∧ (∀ i j l, (s.setC k v).key i j l = s.key i j l) := by
  and_intros <;> intros <;> rfl

@[simp] theorem State.setPort_reads (s : State) (p : Nat) (v : PortSt) :
    (∀ j, (s.setPort p v).o j = s.o j) ∧ (∀ j, (s.setPort p v).b j = s.b j) ∧ (∀ j, (s.setPort p v).c j = s.c j) ∧
    (∀ j, (s.setPort p v).outSt j = s.outSt j) ∧ (∀ j, (s.setPort p v).part j = s.part j) ∧
    (∀ j, (s.setPort p v).folio j = s.folio j) ∧ (∀ j, (s.setPort p v).domain j = s.domain j) ∧
    (∀ j, (s.setPort p v).ctx j = s.ctx j) ∧ (∀ j, (s.setPort p v).table j = s.table j) ∧
    (∀ j, (s.setPort p v).quill j = s.quill j) ∧ (∀ j, (s.setPort p v).object j = s.object j) ∧
    (∀ j, (s.setPort p v).sched j = s.sched j) ∧ (∀ j, (s.setPort p v).slot j = s.slot j) ∧
    (∀ j, (s.setPort p v).batch j = s.batch j) ∧ (∀ j, (s.setPort p v).region j = s.region j) ∧
    (∀ j, (s.setPort p v).meter j = s.meter j) ∧ (∀ j, (s.setPort p v).unit j = s.unit j) ∧
    (∀ j, (s.setPort p v).hrb j = s.hrb j) ∧ (∀ j, (s.setPort p v).hostP j = s.hostP j) ∧
    (∀ j, (s.setPort p v).mac j = s.mac j) ∧ (∀ j, (s.setPort p v).strag j = s.strag j) ∧
    (∀ j, (s.setPort p v).inputQ j = s.inputQ j) ∧ (∀ j, (s.setPort p v).routeSlot j = s.routeSlot j) ∧
    (∀ i j l, (s.setPort p v).key i j l = s.key i j l) := by
  and_intros <;> intros <;> rfl

@[simp] theorem State.setOut_reads (s : State) (o : Nat) (v : OutSt) :
    (∀ j, (s.setOut o v).o j = s.o j) ∧ (∀ j, (s.setOut o v).b j = s.b j) ∧ (∀ j, (s.setOut o v).c j = s.c j) ∧
    (∀ j, (s.setOut o v).port j = s.port j) ∧ (∀ j, (s.setOut o v).part j = s.part j) ∧
    (∀ j, (s.setOut o v).folio j = s.folio j) ∧ (∀ j, (s.setOut o v).domain j = s.domain j) ∧
    (∀ j, (s.setOut o v).ctx j = s.ctx j) ∧ (∀ j, (s.setOut o v).table j = s.table j) ∧
    (∀ j, (s.setOut o v).quill j = s.quill j) ∧ (∀ j, (s.setOut o v).object j = s.object j) ∧
    (∀ j, (s.setOut o v).sched j = s.sched j) ∧ (∀ j, (s.setOut o v).slot j = s.slot j) ∧
    (∀ j, (s.setOut o v).batch j = s.batch j) ∧ (∀ j, (s.setOut o v).region j = s.region j) ∧
    (∀ j, (s.setOut o v).meter j = s.meter j) ∧ (∀ j, (s.setOut o v).unit j = s.unit j) ∧
    (∀ j, (s.setOut o v).hrb j = s.hrb j) ∧ (∀ j, (s.setOut o v).hostP j = s.hostP j) ∧ (∀ j, (s.setOut o v).mac j = s.mac j) ∧
    (∀ j, (s.setOut o v).strag j = s.strag j) ∧ (∀ j, (s.setOut o v).inputQ j = s.inputQ j) ∧
    (∀ j, (s.setOut o v).routeSlot j = s.routeSlot j) ∧ (∀ i j l, (s.setOut o v).key i j l = s.key i j l) := by
  and_intros <;> intros <;> rfl

@[simp] theorem State.setPart_reads (s : State) (p : Nat) (v : Partition) :
    (∀ j, (s.setPart p v).o j = s.o j) ∧ (∀ j, (s.setPart p v).b j = s.b j) ∧ (∀ j, (s.setPart p v).c j = s.c j) ∧
    (∀ j, (s.setPart p v).port j = s.port j) ∧ (∀ j, (s.setPart p v).outSt j = s.outSt j) ∧
    (∀ j, (s.setPart p v).folio j = s.folio j) ∧ (∀ j, (s.setPart p v).domain j = s.domain j) ∧
    (∀ j, (s.setPart p v).ctx j = s.ctx j) ∧ (∀ j, (s.setPart p v).table j = s.table j) ∧
    (∀ j, (s.setPart p v).quill j = s.quill j) ∧ (∀ j, (s.setPart p v).object j = s.object j) ∧
    (∀ j, (s.setPart p v).sched j = s.sched j) ∧ (∀ j, (s.setPart p v).slot j = s.slot j) ∧
    (∀ j, (s.setPart p v).batch j = s.batch j) ∧ (∀ j, (s.setPart p v).region j = s.region j) ∧
    (∀ j, (s.setPart p v).meter j = s.meter j) ∧ (∀ j, (s.setPart p v).unit j = s.unit j) ∧
    (∀ j, (s.setPart p v).hrb j = s.hrb j) ∧ (∀ j, (s.setPart p v).hostP j = s.hostP j) ∧
    (∀ j, (s.setPart p v).mac j = s.mac j) ∧ (∀ j, (s.setPart p v).strag j = s.strag j) ∧
    (∀ j, (s.setPart p v).inputQ j = s.inputQ j) ∧ (∀ j, (s.setPart p v).routeSlot j = s.routeSlot j) ∧
    (∀ i j l, (s.setPart p v).key i j l = s.key i j l) := by
  and_intros <;> intros <;> rfl

@[simp] theorem State.setFolio_reads (s : State) (i : Nat) (v : Folio) :
    (∀ j, (s.setFolio i v).o j = s.o j) ∧ (∀ j, (s.setFolio i v).b j = s.b j) ∧ (∀ j, (s.setFolio i v).c j = s.c j) ∧
    (∀ j, (s.setFolio i v).port j = s.port j) ∧ (∀ j, (s.setFolio i v).outSt j = s.outSt j) ∧
    (∀ j, (s.setFolio i v).part j = s.part j) ∧ (∀ j, (s.setFolio i v).domain j = s.domain j) ∧
    (∀ j, (s.setFolio i v).ctx j = s.ctx j) ∧ (∀ j, (s.setFolio i v).table j = s.table j) ∧
    (∀ j, (s.setFolio i v).quill j = s.quill j) ∧ (∀ j, (s.setFolio i v).object j = s.object j) ∧
    (∀ j, (s.setFolio i v).sched j = s.sched j) ∧ (∀ j, (s.setFolio i v).slot j = s.slot j) ∧
    (∀ j, (s.setFolio i v).batch j = s.batch j) ∧ (∀ j, (s.setFolio i v).region j = s.region j) ∧
    (∀ j, (s.setFolio i v).meter j = s.meter j) ∧ (∀ j, (s.setFolio i v).unit j = s.unit j) ∧
    (∀ j, (s.setFolio i v).hrb j = s.hrb j) ∧ (∀ j, (s.setFolio i v).hostP j = s.hostP j) ∧
    (∀ j, (s.setFolio i v).mac j = s.mac j) ∧ (∀ j, (s.setFolio i v).strag j = s.strag j) ∧
    (∀ j, (s.setFolio i v).inputQ j = s.inputQ j) ∧ (∀ j, (s.setFolio i v).routeSlot j = s.routeSlot j) ∧
    (∀ i j l, (s.setFolio i v).key i j l = s.key i j l) := by
  and_intros <;> intros <;> rfl

@[simp] theorem State.setDomain_reads (s : State) (d : Nat) (v : Domain) :
    (∀ j, (s.setDomain d v).o j = s.o j) ∧ (∀ j, (s.setDomain d v).b j = s.b j) ∧ (∀ j, (s.setDomain d v).c j = s.c j) ∧
    (∀ j, (s.setDomain d v).port j = s.port j) ∧ (∀ j, (s.setDomain d v).outSt j = s.outSt j) ∧
    (∀ j, (s.setDomain d v).part j = s.part j) ∧ (∀ j, (s.setDomain d v).folio j = s.folio j) ∧
    (∀ j, (s.setDomain d v).ctx j = s.ctx j) ∧ (∀ j, (s.setDomain d v).table j = s.table j) ∧
    (∀ j, (s.setDomain d v).quill j = s.quill j) ∧ (∀ j, (s.setDomain d v).object j = s.object j) ∧
    (∀ j, (s.setDomain d v).sched j = s.sched j) ∧ (∀ j, (s.setDomain d v).slot j = s.slot j) ∧
    (∀ j, (s.setDomain d v).batch j = s.batch j) ∧ (∀ j, (s.setDomain d v).region j = s.region j) ∧
    (∀ j, (s.setDomain d v).meter j = s.meter j) ∧ (∀ j, (s.setDomain d v).unit j = s.unit j) ∧
    (∀ j, (s.setDomain d v).hrb j = s.hrb j) ∧ (∀ j, (s.setDomain d v).hostP j = s.hostP j) ∧
    (∀ j, (s.setDomain d v).mac j = s.mac j) ∧ (∀ j, (s.setDomain d v).strag j = s.strag j) ∧
    (∀ j, (s.setDomain d v).inputQ j = s.inputQ j) ∧ (∀ j, (s.setDomain d v).routeSlot j = s.routeSlot j) ∧
    (∀ i j l, (s.setDomain d v).key i j l = s.key i j l) := by
  and_intros <;> intros <;> rfl

@[simp] theorem State.setCtx_reads (s : State) (c : Nat) (v : Ctx) :
    (∀ j, (s.setCtx c v).o j = s.o j) ∧ (∀ j, (s.setCtx c v).b j = s.b j) ∧ (∀ j, (s.setCtx c v).c j = s.c j) ∧
    (∀ j, (s.setCtx c v).port j = s.port j) ∧ (∀ j, (s.setCtx c v).outSt j = s.outSt j) ∧
    (∀ j, (s.setCtx c v).part j = s.part j) ∧ (∀ j, (s.setCtx c v).folio j = s.folio j) ∧
    (∀ j, (s.setCtx c v).domain j = s.domain j) ∧ (∀ j, (s.setCtx c v).table j = s.table j) ∧
    (∀ j, (s.setCtx c v).quill j = s.quill j) ∧ (∀ j, (s.setCtx c v).object j = s.object j) ∧
    (∀ j, (s.setCtx c v).sched j = s.sched j) ∧ (∀ j, (s.setCtx c v).slot j = s.slot j) ∧
    (∀ j, (s.setCtx c v).batch j = s.batch j) ∧ (∀ j, (s.setCtx c v).region j = s.region j) ∧
    (∀ j, (s.setCtx c v).meter j = s.meter j) ∧ (∀ j, (s.setCtx c v).unit j = s.unit j) ∧
    (∀ j, (s.setCtx c v).hrb j = s.hrb j) ∧ (∀ j, (s.setCtx c v).hostP j = s.hostP j) ∧ (∀ j, (s.setCtx c v).mac j = s.mac j) ∧
    (∀ j, (s.setCtx c v).strag j = s.strag j) ∧ (∀ j, (s.setCtx c v).inputQ j = s.inputQ j) ∧
    (∀ j, (s.setCtx c v).routeSlot j = s.routeSlot j) ∧ (∀ i j l, (s.setCtx c v).key i j l = s.key i j l) := by
  and_intros <;> intros <;> rfl

@[simp] theorem State.setTable_reads (s : State) (t : Nat) (v : Table) :
    (∀ j, (s.setTable t v).o j = s.o j) ∧ (∀ j, (s.setTable t v).b j = s.b j) ∧ (∀ j, (s.setTable t v).c j = s.c j) ∧
    (∀ j, (s.setTable t v).port j = s.port j) ∧ (∀ j, (s.setTable t v).outSt j = s.outSt j) ∧
    (∀ j, (s.setTable t v).part j = s.part j) ∧ (∀ j, (s.setTable t v).folio j = s.folio j) ∧
    (∀ j, (s.setTable t v).domain j = s.domain j) ∧ (∀ j, (s.setTable t v).ctx j = s.ctx j) ∧
    (∀ j, (s.setTable t v).quill j = s.quill j) ∧ (∀ j, (s.setTable t v).object j = s.object j) ∧
    (∀ j, (s.setTable t v).sched j = s.sched j) ∧ (∀ j, (s.setTable t v).slot j = s.slot j) ∧
    (∀ j, (s.setTable t v).batch j = s.batch j) ∧ (∀ j, (s.setTable t v).region j = s.region j) ∧
    (∀ j, (s.setTable t v).meter j = s.meter j) ∧ (∀ j, (s.setTable t v).unit j = s.unit j) ∧
    (∀ j, (s.setTable t v).hrb j = s.hrb j) ∧ (∀ j, (s.setTable t v).hostP j = s.hostP j) ∧
    (∀ j, (s.setTable t v).mac j = s.mac j) ∧ (∀ j, (s.setTable t v).strag j = s.strag j) ∧
    (∀ j, (s.setTable t v).inputQ j = s.inputQ j) ∧ (∀ j, (s.setTable t v).routeSlot j = s.routeSlot j) ∧
    (∀ i j l, (s.setTable t v).key i j l = s.key i j l) := by
  and_intros <;> intros <;> rfl

@[simp] theorem State.setQuill_reads (s : State) (q : Nat) (v : QuillSt) :
    (∀ j, (s.setQuill q v).o j = s.o j) ∧ (∀ j, (s.setQuill q v).b j = s.b j) ∧ (∀ j, (s.setQuill q v).c j = s.c j) ∧
    (∀ j, (s.setQuill q v).port j = s.port j) ∧ (∀ j, (s.setQuill q v).outSt j = s.outSt j) ∧
    (∀ j, (s.setQuill q v).part j = s.part j) ∧ (∀ j, (s.setQuill q v).folio j = s.folio j) ∧
    (∀ j, (s.setQuill q v).domain j = s.domain j) ∧ (∀ j, (s.setQuill q v).ctx j = s.ctx j) ∧
    (∀ j, (s.setQuill q v).table j = s.table j) ∧ (∀ j, (s.setQuill q v).object j = s.object j) ∧
    (∀ j, (s.setQuill q v).sched j = s.sched j) ∧ (∀ j, (s.setQuill q v).slot j = s.slot j) ∧
    (∀ j, (s.setQuill q v).batch j = s.batch j) ∧ (∀ j, (s.setQuill q v).region j = s.region j) ∧
    (∀ j, (s.setQuill q v).meter j = s.meter j) ∧ (∀ j, (s.setQuill q v).unit j = s.unit j) ∧
    (∀ j, (s.setQuill q v).hrb j = s.hrb j) ∧ (∀ j, (s.setQuill q v).hostP j = s.hostP j) ∧
    (∀ j, (s.setQuill q v).mac j = s.mac j) ∧ (∀ j, (s.setQuill q v).strag j = s.strag j) ∧
    (∀ j, (s.setQuill q v).inputQ j = s.inputQ j) ∧ (∀ j, (s.setQuill q v).routeSlot j = s.routeSlot j) ∧
    (∀ i j l, (s.setQuill q v).key i j l = s.key i j l) := by
  and_intros <;> intros <;> rfl

@[simp] theorem State.setObject_reads (s : State) (n : Nat) (v : Obj) :
    (∀ j, (s.setObject n v).o j = s.o j) ∧ (∀ j, (s.setObject n v).b j = s.b j) ∧ (∀ j, (s.setObject n v).c j = s.c j) ∧
    (∀ j, (s.setObject n v).port j = s.port j) ∧ (∀ j, (s.setObject n v).outSt j = s.outSt j) ∧
    (∀ j, (s.setObject n v).part j = s.part j) ∧ (∀ j, (s.setObject n v).folio j = s.folio j) ∧
    (∀ j, (s.setObject n v).domain j = s.domain j) ∧ (∀ j, (s.setObject n v).ctx j = s.ctx j) ∧
    (∀ j, (s.setObject n v).table j = s.table j) ∧ (∀ j, (s.setObject n v).quill j = s.quill j) ∧
    (∀ j, (s.setObject n v).sched j = s.sched j) ∧ (∀ j, (s.setObject n v).slot j = s.slot j) ∧
    (∀ j, (s.setObject n v).batch j = s.batch j) ∧ (∀ j, (s.setObject n v).region j = s.region j) ∧
    (∀ j, (s.setObject n v).meter j = s.meter j) ∧ (∀ j, (s.setObject n v).unit j = s.unit j) ∧
    (∀ j, (s.setObject n v).hrb j = s.hrb j) ∧ (∀ j, (s.setObject n v).hostP j = s.hostP j) ∧
    (∀ j, (s.setObject n v).mac j = s.mac j) ∧ (∀ j, (s.setObject n v).strag j = s.strag j) ∧
    (∀ j, (s.setObject n v).inputQ j = s.inputQ j) ∧ (∀ j, (s.setObject n v).routeSlot j = s.routeSlot j) ∧
    (∀ i j l, (s.setObject n v).key i j l = s.key i j l) := by
  and_intros <;> intros <;> rfl

@[simp] theorem State.setSched_reads (s : State) (n : Nat) (v : Sched) :
    (∀ j, (s.setSched n v).o j = s.o j) ∧ (∀ j, (s.setSched n v).b j = s.b j) ∧ (∀ j, (s.setSched n v).c j = s.c j) ∧
    (∀ j, (s.setSched n v).port j = s.port j) ∧ (∀ j, (s.setSched n v).outSt j = s.outSt j) ∧
    (∀ j, (s.setSched n v).part j = s.part j) ∧ (∀ j, (s.setSched n v).folio j = s.folio j) ∧
    (∀ j, (s.setSched n v).domain j = s.domain j) ∧ (∀ j, (s.setSched n v).ctx j = s.ctx j) ∧
    (∀ j, (s.setSched n v).table j = s.table j) ∧ (∀ j, (s.setSched n v).quill j = s.quill j) ∧
    (∀ j, (s.setSched n v).object j = s.object j) ∧ (∀ j, (s.setSched n v).slot j = s.slot j) ∧
    (∀ j, (s.setSched n v).batch j = s.batch j) ∧ (∀ j, (s.setSched n v).region j = s.region j) ∧
    (∀ j, (s.setSched n v).meter j = s.meter j) ∧ (∀ j, (s.setSched n v).unit j = s.unit j) ∧
    (∀ j, (s.setSched n v).hrb j = s.hrb j) ∧ (∀ j, (s.setSched n v).hostP j = s.hostP j) ∧
    (∀ j, (s.setSched n v).mac j = s.mac j) ∧ (∀ j, (s.setSched n v).strag j = s.strag j) ∧
    (∀ j, (s.setSched n v).inputQ j = s.inputQ j) ∧ (∀ j, (s.setSched n v).routeSlot j = s.routeSlot j) ∧
    (∀ i j l, (s.setSched n v).key i j l = s.key i j l) := by
  and_intros <;> intros <;> rfl

@[simp] theorem State.setSlot_reads (s : State) (n : Nat) (v : BasisSlot) :
    (∀ j, (s.setSlot n v).o j = s.o j) ∧ (∀ j, (s.setSlot n v).b j = s.b j) ∧ (∀ j, (s.setSlot n v).c j = s.c j) ∧
    (∀ j, (s.setSlot n v).port j = s.port j) ∧ (∀ j, (s.setSlot n v).outSt j = s.outSt j) ∧
    (∀ j, (s.setSlot n v).part j = s.part j) ∧ (∀ j, (s.setSlot n v).folio j = s.folio j) ∧
    (∀ j, (s.setSlot n v).domain j = s.domain j) ∧ (∀ j, (s.setSlot n v).ctx j = s.ctx j) ∧
    (∀ j, (s.setSlot n v).table j = s.table j) ∧ (∀ j, (s.setSlot n v).quill j = s.quill j) ∧
    (∀ j, (s.setSlot n v).object j = s.object j) ∧ (∀ j, (s.setSlot n v).sched j = s.sched j) ∧
    (∀ j, (s.setSlot n v).batch j = s.batch j) ∧ (∀ j, (s.setSlot n v).region j = s.region j) ∧
    (∀ j, (s.setSlot n v).meter j = s.meter j) ∧ (∀ j, (s.setSlot n v).unit j = s.unit j) ∧
    (∀ j, (s.setSlot n v).hrb j = s.hrb j) ∧ (∀ j, (s.setSlot n v).hostP j = s.hostP j) ∧
    (∀ j, (s.setSlot n v).mac j = s.mac j) ∧ (∀ j, (s.setSlot n v).strag j = s.strag j) ∧
    (∀ j, (s.setSlot n v).inputQ j = s.inputQ j) ∧ (∀ j, (s.setSlot n v).routeSlot j = s.routeSlot j) ∧
    (∀ i j l, (s.setSlot n v).key i j l = s.key i j l) := by
  and_intros <;> intros <;> rfl

@[simp] theorem State.setBatch_reads (s : State) (p : Nat) (v : Batch) :
    (∀ j, (s.setBatch p v).o j = s.o j) ∧ (∀ j, (s.setBatch p v).b j = s.b j) ∧ (∀ j, (s.setBatch p v).c j = s.c j) ∧
    (∀ j, (s.setBatch p v).port j = s.port j) ∧ (∀ j, (s.setBatch p v).outSt j = s.outSt j) ∧
    (∀ j, (s.setBatch p v).part j = s.part j) ∧ (∀ j, (s.setBatch p v).folio j = s.folio j) ∧
    (∀ j, (s.setBatch p v).domain j = s.domain j) ∧ (∀ j, (s.setBatch p v).ctx j = s.ctx j) ∧
    (∀ j, (s.setBatch p v).table j = s.table j) ∧ (∀ j, (s.setBatch p v).quill j = s.quill j) ∧
    (∀ j, (s.setBatch p v).object j = s.object j) ∧ (∀ j, (s.setBatch p v).sched j = s.sched j) ∧
    (∀ j, (s.setBatch p v).slot j = s.slot j) ∧ (∀ j, (s.setBatch p v).region j = s.region j) ∧
    (∀ j, (s.setBatch p v).meter j = s.meter j) ∧ (∀ j, (s.setBatch p v).unit j = s.unit j) ∧
    (∀ j, (s.setBatch p v).hrb j = s.hrb j) ∧ (∀ j, (s.setBatch p v).hostP j = s.hostP j) ∧
    (∀ j, (s.setBatch p v).mac j = s.mac j) ∧ (∀ j, (s.setBatch p v).strag j = s.strag j) ∧
    (∀ j, (s.setBatch p v).inputQ j = s.inputQ j) ∧ (∀ j, (s.setBatch p v).routeSlot j = s.routeSlot j) ∧
    (∀ i j l, (s.setBatch p v).key i j l = s.key i j l) := by
  and_intros <;> intros <;> rfl

@[simp] theorem State.setRegion_reads (s : State) (r : Nat) (v : Option Region) :
    (∀ j, (s.setRegion r v).o j = s.o j) ∧ (∀ j, (s.setRegion r v).b j = s.b j) ∧ (∀ j, (s.setRegion r v).c j = s.c j) ∧
    (∀ j, (s.setRegion r v).port j = s.port j) ∧ (∀ j, (s.setRegion r v).outSt j = s.outSt j) ∧
    (∀ j, (s.setRegion r v).part j = s.part j) ∧ (∀ j, (s.setRegion r v).folio j = s.folio j) ∧
    (∀ j, (s.setRegion r v).domain j = s.domain j) ∧ (∀ j, (s.setRegion r v).ctx j = s.ctx j) ∧
    (∀ j, (s.setRegion r v).table j = s.table j) ∧ (∀ j, (s.setRegion r v).quill j = s.quill j) ∧
    (∀ j, (s.setRegion r v).object j = s.object j) ∧ (∀ j, (s.setRegion r v).sched j = s.sched j) ∧
    (∀ j, (s.setRegion r v).slot j = s.slot j) ∧ (∀ j, (s.setRegion r v).batch j = s.batch j) ∧
    (∀ j, (s.setRegion r v).meter j = s.meter j) ∧ (∀ j, (s.setRegion r v).unit j = s.unit j) ∧
    (∀ j, (s.setRegion r v).hrb j = s.hrb j) ∧ (∀ j, (s.setRegion r v).hostP j = s.hostP j) ∧
    (∀ j, (s.setRegion r v).mac j = s.mac j) ∧ (∀ j, (s.setRegion r v).strag j = s.strag j) ∧
    (∀ j, (s.setRegion r v).inputQ j = s.inputQ j) ∧ (∀ j, (s.setRegion r v).routeSlot j = s.routeSlot j) ∧
    (∀ i j l, (s.setRegion r v).key i j l = s.key i j l) := by
  and_intros <;> intros <;> rfl

@[simp] theorem State.setMeter_reads (s : State) (m : Nat) (v : MeterSt) :
    (∀ j, (s.setMeter m v).o j = s.o j) ∧ (∀ j, (s.setMeter m v).b j = s.b j) ∧ (∀ j, (s.setMeter m v).c j = s.c j) ∧
    (∀ j, (s.setMeter m v).port j = s.port j) ∧ (∀ j, (s.setMeter m v).outSt j = s.outSt j) ∧
    (∀ j, (s.setMeter m v).part j = s.part j) ∧ (∀ j, (s.setMeter m v).folio j = s.folio j) ∧
    (∀ j, (s.setMeter m v).domain j = s.domain j) ∧ (∀ j, (s.setMeter m v).ctx j = s.ctx j) ∧
    (∀ j, (s.setMeter m v).table j = s.table j) ∧ (∀ j, (s.setMeter m v).quill j = s.quill j) ∧
    (∀ j, (s.setMeter m v).object j = s.object j) ∧ (∀ j, (s.setMeter m v).sched j = s.sched j) ∧
    (∀ j, (s.setMeter m v).slot j = s.slot j) ∧ (∀ j, (s.setMeter m v).batch j = s.batch j) ∧
    (∀ j, (s.setMeter m v).region j = s.region j) ∧ (∀ j, (s.setMeter m v).unit j = s.unit j) ∧
    (∀ j, (s.setMeter m v).hrb j = s.hrb j) ∧ (∀ j, (s.setMeter m v).hostP j = s.hostP j) ∧
    (∀ j, (s.setMeter m v).mac j = s.mac j) ∧ (∀ j, (s.setMeter m v).strag j = s.strag j) ∧
    (∀ j, (s.setMeter m v).inputQ j = s.inputQ j) ∧ (∀ j, (s.setMeter m v).routeSlot j = s.routeSlot j) ∧
    (∀ i j l, (s.setMeter m v).key i j l = s.key i j l) := by
  and_intros <;> intros <;> rfl

@[simp] theorem State.setUnit_reads (s : State) (u : Nat) (v : UnitSt) :
    (∀ j, (s.setUnit u v).o j = s.o j) ∧ (∀ j, (s.setUnit u v).b j = s.b j) ∧ (∀ j, (s.setUnit u v).c j = s.c j) ∧
    (∀ j, (s.setUnit u v).port j = s.port j) ∧ (∀ j, (s.setUnit u v).outSt j = s.outSt j) ∧
    (∀ j, (s.setUnit u v).part j = s.part j) ∧ (∀ j, (s.setUnit u v).folio j = s.folio j) ∧
    (∀ j, (s.setUnit u v).domain j = s.domain j) ∧ (∀ j, (s.setUnit u v).ctx j = s.ctx j) ∧
    (∀ j, (s.setUnit u v).table j = s.table j) ∧ (∀ j, (s.setUnit u v).quill j = s.quill j) ∧
    (∀ j, (s.setUnit u v).object j = s.object j) ∧ (∀ j, (s.setUnit u v).sched j = s.sched j) ∧
    (∀ j, (s.setUnit u v).slot j = s.slot j) ∧ (∀ j, (s.setUnit u v).batch j = s.batch j) ∧
    (∀ j, (s.setUnit u v).region j = s.region j) ∧ (∀ j, (s.setUnit u v).meter j = s.meter j) ∧
    (∀ j, (s.setUnit u v).hrb j = s.hrb j) ∧ (∀ j, (s.setUnit u v).hostP j = s.hostP j) ∧
    (∀ j, (s.setUnit u v).mac j = s.mac j) ∧ (∀ j, (s.setUnit u v).strag j = s.strag j) ∧
    (∀ j, (s.setUnit u v).inputQ j = s.inputQ j) ∧ (∀ j, (s.setUnit u v).routeSlot j = s.routeSlot j) ∧
    (∀ i j l, (s.setUnit u v).key i j l = s.key i j l) := by
  and_intros <;> intros <;> rfl

@[simp] theorem State.setHrb_reads (s : State) (h : Nat) (v : Hrb) :
    (∀ j, (s.setHrb h v).o j = s.o j) ∧ (∀ j, (s.setHrb h v).b j = s.b j) ∧ (∀ j, (s.setHrb h v).c j = s.c j) ∧
    (∀ j, (s.setHrb h v).port j = s.port j) ∧ (∀ j, (s.setHrb h v).outSt j = s.outSt j) ∧
    (∀ j, (s.setHrb h v).part j = s.part j) ∧ (∀ j, (s.setHrb h v).folio j = s.folio j) ∧
    (∀ j, (s.setHrb h v).domain j = s.domain j) ∧ (∀ j, (s.setHrb h v).ctx j = s.ctx j) ∧
    (∀ j, (s.setHrb h v).table j = s.table j) ∧ (∀ j, (s.setHrb h v).quill j = s.quill j) ∧
    (∀ j, (s.setHrb h v).object j = s.object j) ∧ (∀ j, (s.setHrb h v).sched j = s.sched j) ∧
    (∀ j, (s.setHrb h v).slot j = s.slot j) ∧ (∀ j, (s.setHrb h v).batch j = s.batch j) ∧
    (∀ j, (s.setHrb h v).region j = s.region j) ∧ (∀ j, (s.setHrb h v).meter j = s.meter j) ∧
    (∀ j, (s.setHrb h v).unit j = s.unit j) ∧ (∀ j, (s.setHrb h v).hostP j = s.hostP j) ∧
    (∀ j, (s.setHrb h v).mac j = s.mac j) ∧ (∀ j, (s.setHrb h v).strag j = s.strag j) ∧
    (∀ j, (s.setHrb h v).inputQ j = s.inputQ j) ∧ (∀ j, (s.setHrb h v).routeSlot j = s.routeSlot j) ∧
    (∀ i j l, (s.setHrb h v).key i j l = s.key i j l) := by
  and_intros <;> intros <;> rfl

@[simp] theorem State.setHostP_reads (s : State) (h : Nat) (v : HostSt) :
    (∀ j, (s.setHostP h v).o j = s.o j) ∧ (∀ j, (s.setHostP h v).b j = s.b j) ∧ (∀ j, (s.setHostP h v).c j = s.c j) ∧
    (∀ j, (s.setHostP h v).port j = s.port j) ∧ (∀ j, (s.setHostP h v).outSt j = s.outSt j) ∧
    (∀ j, (s.setHostP h v).part j = s.part j) ∧ (∀ j, (s.setHostP h v).folio j = s.folio j) ∧
    (∀ j, (s.setHostP h v).domain j = s.domain j) ∧ (∀ j, (s.setHostP h v).ctx j = s.ctx j) ∧
    (∀ j, (s.setHostP h v).table j = s.table j) ∧ (∀ j, (s.setHostP h v).quill j = s.quill j) ∧
    (∀ j, (s.setHostP h v).object j = s.object j) ∧ (∀ j, (s.setHostP h v).sched j = s.sched j) ∧
    (∀ j, (s.setHostP h v).slot j = s.slot j) ∧ (∀ j, (s.setHostP h v).batch j = s.batch j) ∧
    (∀ j, (s.setHostP h v).region j = s.region j) ∧ (∀ j, (s.setHostP h v).meter j = s.meter j) ∧
    (∀ j, (s.setHostP h v).unit j = s.unit j) ∧ (∀ j, (s.setHostP h v).hrb j = s.hrb j) ∧
    (∀ j, (s.setHostP h v).mac j = s.mac j) ∧ (∀ j, (s.setHostP h v).strag j = s.strag j) ∧
    (∀ j, (s.setHostP h v).inputQ j = s.inputQ j) ∧ (∀ j, (s.setHostP h v).routeSlot j = s.routeSlot j) ∧
    (∀ i j l, (s.setHostP h v).key i j l = s.key i j l) := by
  and_intros <;> intros <;> rfl

@[simp] theorem State.setMac_reads (s : State) (h : Nat) (v : Macsec) :
    (∀ j, (s.setMac h v).o j = s.o j) ∧ (∀ j, (s.setMac h v).b j = s.b j) ∧ (∀ j, (s.setMac h v).c j = s.c j) ∧
    (∀ j, (s.setMac h v).port j = s.port j) ∧ (∀ j, (s.setMac h v).outSt j = s.outSt j) ∧
    (∀ j, (s.setMac h v).part j = s.part j) ∧ (∀ j, (s.setMac h v).folio j = s.folio j) ∧
    (∀ j, (s.setMac h v).domain j = s.domain j) ∧ (∀ j, (s.setMac h v).ctx j = s.ctx j) ∧
    (∀ j, (s.setMac h v).table j = s.table j) ∧ (∀ j, (s.setMac h v).quill j = s.quill j) ∧
    (∀ j, (s.setMac h v).object j = s.object j) ∧ (∀ j, (s.setMac h v).sched j = s.sched j) ∧
    (∀ j, (s.setMac h v).slot j = s.slot j) ∧ (∀ j, (s.setMac h v).batch j = s.batch j) ∧
    (∀ j, (s.setMac h v).region j = s.region j) ∧ (∀ j, (s.setMac h v).meter j = s.meter j) ∧
    (∀ j, (s.setMac h v).unit j = s.unit j) ∧ (∀ j, (s.setMac h v).hrb j = s.hrb j) ∧
    (∀ j, (s.setMac h v).hostP j = s.hostP j) ∧ (∀ j, (s.setMac h v).strag j = s.strag j) ∧
    (∀ j, (s.setMac h v).inputQ j = s.inputQ j) ∧ (∀ j, (s.setMac h v).routeSlot j = s.routeSlot j) ∧
    (∀ i j l, (s.setMac h v).key i j l = s.key i j l) := by
  and_intros <;> intros <;> rfl

@[simp] theorem State.setStrag_reads (s : State) (m : Nat) (v : Strag) :
    (∀ j, (s.setStrag m v).o j = s.o j) ∧ (∀ j, (s.setStrag m v).b j = s.b j) ∧ (∀ j, (s.setStrag m v).c j = s.c j) ∧
    (∀ j, (s.setStrag m v).port j = s.port j) ∧ (∀ j, (s.setStrag m v).outSt j = s.outSt j) ∧
    (∀ j, (s.setStrag m v).part j = s.part j) ∧ (∀ j, (s.setStrag m v).folio j = s.folio j) ∧
    (∀ j, (s.setStrag m v).domain j = s.domain j) ∧ (∀ j, (s.setStrag m v).ctx j = s.ctx j) ∧
    (∀ j, (s.setStrag m v).table j = s.table j) ∧ (∀ j, (s.setStrag m v).quill j = s.quill j) ∧
    (∀ j, (s.setStrag m v).object j = s.object j) ∧ (∀ j, (s.setStrag m v).sched j = s.sched j) ∧
    (∀ j, (s.setStrag m v).slot j = s.slot j) ∧ (∀ j, (s.setStrag m v).batch j = s.batch j) ∧
    (∀ j, (s.setStrag m v).region j = s.region j) ∧ (∀ j, (s.setStrag m v).meter j = s.meter j) ∧
    (∀ j, (s.setStrag m v).unit j = s.unit j) ∧ (∀ j, (s.setStrag m v).hrb j = s.hrb j) ∧
    (∀ j, (s.setStrag m v).hostP j = s.hostP j) ∧ (∀ j, (s.setStrag m v).mac j = s.mac j) ∧
    (∀ j, (s.setStrag m v).inputQ j = s.inputQ j) ∧ (∀ j, (s.setStrag m v).routeSlot j = s.routeSlot j) ∧
    (∀ i j l, (s.setStrag m v).key i j l = s.key i j l) := by
  and_intros <;> intros <;> rfl

@[simp] theorem State.setInputQ_reads (s : State) (i : Nat) (v : List Held) :
    (∀ j, (s.setInputQ i v).o j = s.o j) ∧ (∀ j, (s.setInputQ i v).b j = s.b j) ∧ (∀ j, (s.setInputQ i v).c j = s.c j) ∧
    (∀ j, (s.setInputQ i v).port j = s.port j) ∧ (∀ j, (s.setInputQ i v).outSt j = s.outSt j) ∧
    (∀ j, (s.setInputQ i v).part j = s.part j) ∧ (∀ j, (s.setInputQ i v).folio j = s.folio j) ∧
    (∀ j, (s.setInputQ i v).domain j = s.domain j) ∧ (∀ j, (s.setInputQ i v).ctx j = s.ctx j) ∧
    (∀ j, (s.setInputQ i v).table j = s.table j) ∧ (∀ j, (s.setInputQ i v).quill j = s.quill j) ∧
    (∀ j, (s.setInputQ i v).object j = s.object j) ∧ (∀ j, (s.setInputQ i v).sched j = s.sched j) ∧
    (∀ j, (s.setInputQ i v).slot j = s.slot j) ∧ (∀ j, (s.setInputQ i v).batch j = s.batch j) ∧
    (∀ j, (s.setInputQ i v).region j = s.region j) ∧ (∀ j, (s.setInputQ i v).meter j = s.meter j) ∧
    (∀ j, (s.setInputQ i v).unit j = s.unit j) ∧ (∀ j, (s.setInputQ i v).hrb j = s.hrb j) ∧
    (∀ j, (s.setInputQ i v).hostP j = s.hostP j) ∧ (∀ j, (s.setInputQ i v).mac j = s.mac j) ∧
    (∀ j, (s.setInputQ i v).strag j = s.strag j) ∧ (∀ j, (s.setInputQ i v).routeSlot j = s.routeSlot j) ∧
    (∀ i j l, (s.setInputQ i v).key i j l = s.key i j l) := by
  and_intros <;> intros <;> rfl

@[simp] theorem State.setKey_reads (s : State) (port part slot : Nat) (v : KeySt) :
    (∀ j, (s.setKey port part slot v).o j = s.o j) ∧ (∀ j, (s.setKey port part slot v).b j = s.b j) ∧
    (∀ j, (s.setKey port part slot v).c j = s.c j) ∧ (∀ j, (s.setKey port part slot v).port j = s.port j) ∧
    (∀ j, (s.setKey port part slot v).outSt j = s.outSt j) ∧ (∀ j, (s.setKey port part slot v).part j = s.part j) ∧
    (∀ j, (s.setKey port part slot v).folio j = s.folio j) ∧ (∀ j, (s.setKey port part slot v).domain j = s.domain j) ∧
    (∀ j, (s.setKey port part slot v).ctx j = s.ctx j) ∧ (∀ j, (s.setKey port part slot v).table j = s.table j) ∧
    (∀ j, (s.setKey port part slot v).quill j = s.quill j) ∧ (∀ j, (s.setKey port part slot v).object j = s.object j) ∧
    (∀ j, (s.setKey port part slot v).sched j = s.sched j) ∧ (∀ j, (s.setKey port part slot v).slot j = s.slot j) ∧
    (∀ j, (s.setKey port part slot v).batch j = s.batch j) ∧ (∀ j, (s.setKey port part slot v).region j = s.region j) ∧
    (∀ j, (s.setKey port part slot v).meter j = s.meter j) ∧ (∀ j, (s.setKey port part slot v).unit j = s.unit j) ∧
    (∀ j, (s.setKey port part slot v).hrb j = s.hrb j) ∧ (∀ j, (s.setKey port part slot v).hostP j = s.hostP j) ∧
    (∀ j, (s.setKey port part slot v).mac j = s.mac j) ∧ (∀ j, (s.setKey port part slot v).strag j = s.strag j) ∧
    (∀ j, (s.setKey port part slot v).inputQ j = s.inputQ j) ∧ (∀ j, (s.setKey port part slot v).routeSlot j = s.routeSlot j) := by
  and_intros <;> intros <;> rfl

@[simp] theorem State.setSession_reads (s : State) (v : Session) :
    (∀ j, (s.setSession v).o j = s.o j) ∧ (∀ j, (s.setSession v).b j = s.b j) ∧ (∀ j, (s.setSession v).c j = s.c j) ∧
    (∀ j, (s.setSession v).port j = s.port j) ∧ (∀ j, (s.setSession v).outSt j = s.outSt j) ∧
    (∀ j, (s.setSession v).part j = s.part j) ∧ (∀ j, (s.setSession v).folio j = s.folio j) ∧
    (∀ j, (s.setSession v).domain j = s.domain j) ∧ (∀ j, (s.setSession v).ctx j = s.ctx j) ∧
    (∀ j, (s.setSession v).table j = s.table j) ∧ (∀ j, (s.setSession v).quill j = s.quill j) ∧
    (∀ j, (s.setSession v).object j = s.object j) ∧ (∀ j, (s.setSession v).sched j = s.sched j) ∧
    (∀ j, (s.setSession v).slot j = s.slot j) ∧ (∀ j, (s.setSession v).batch j = s.batch j) ∧
    (∀ j, (s.setSession v).region j = s.region j) ∧ (∀ j, (s.setSession v).meter j = s.meter j) ∧
    (∀ j, (s.setSession v).unit j = s.unit j) ∧ (∀ j, (s.setSession v).hrb j = s.hrb j) ∧
    (∀ j, (s.setSession v).hostP j = s.hostP j) ∧ (∀ j, (s.setSession v).mac j = s.mac j) ∧
    (∀ j, (s.setSession v).strag j = s.strag j) ∧ (∀ j, (s.setSession v).inputQ j = s.inputQ j) ∧
    (∀ j, (s.setSession v).routeSlot j = s.routeSlot j) ∧ (∀ i j l, (s.setSession v).key i j l = s.key i j l) := by
  and_intros <;> intros <;> rfl

@[simp] theorem State.emit_reads (s : State) (o : Out) :
    (∀ j, (s.emit o).o j = s.o j) ∧ (∀ j, (s.emit o).b j = s.b j) ∧ (∀ j, (s.emit o).c j = s.c j) ∧
    (∀ j, (s.emit o).port j = s.port j) ∧ (∀ j, (s.emit o).outSt j = s.outSt j) ∧ (∀ j, (s.emit o).part j = s.part j) ∧
    (∀ j, (s.emit o).folio j = s.folio j) ∧ (∀ j, (s.emit o).domain j = s.domain j) ∧ (∀ j, (s.emit o).ctx j = s.ctx j) ∧
    (∀ j, (s.emit o).table j = s.table j) ∧ (∀ j, (s.emit o).quill j = s.quill j) ∧ (∀ j, (s.emit o).object j = s.object j) ∧
    (∀ j, (s.emit o).sched j = s.sched j) ∧ (∀ j, (s.emit o).slot j = s.slot j) ∧ (∀ j, (s.emit o).batch j = s.batch j) ∧
    (∀ j, (s.emit o).region j = s.region j) ∧ (∀ j, (s.emit o).meter j = s.meter j) ∧ (∀ j, (s.emit o).unit j = s.unit j) ∧
    (∀ j, (s.emit o).hrb j = s.hrb j) ∧ (∀ j, (s.emit o).hostP j = s.hostP j) ∧ (∀ j, (s.emit o).mac j = s.mac j) ∧
    (∀ j, (s.emit o).strag j = s.strag j) ∧ (∀ j, (s.emit o).inputQ j = s.inputQ j) ∧
    (∀ j, (s.emit o).routeSlot j = s.routeSlot j) ∧ (∀ i j l, (s.emit o).key i j l = s.key i j l) := by
  and_intros <;> intros <;> rfl

@[simp] theorem State.bump_reads (s : State) (k n : Nat) :
    (∀ j, (s.bump k n).o j = s.o j) ∧ (∀ j, (s.bump k n).b j = s.b j) ∧ (∀ j, (s.bump k n).port j = s.port j) ∧
    (∀ j, (s.bump k n).outSt j = s.outSt j) ∧ (∀ j, (s.bump k n).part j = s.part j) ∧ (∀ j, (s.bump k n).folio j = s.folio j) ∧
    (∀ j, (s.bump k n).domain j = s.domain j) ∧ (∀ j, (s.bump k n).ctx j = s.ctx j) ∧ (∀ j, (s.bump k n).table j = s.table j) ∧
    (∀ j, (s.bump k n).quill j = s.quill j) ∧ (∀ j, (s.bump k n).object j = s.object j) ∧
    (∀ j, (s.bump k n).sched j = s.sched j) ∧ (∀ j, (s.bump k n).slot j = s.slot j) ∧ (∀ j, (s.bump k n).batch j = s.batch j) ∧
    (∀ j, (s.bump k n).region j = s.region j) ∧ (∀ j, (s.bump k n).meter j = s.meter j) ∧
    (∀ j, (s.bump k n).unit j = s.unit j) ∧ (∀ j, (s.bump k n).hrb j = s.hrb j) ∧ (∀ j, (s.bump k n).hostP j = s.hostP j) ∧
    (∀ j, (s.bump k n).mac j = s.mac j) ∧ (∀ j, (s.bump k n).strag j = s.strag j) ∧ (∀ j, (s.bump k n).inputQ j = s.inputQ j) ∧
    (∀ j, (s.bump k n).routeSlot j = s.routeSlot j) ∧ (∀ i j l, (s.bump k n).key i j l = s.key i j l) := by
  and_intros <;> intros <;> rfl

@[simp] theorem State.modPort_reads (s : State) (p : Nat) (f : PortSt → PortSt) :
    (∀ j, (s.modPort p f).o j = s.o j) ∧ (∀ j, (s.modPort p f).b j = s.b j) ∧ (∀ j, (s.modPort p f).c j = s.c j) ∧
    (∀ j, (s.modPort p f).outSt j = s.outSt j) ∧ (∀ j, (s.modPort p f).part j = s.part j) ∧
    (∀ j, (s.modPort p f).folio j = s.folio j) ∧ (∀ j, (s.modPort p f).domain j = s.domain j) ∧
    (∀ j, (s.modPort p f).ctx j = s.ctx j) ∧ (∀ j, (s.modPort p f).table j = s.table j) ∧
    (∀ j, (s.modPort p f).quill j = s.quill j) ∧ (∀ j, (s.modPort p f).object j = s.object j) ∧
    (∀ j, (s.modPort p f).sched j = s.sched j) ∧ (∀ j, (s.modPort p f).slot j = s.slot j) ∧
    (∀ j, (s.modPort p f).batch j = s.batch j) ∧ (∀ j, (s.modPort p f).region j = s.region j) ∧
    (∀ j, (s.modPort p f).meter j = s.meter j) ∧ (∀ j, (s.modPort p f).unit j = s.unit j) ∧
    (∀ j, (s.modPort p f).hrb j = s.hrb j) ∧ (∀ j, (s.modPort p f).hostP j = s.hostP j) ∧
    (∀ j, (s.modPort p f).mac j = s.mac j) ∧ (∀ j, (s.modPort p f).strag j = s.strag j) ∧
    (∀ j, (s.modPort p f).inputQ j = s.inputQ j) ∧ (∀ j, (s.modPort p f).routeSlot j = s.routeSlot j) ∧
    (∀ i j l, (s.modPort p f).key i j l = s.key i j l) := by
  and_intros <;> intros <;> rfl

@[simp] theorem State.modPart_reads (s : State) (p : Nat) (f : Partition → Partition) :
    (∀ j, (s.modPart p f).o j = s.o j) ∧ (∀ j, (s.modPart p f).b j = s.b j) ∧ (∀ j, (s.modPart p f).c j = s.c j) ∧
    (∀ j, (s.modPart p f).port j = s.port j) ∧ (∀ j, (s.modPart p f).outSt j = s.outSt j) ∧
    (∀ j, (s.modPart p f).folio j = s.folio j) ∧ (∀ j, (s.modPart p f).domain j = s.domain j) ∧
    (∀ j, (s.modPart p f).ctx j = s.ctx j) ∧ (∀ j, (s.modPart p f).table j = s.table j) ∧
    (∀ j, (s.modPart p f).quill j = s.quill j) ∧ (∀ j, (s.modPart p f).object j = s.object j) ∧
    (∀ j, (s.modPart p f).sched j = s.sched j) ∧ (∀ j, (s.modPart p f).slot j = s.slot j) ∧
    (∀ j, (s.modPart p f).batch j = s.batch j) ∧ (∀ j, (s.modPart p f).region j = s.region j) ∧
    (∀ j, (s.modPart p f).meter j = s.meter j) ∧ (∀ j, (s.modPart p f).unit j = s.unit j) ∧
    (∀ j, (s.modPart p f).hrb j = s.hrb j) ∧ (∀ j, (s.modPart p f).hostP j = s.hostP j) ∧
    (∀ j, (s.modPart p f).mac j = s.mac j) ∧ (∀ j, (s.modPart p f).strag j = s.strag j) ∧
    (∀ j, (s.modPart p f).inputQ j = s.inputQ j) ∧ (∀ j, (s.modPart p f).routeSlot j = s.routeSlot j) ∧
    (∀ i j l, (s.modPart p f).key i j l = s.key i j l) := by
  and_intros <;> intros <;> rfl

/-! ### Records: what is read after a write -/

@[simp] theorem State.o_setO (s : State) (k v : Nat) : (s.setO k v).o k = v := Sparse.get_set_self _ _ _ _

@[simp] theorem State.b_setB (s : State) (k : Nat) (v : List Byte) : (s.setB k v).b k = v := Sparse.get_set_self _ _ _ _

theorem State.c_setC (s : State) (k v : Nat) (j : Nat) : (s.setC k v).c j = if j = k then v else s.c j :=
  Sparse.get_set _ _ _ _ _
@[simp] theorem State.c_setC_self (s : State) (k v : Nat) : (s.setC k v).c k = v := Sparse.get_set_self _ _ _ _
theorem State.port_setPort (s : State) (k : Nat) (v : PortSt) (j : Nat) : (s.setPort k v).port j = if j = k then v else s.port j :=
  Sparse.get_set _ _ _ _ _
@[simp] theorem State.port_setPort_self (s : State) (k : Nat) (v : PortSt) : (s.setPort k v).port k = v := Sparse.get_set_self _ _ _ _
theorem State.outSt_setOut (s : State) (k : Nat) (v : OutSt) (j : Nat) : (s.setOut k v).outSt j = if j = k then v else s.outSt j :=
  Sparse.get_set _ _ _ _ _
@[simp] theorem State.outSt_setOut_self (s : State) (k : Nat) (v : OutSt) : (s.setOut k v).outSt k = v := Sparse.get_set_self _ _ _ _
theorem State.part_setPart (s : State) (k : Nat) (v : Partition) (j : Nat) : (s.setPart k v).part j = if j = k then v else s.part j :=
  Sparse.get_set _ _ _ _ _
@[simp] theorem State.part_setPart_self (s : State) (k : Nat) (v : Partition) : (s.setPart k v).part k = v := Sparse.get_set_self _ _ _ _
theorem State.folio_setFolio (s : State) (k : Nat) (v : Folio) (j : Nat) : (s.setFolio k v).folio j = if j = k then v else s.folio j :=
  Sparse.get_set _ _ _ _ _
@[simp] theorem State.folio_setFolio_self (s : State) (k : Nat) (v : Folio) : (s.setFolio k v).folio k = v := Sparse.get_set_self _ _ _ _
theorem State.domain_setDomain (s : State) (k : Nat) (v : Domain) (j : Nat) : (s.setDomain k v).domain j = if j = k then v else s.domain j :=
  Sparse.get_set _ _ _ _ _
@[simp] theorem State.domain_setDomain_self (s : State) (k : Nat) (v : Domain) : (s.setDomain k v).domain k = v := Sparse.get_set_self _ _ _ _
theorem State.ctx_setCtx (s : State) (k : Nat) (v : Ctx) (j : Nat) : (s.setCtx k v).ctx j = if j = k then v else s.ctx j :=
  Sparse.get_set _ _ _ _ _
@[simp] theorem State.ctx_setCtx_self (s : State) (k : Nat) (v : Ctx) : (s.setCtx k v).ctx k = v := Sparse.get_set_self _ _ _ _
theorem State.table_setTable (s : State) (k : Nat) (v : Table) (j : Nat) : (s.setTable k v).table j = if j = k then v else s.table j :=
  Sparse.get_set _ _ _ _ _
@[simp] theorem State.table_setTable_self (s : State) (k : Nat) (v : Table) : (s.setTable k v).table k = v := Sparse.get_set_self _ _ _ _
theorem State.quill_setQuill (s : State) (k : Nat) (v : QuillSt) (j : Nat) : (s.setQuill k v).quill j = if j = k then v else s.quill j :=
  Sparse.get_set _ _ _ _ _
@[simp] theorem State.quill_setQuill_self (s : State) (k : Nat) (v : QuillSt) : (s.setQuill k v).quill k = v := Sparse.get_set_self _ _ _ _
theorem State.object_setObject (s : State) (k : Nat) (v : Obj) (j : Nat) : (s.setObject k v).object j = if j = k then v else s.object j :=
  Sparse.get_set _ _ _ _ _
@[simp] theorem State.object_setObject_self (s : State) (k : Nat) (v : Obj) : (s.setObject k v).object k = v := Sparse.get_set_self _ _ _ _
theorem State.sched_setSched (s : State) (k : Nat) (v : Sched) (j : Nat) : (s.setSched k v).sched j = if j = k then v else s.sched j :=
  Sparse.get_set _ _ _ _ _
@[simp] theorem State.sched_setSched_self (s : State) (k : Nat) (v : Sched) : (s.setSched k v).sched k = v := Sparse.get_set_self _ _ _ _
theorem State.slot_setSlot (s : State) (k : Nat) (v : BasisSlot) (j : Nat) : (s.setSlot k v).slot j = if j = k then v else s.slot j :=
  Sparse.get_set _ _ _ _ _
@[simp] theorem State.slot_setSlot_self (s : State) (k : Nat) (v : BasisSlot) : (s.setSlot k v).slot k = v := Sparse.get_set_self _ _ _ _
theorem State.batch_setBatch (s : State) (k : Nat) (v : Batch) (j : Nat) : (s.setBatch k v).batch j = if j = k then v else s.batch j :=
  Sparse.get_set _ _ _ _ _
@[simp] theorem State.batch_setBatch_self (s : State) (k : Nat) (v : Batch) : (s.setBatch k v).batch k = v := Sparse.get_set_self _ _ _ _
theorem State.region_setRegion (s : State) (k : Nat) (v : Option Region) (j : Nat) : (s.setRegion k v).region j = if j = k then v else s.region j :=
  Sparse.get_set _ _ _ _ _
@[simp] theorem State.region_setRegion_self (s : State) (k : Nat) (v : Option Region) : (s.setRegion k v).region k = v := Sparse.get_set_self _ _ _ _
theorem State.meter_setMeter (s : State) (k : Nat) (v : MeterSt) (j : Nat) : (s.setMeter k v).meter j = if j = k then v else s.meter j :=
  Sparse.get_set _ _ _ _ _
@[simp] theorem State.meter_setMeter_self (s : State) (k : Nat) (v : MeterSt) : (s.setMeter k v).meter k = v := Sparse.get_set_self _ _ _ _
theorem State.unit_setUnit (s : State) (k : Nat) (v : UnitSt) (j : Nat) : (s.setUnit k v).unit j = if j = k then v else s.unit j :=
  Sparse.get_set _ _ _ _ _
@[simp] theorem State.unit_setUnit_self (s : State) (k : Nat) (v : UnitSt) : (s.setUnit k v).unit k = v := Sparse.get_set_self _ _ _ _
theorem State.hrb_setHrb (s : State) (k : Nat) (v : Hrb) (j : Nat) : (s.setHrb k v).hrb j = if j = k then v else s.hrb j :=
  Sparse.get_set _ _ _ _ _
@[simp] theorem State.hrb_setHrb_self (s : State) (k : Nat) (v : Hrb) : (s.setHrb k v).hrb k = v := Sparse.get_set_self _ _ _ _
theorem State.hostP_setHostP (s : State) (k : Nat) (v : HostSt) (j : Nat) : (s.setHostP k v).hostP j = if j = k then v else s.hostP j :=
  Sparse.get_set _ _ _ _ _
@[simp] theorem State.hostP_setHostP_self (s : State) (k : Nat) (v : HostSt) : (s.setHostP k v).hostP k = v := Sparse.get_set_self _ _ _ _
theorem State.mac_setMac (s : State) (k : Nat) (v : Macsec) (j : Nat) : (s.setMac k v).mac j = if j = k then v else s.mac j :=
  Sparse.get_set _ _ _ _ _
@[simp] theorem State.mac_setMac_self (s : State) (k : Nat) (v : Macsec) : (s.setMac k v).mac k = v := Sparse.get_set_self _ _ _ _
theorem State.strag_setStrag (s : State) (k : Nat) (v : Strag) (j : Nat) : (s.setStrag k v).strag j = if j = k then v else s.strag j :=
  Sparse.get_set _ _ _ _ _
@[simp] theorem State.strag_setStrag_self (s : State) (k : Nat) (v : Strag) : (s.setStrag k v).strag k = v := Sparse.get_set_self _ _ _ _
theorem State.inputQ_setInputQ (s : State) (k : Nat) (v : List Held) (j : Nat) : (s.setInputQ k v).inputQ j = if j = k then v else s.inputQ j :=
  Sparse.get_set _ _ _ _ _
@[simp] theorem State.inputQ_setInputQ_self (s : State) (k : Nat) (v : List Held) : (s.setInputQ k v).inputQ k = v := Sparse.get_set_self _ _ _ _

/-- A written object leaves every other object as it was. -/
theorem State.o_setO_ne (s : State) {k j : Nat} (v : Nat) (h : j ≠ k) : (s.setO k v).o j = s.o j := Sparse.get_set_ne _ _ _ _ h
theorem State.b_setB_ne (s : State) {k j : Nat} (v : List Byte) (h : j ≠ k) : (s.setB k v).b j = s.b j := Sparse.get_set_ne _ _ _ _ h

@[simp] theorem State.modPort_self (s : State) (p : Nat) (f : PortSt → PortSt) : (s.modPort p f).port p = f (s.port p) := by
  simp [State.modPort]
theorem State.port_modPort_ne (s : State) {p j : Nat} (f : PortSt → PortSt) (h : j ≠ p) : (s.modPort p f).port j = s.port j :=
  Sparse.get_set_ne _ _ _ _ h
@[simp] theorem State.modPart_self (s : State) (p : Nat) (f : Partition → Partition) : (s.modPart p f).part p = f (s.part p) := by
  simp [State.modPart]
theorem State.part_modPart_ne (s : State) {p j : Nat} (f : Partition → Partition) (h : j ≠ p) :
    (s.modPart p f).part j = s.part j := Sparse.get_set_ne _ _ _ _ h
@[simp] theorem State.c_bump_self (s : State) (k n : Nat) : (s.bump k n).c k = (s.c k + n) % 2 ^ 64 := by simp [State.bump]
theorem State.c_bump_ne (s : State) {k j : Nat} (n : Nat) (h : j ≠ k) : (s.bump k n).c j = s.c j := Sparse.get_set_ne _ _ _ _ h

end Sys2Proof.Machine
end

