-- ==== Sys2Proof/Laws/Events.lean ====
section
/-! SUPPORT. All that raising an event and completing a request can change: raising writes sessions, what is sent, counters,
limits, the log and the HRB pins; completing also puts packets in an ingress queue. Every other field stays. -/

set_option linter.unusedVariables false
set_option linter.unusedSimpArgs false

namespace Sys2Proof.Machine
@[simp] theorem noEvents_mk x0 x1 x2 x3 x4 x5 x6 x7 x8 x9 x10 x11 x12 x13 x14 x15 x16 x17 x18 x19 x20 x21 x22 x23 x24 x25 x26
    x27 x28 x29 x30 x31 x32 x33 x34 x35 x36 x37 x38 x39 x40 x41 x42 x43 x44 x45 x46 x47 x48 x49 x50 x51 x52 x53 x54 x55 x56 x57
    x58 x59 x60 x61 x62 x63 x64 x65 x66 x67 x68 x69 x70 x71 x72 x73 x74 x75 x76 x77 x78 x79 x80 x81 x82 x83 x84 x85 x86 x87 x88
    : (State.mk x0 x1 x2 x3 x4 x5 x6 x7 x8 x9 x10 x11 x12 x13 x14 x15 x16 x17 x18 x19 x20 x21 x22 x23 x24 x25 x26 x27 x28 x29
    x30 x31 x32 x33 x34 x35 x36 x37 x38 x39 x40 x41 x42 x43 x44 x45 x46 x47 x48 x49 x50 x51 x52 x53 x54 x55 x56 x57 x58 x59 x60
    x61 x62 x63 x64 x65 x66 x67 x68 x69 x70 x71 x72 x73 x74 x75 x76 x77 x78 x79 x80 x81 x82 x83 x84 x85 x86 x87 x88).noEvents =
    State.mk (x0) (x1) (x2) (x3) (x4) ([]) (x6) ([]) (x8) (x9) ([]) (x11) (x12) (x13) (x14) (x15) (x16) (x17) (x18) (x19) (x20)
    (x21) (x22) (x23) (x24) (x25) (x26) (x27) (x28) (x29) (x30) (x31) (x32) (x33) (x34) (x35) (x36) (x37) (x38) (x39) (x40)
    (x41) (x42) (x43) (x44) (x45) (x46) (x47) (x48) (x49) (x50) (x51) (x52) (x53) (x54) (x55) (x56) (x57) (x58) (x59) (x60)
    (x61) (x62) (x63) (x64) (x65) (x66) (x67) (x68) (x69) (x70) (x71) (x72) (x73) (x74) (x75) (x76) (x77) (x78) (x79) ([])
    (x81) (x82) (x83) (x84) ([]) ({ x86 with log := [], logNext := 0, toPersist := [], persistIv := 0, persistN := 0 }) (x87)
    (x88) := (rfl)
@[simp] theorem noEvents_fold (s : State) : State.mk (s.pending) (s.time) (s.timebase) (s.obj) (s.blob) ([]) (s.qos) ([])
    (s.serial) (s.free) ([]) (s.ports) (s.keys) (s.kx) (s.rawOut) (s.epPrev) (s.epTime) (s.slot0) (s.slot1) (s.ligs) (s.inq)
    (s.spine) (s.spinePtr) (s.outs) (s.meters) (s.holds) (s.draws) (s.notices) (s.asm) (s.badMsgs) (s.delivered) (s.tags)
    (s.late) (s.journal) (s.ligRecs) (s.opRecs) (s.mem) (s.poison) (s.domains) (s.dir) (s.txns) (s.cohWait) (s.folios)
    (s.reissues) (s.regions) (s.vloads) (s.waitPubs) (s.ctxs) (s.chunks) (s.tables) (s.quills) (s.objects) (s.moves) (s.moveQ)
    (s.transitWait) (s.scheds) (s.pfPool) (s.slots) (s.basisJobs) (s.encJobs) (s.expanders) (s.expResps) (s.batches) (s.parts)
    (s.macsec) (s.units) (s.standIn) (s.dumap) (s.watches) (s.hbSeq) (s.hbHeard) (s.dead) (s.alive) (s.fences) (s.fepoch)
    (s.members) (s.mepoch) (s.staged) (s.grandfathered) (s.strags) ([]) (s.loader) (s.oprCred) (s.refused) (s.hostSt) ([]) ({
    s.scribe with log := [], logNext := 0, toPersist := [], persistIv := 0, persistN := 0 }) (s.power) (s.snap) = s.noEvents :=
    (rfl)
@[simp] theorem foldl_noEvents {α : Type} (f : State → α → State) (h : ∀ s a, (f s a).noEvents = s.noEvents) (l : List α) (s :
    State) : (l.foldl f s).noEvents = s.noEvents := by
  induction l generalizing s with
  | nil => rfl
  | cons a l ih => simp [ih, h]
@[simp] theorem ite_noEvents (c : Prop) [Decidable c] (a b : State) : (if c then a else b).noEvents = if c then a.noEvents else
    b.noEvents := by
  split <;> rfl

@[simp] theorem State.setC_noEvents (s : State) (k v : Nat) : (State.setC s k v).noEvents = s.noEvents := rfl
@[simp] theorem State.bump_noEvents (s : State) (k n : Nat) : (State.bump s k n).noEvents = s.noEvents := by simp [State.bump]
@[simp] theorem State.setHrb_noEvents (s : State) (h : Nat) (v : Hrb) : (State.setHrb s h v).noEvents = s.noEvents := rfl
@[simp] theorem State.emit_noEvents (s : State) (o : Out) : (State.emit s o).noEvents = s.noEvents := rfl
@[simp] theorem State.firstIn_noEvents (s : State) (span what unit : Nat) : (s.firstIn span what unit).2.noEvents = s.noEvents
    := by
  unfold State.firstIn; dsimp only; split <;> rfl
@[simp] theorem endSession_noEvents (s : State) (sid : BitVec 16) : (endSession s sid).noEvents = s.noEvents := rfl
@[simp] theorem State.setSession_noEvents (s : State) (v : Session) : (State.setSession s v).noEvents = s.noEvents := rfl
@[simp] theorem dictSend_noEvents (s : State) (v : Session) (m : DMsg) : (dictSend s v m).noEvents = s.noEvents := by
  simp [dictSend]
@[simp] theorem hrbAttention_noEvents (s : State) (h : Nat) : (hrbAttention s h).noEvents = s.noEvents := by simp [hrbAttention]
@[simp] theorem offer_noEvents (e : Event) (s : State) (sid : BitVec 16) : (offer e s sid).noEvents = s.noEvents := by
  unfold offer; (repeat' split) <;> simp
@[simp] theorem attend_noEvents (before : Nat) (s : State) (h : Nat) : (attend before s h).noEvents = s.noEvents := by
  simp [attend]
@[simp] theorem deliverEvent_noEvents (s : State) (e : Event) (only : Session → Bool) : (deliverEvent s e only).noEvents =
    s.noEvents := by
  simp [deliverEvent]
theorem noEvents_log (s : State) (l : List LogRec) (n : BitVec 32) :
    ({ s with scribe := { s.scribe with log := l, logNext := n } } : State).noEvents = s.noEvents := rfl
@[simp] theorem logAppend_noEvents (s : State) (e : Event) : (logAppend s e).noEvents = s.noEvents := noEvents_log s _ _
@[simp] theorem markPersist_noEvents (s : State) (n : BitVec 32) : (markPersist s n).2.noEvents = s.noEvents := by
  unfold markPersist; dsimp only; (repeat' split) <;> rfl
@[simp] theorem raiseOnce_noEvents (s : State) (c p : Nat) (l : List (Nat × Nat)) (o : Session → Bool) : (raiseOnce s c p l
    o).2.noEvents = s.noEvents := by
  unfold raiseOnce; extract_lets e no s1 r
  have h : r.2.noEvents = s.noEvents := by simp only [r, s1]; split <;> simp
  simp [h]
@[simp] theorem raiseTo_noEvents (s : State) (code epart : Nat) (items : List (Nat × Nat)) (only : Session → Bool) : (raiseTo s
    code epart items only).noEvents = s.noEvents := by
  simp [raiseTo]
@[simp] theorem raise_noEvents (s : State) (code epart : Nat) (items : List (Nat × Nat)) : (raise s code epart items).noEvents
    = s.noEvents := by
  simp [raise]
@[simp] theorem raiseLimited_noEvents (s : State) (span unit code epart : Nat) (items : List (Nat × Nat)) : (raiseLimited s
    span unit code epart items).noEvents = s.noEvents := by
  simp [raiseLimited]

theorem noEvents_fields {a b : State} (h : a.noEvents = b.noEvents) :
    a.pending = b.pending ∧ a.time = b.time ∧ a.timebase = b.timebase ∧ a.obj = b.obj ∧ a.blob = b.blob ∧ a.qos = b.qos ∧
    a.serial = b.serial ∧ a.free = b.free ∧ a.ports = b.ports ∧ a.keys = b.keys ∧ a.kx = b.kx ∧ a.rawOut = b.rawOut ∧
    a.epPrev = b.epPrev ∧ a.epTime = b.epTime ∧ a.slot0 = b.slot0 ∧ a.slot1 = b.slot1 ∧ a.ligs = b.ligs ∧ a.inq = b.inq ∧
    a.spine = b.spine ∧ a.spinePtr = b.spinePtr ∧ a.outs = b.outs ∧ a.meters = b.meters ∧ a.holds = b.holds ∧
    a.draws = b.draws ∧ a.notices = b.notices ∧ a.asm = b.asm ∧ a.badMsgs = b.badMsgs ∧ a.delivered = b.delivered ∧
    a.tags = b.tags ∧ a.late = b.late ∧ a.journal = b.journal ∧ a.ligRecs = b.ligRecs ∧ a.opRecs = b.opRecs ∧ a.mem = b.mem ∧
    a.poison = b.poison ∧ a.domains = b.domains ∧ a.dir = b.dir ∧ a.txns = b.txns ∧ a.cohWait = b.cohWait ∧
    a.folios = b.folios ∧ a.reissues = b.reissues ∧ a.regions = b.regions ∧ a.vloads = b.vloads ∧ a.waitPubs = b.waitPubs ∧
    a.ctxs = b.ctxs ∧ a.chunks = b.chunks ∧ a.tables = b.tables ∧ a.quills = b.quills ∧ a.objects = b.objects ∧
    a.moves = b.moves ∧ a.moveQ = b.moveQ ∧ a.transitWait = b.transitWait ∧ a.scheds = b.scheds ∧ a.pfPool = b.pfPool ∧
    a.slots = b.slots ∧ a.basisJobs = b.basisJobs ∧ a.encJobs = b.encJobs ∧ a.expanders = b.expanders ∧
    a.expResps = b.expResps ∧ a.batches = b.batches ∧ a.parts = b.parts ∧ a.macsec = b.macsec ∧ a.units = b.units ∧
    a.standIn = b.standIn ∧ a.dumap = b.dumap ∧ a.watches = b.watches ∧ a.hbSeq = b.hbSeq ∧ a.hbHeard = b.hbHeard ∧
    a.dead = b.dead ∧ a.alive = b.alive ∧ a.fences = b.fences ∧ a.fepoch = b.fepoch ∧ a.members = b.members ∧
    a.mepoch = b.mepoch ∧ a.staged = b.staged ∧ a.grandfathered = b.grandfathered ∧ a.strags = b.strags ∧ a.loader = b.loader ∧
    a.oprCred = b.oprCred ∧ a.refused = b.refused ∧ a.hostSt = b.hostSt ∧ a.power = b.power ∧ a.snap = b.snap ∧
    a.scribe.st = b.scribe.st ∧ a.scribe.bootCount = b.scribe.bootCount ∧ a.scribe.lastRestart = b.scribe.lastRestart ∧
    a.scribe.pIn = b.scribe.pIn ∧ a.scribe.vIn = b.scribe.vIn ∧ a.scribe.iIn = b.scribe.iIn ∧ a.scribe.tHot = b.scribe.tHot ∧
    a.scribe.tHotSite = b.scribe.tHotSite ∧ a.scribe.diodes = b.scribe.diodes ∧ a.scribe.stackT = b.scribe.stackT ∧
    a.scribe.coolIn = b.scribe.coolIn ∧ a.scribe.coolOut = b.scribe.coolOut ∧ a.scribe.tach0 = b.scribe.tach0 ∧
    a.scribe.tach1 = b.scribe.tach1 ∧ a.scribe.rails = b.scribe.rails ∧ a.scribe.energy = b.scribe.energy ∧
    a.scribe.pHeld = b.scribe.pHeld ∧ a.scribe.tHeld = b.scribe.tHeld ∧ a.scribe.invalid = b.scribe.invalid ∧
    a.scribe.demand = b.scribe.demand ∧ a.scribe.integral = b.scribe.integral ∧ a.scribe.pumpDuty = b.scribe.pumpDuty ∧
    a.scribe.valveDuty = b.scribe.valveDuty ∧ a.scribe.upMs = b.scribe.upMs ∧ a.scribe.inletHigh = b.scribe.inletHigh ∧
    a.scribe.tachLow = b.scribe.tachLow ∧ a.scribe.divisor = b.scribe.divisor ∧ a.scribe.tempDiv = b.scribe.tempDiv ∧
    a.scribe.powDiv = b.scribe.powDiv ∧ a.scribe.powHigh = b.scribe.powHigh ∧ a.scribe.tripped = b.scribe.tripped ∧
    a.scribe.tripLow = b.scribe.tripLow ∧ a.scribe.linkA = b.scribe.linkA ∧ a.scribe.linkB = b.scribe.linkB ∧
    a.scribe.bypass = b.scribe.bypass ∧ a.scribe.plog = b.scribe.plog ∧ a.scribe.plogNext = b.scribe.plogNext ∧
    a.scribe.fwSt = b.scribe.fwSt ∧ a.scribe.fwResult = b.scribe.fwResult ∧ a.scribe.staging = b.scribe.staging ∧
    a.scribe.flash = b.scribe.flash ∧ a.scribe.fwVer = b.scribe.fwVer ∧ a.scribe.fwSvn = b.scribe.fwSvn ∧
    a.scribe.fwDigest = b.scribe.fwDigest ∧ a.scribe.rollback = b.scribe.rollback ∧ a.scribe.recovered = b.scribe.recovered :=
  have g : ∀ {β : Type} (f : State → β), f a.noEvents = f b.noEvents := fun f => congrArg f h;
    ⟨g State.pending, g State.time, g State.timebase, g State.obj, g State.blob, g State.qos, g State.serial, g State.free,
    g State.ports, g State.keys, g State.kx, g State.rawOut, g State.epPrev, g State.epTime, g State.slot0, g State.slot1,
    g State.ligs, g State.inq, g State.spine, g State.spinePtr, g State.outs, g State.meters, g State.holds, g State.draws,
    g State.notices, g State.asm, g State.badMsgs, g State.delivered, g State.tags, g State.late, g State.journal,
    g State.ligRecs, g State.opRecs, g State.mem, g State.poison, g State.domains, g State.dir, g State.txns,
    g State.cohWait, g State.folios, g State.reissues, g State.regions, g State.vloads, g State.waitPubs, g State.ctxs,
    g State.chunks, g State.tables, g State.quills, g State.objects, g State.moves, g State.moveQ, g State.transitWait,
    g State.scheds, g State.pfPool, g State.slots, g State.basisJobs, g State.encJobs, g State.expanders, g State.expResps,
    g State.batches, g State.parts, g State.macsec, g State.units, g State.standIn, g State.dumap, g State.watches,
    g State.hbSeq, g State.hbHeard, g State.dead, g State.alive, g State.fences, g State.fepoch, g State.members,
    g State.mepoch, g State.staged, g State.grandfathered, g State.strags, g State.loader, g State.oprCred, g State.refused,
    g State.hostSt, g State.power, g State.snap, g (fun x => x.scribe.st), g (fun x => x.scribe.bootCount),
    g (fun x => x.scribe.lastRestart), g (fun x => x.scribe.pIn), g (fun x => x.scribe.vIn), g (fun x => x.scribe.iIn),
    g (fun x => x.scribe.tHot), g (fun x => x.scribe.tHotSite), g (fun x => x.scribe.diodes), g (fun x => x.scribe.stackT),
    g (fun x => x.scribe.coolIn), g (fun x => x.scribe.coolOut), g (fun x => x.scribe.tach0), g (fun x => x.scribe.tach1),
    g (fun x => x.scribe.rails), g (fun x => x.scribe.energy), g (fun x => x.scribe.pHeld), g (fun x => x.scribe.tHeld),
    g (fun x => x.scribe.invalid), g (fun x => x.scribe.demand), g (fun x => x.scribe.integral),
    g (fun x => x.scribe.pumpDuty), g (fun x => x.scribe.valveDuty), g (fun x => x.scribe.upMs),
    g (fun x => x.scribe.inletHigh), g (fun x => x.scribe.tachLow), g (fun x => x.scribe.divisor),
    g (fun x => x.scribe.tempDiv), g (fun x => x.scribe.powDiv), g (fun x => x.scribe.powHigh),
    g (fun x => x.scribe.tripped), g (fun x => x.scribe.tripLow), g (fun x => x.scribe.linkA), g (fun x => x.scribe.linkB),
    g (fun x => x.scribe.bypass), g (fun x => x.scribe.plog), g (fun x => x.scribe.plogNext), g (fun x => x.scribe.fwSt),
    g (fun x => x.scribe.fwResult), g (fun x => x.scribe.staging), g (fun x => x.scribe.flash), g (fun x => x.scribe.fwVer),
    g (fun x => x.scribe.fwSvn), g (fun x => x.scribe.fwDigest), g (fun x => x.scribe.rollback),
    g (fun x => x.scribe.recovered)⟩

@[simp] theorem raise_frame (s : State) (code epart : Nat) (items : List (Nat × Nat)) :
    (raise s code epart items).pending = s.pending ∧ (raise s code epart items).time = s.time ∧
    (raise s code epart items).timebase = s.timebase ∧ (raise s code epart items).obj = s.obj ∧
    (raise s code epart items).blob = s.blob ∧ (raise s code epart items).qos = s.qos ∧
    (raise s code epart items).serial = s.serial ∧ (raise s code epart items).free = s.free ∧
    (raise s code epart items).ports = s.ports ∧ (raise s code epart items).keys = s.keys ∧
    (raise s code epart items).kx = s.kx ∧ (raise s code epart items).rawOut = s.rawOut ∧
    (raise s code epart items).epPrev = s.epPrev ∧ (raise s code epart items).epTime = s.epTime ∧
    (raise s code epart items).slot0 = s.slot0 ∧ (raise s code epart items).slot1 = s.slot1 ∧
    (raise s code epart items).ligs = s.ligs ∧ (raise s code epart items).inq = s.inq ∧
    (raise s code epart items).spine = s.spine ∧ (raise s code epart items).spinePtr = s.spinePtr ∧
    (raise s code epart items).outs = s.outs ∧ (raise s code epart items).meters = s.meters ∧
    (raise s code epart items).holds = s.holds ∧ (raise s code epart items).draws = s.draws ∧
    (raise s code epart items).notices = s.notices ∧ (raise s code epart items).asm = s.asm ∧
    (raise s code epart items).badMsgs = s.badMsgs ∧ (raise s code epart items).delivered = s.delivered ∧
    (raise s code epart items).tags = s.tags ∧ (raise s code epart items).late = s.late ∧
    (raise s code epart items).journal = s.journal ∧ (raise s code epart items).ligRecs = s.ligRecs ∧
    (raise s code epart items).opRecs = s.opRecs ∧ (raise s code epart items).mem = s.mem ∧
    (raise s code epart items).poison = s.poison ∧ (raise s code epart items).domains = s.domains ∧
    (raise s code epart items).dir = s.dir ∧ (raise s code epart items).txns = s.txns ∧
    (raise s code epart items).cohWait = s.cohWait ∧ (raise s code epart items).folios = s.folios ∧
    (raise s code epart items).reissues = s.reissues ∧ (raise s code epart items).regions = s.regions ∧
    (raise s code epart items).vloads = s.vloads ∧ (raise s code epart items).waitPubs = s.waitPubs ∧
    (raise s code epart items).ctxs = s.ctxs ∧ (raise s code epart items).chunks = s.chunks ∧
    (raise s code epart items).tables = s.tables ∧ (raise s code epart items).quills = s.quills ∧
    (raise s code epart items).objects = s.objects ∧ (raise s code epart items).moves = s.moves ∧
    (raise s code epart items).moveQ = s.moveQ ∧ (raise s code epart items).transitWait = s.transitWait ∧
    (raise s code epart items).scheds = s.scheds ∧ (raise s code epart items).pfPool = s.pfPool ∧
    (raise s code epart items).slots = s.slots ∧ (raise s code epart items).basisJobs = s.basisJobs ∧
    (raise s code epart items).encJobs = s.encJobs ∧ (raise s code epart items).expanders = s.expanders ∧
    (raise s code epart items).expResps = s.expResps ∧ (raise s code epart items).batches = s.batches ∧
    (raise s code epart items).parts = s.parts ∧ (raise s code epart items).macsec = s.macsec ∧
    (raise s code epart items).units = s.units ∧ (raise s code epart items).standIn = s.standIn ∧
    (raise s code epart items).dumap = s.dumap ∧ (raise s code epart items).watches = s.watches ∧
    (raise s code epart items).hbSeq = s.hbSeq ∧ (raise s code epart items).hbHeard = s.hbHeard ∧
    (raise s code epart items).dead = s.dead ∧ (raise s code epart items).alive = s.alive ∧
    (raise s code epart items).fences = s.fences ∧ (raise s code epart items).fepoch = s.fepoch ∧
    (raise s code epart items).members = s.members ∧ (raise s code epart items).mepoch = s.mepoch ∧
    (raise s code epart items).staged = s.staged ∧ (raise s code epart items).grandfathered = s.grandfathered ∧
    (raise s code epart items).strags = s.strags ∧ (raise s code epart items).loader = s.loader ∧
    (raise s code epart items).oprCred = s.oprCred ∧ (raise s code epart items).refused = s.refused ∧
    (raise s code epart items).hostSt = s.hostSt ∧ (raise s code epart items).power = s.power ∧
    (raise s code epart items).snap = s.snap ∧ (raise s code epart items).scribe.st = s.scribe.st ∧
    (raise s code epart items).scribe.bootCount = s.scribe.bootCount ∧
    (raise s code epart items).scribe.lastRestart = s.scribe.lastRestart ∧
    (raise s code epart items).scribe.pIn = s.scribe.pIn ∧ (raise s code epart items).scribe.vIn = s.scribe.vIn ∧
    (raise s code epart items).scribe.iIn = s.scribe.iIn ∧ (raise s code epart items).scribe.tHot = s.scribe.tHot ∧
    (raise s code epart items).scribe.tHotSite = s.scribe.tHotSite ∧
    (raise s code epart items).scribe.diodes = s.scribe.diodes ∧ (raise s code epart items).scribe.stackT = s.scribe.stackT ∧
    (raise s code epart items).scribe.coolIn = s.scribe.coolIn ∧ (raise s code epart items).scribe.coolOut = s.scribe.coolOut ∧
    (raise s code epart items).scribe.tach0 = s.scribe.tach0 ∧ (raise s code epart items).scribe.tach1 = s.scribe.tach1 ∧
    (raise s code epart items).scribe.rails = s.scribe.rails ∧ (raise s code epart items).scribe.energy = s.scribe.energy ∧
    (raise s code epart items).scribe.pHeld = s.scribe.pHeld ∧ (raise s code epart items).scribe.tHeld = s.scribe.tHeld ∧
    (raise s code epart items).scribe.invalid = s.scribe.invalid ∧ (raise s code epart items).scribe.demand = s.scribe.demand ∧
    (raise s code epart items).scribe.integral = s.scribe.integral ∧
    (raise s code epart items).scribe.pumpDuty = s.scribe.pumpDuty ∧
    (raise s code epart items).scribe.valveDuty = s.scribe.valveDuty ∧ (raise s code epart items).scribe.upMs = s.scribe.upMs ∧
    (raise s code epart items).scribe.inletHigh = s.scribe.inletHigh ∧
    (raise s code epart items).scribe.tachLow = s.scribe.tachLow ∧
    (raise s code epart items).scribe.divisor = s.scribe.divisor ∧
    (raise s code epart items).scribe.tempDiv = s.scribe.tempDiv ∧ (raise s code epart items).scribe.powDiv = s.scribe.powDiv ∧
    (raise s code epart items).scribe.powHigh = s.scribe.powHigh ∧
    (raise s code epart items).scribe.tripped = s.scribe.tripped ∧
    (raise s code epart items).scribe.tripLow = s.scribe.tripLow ∧ (raise s code epart items).scribe.linkA = s.scribe.linkA ∧
    (raise s code epart items).scribe.linkB = s.scribe.linkB ∧ (raise s code epart items).scribe.bypass = s.scribe.bypass ∧
    (raise s code epart items).scribe.plog = s.scribe.plog ∧ (raise s code epart items).scribe.plogNext = s.scribe.plogNext ∧
    (raise s code epart items).scribe.fwSt = s.scribe.fwSt ∧ (raise s code epart items).scribe.fwResult = s.scribe.fwResult ∧
    (raise s code epart items).scribe.staging = s.scribe.staging ∧ (raise s code epart items).scribe.flash = s.scribe.flash ∧
    (raise s code epart items).scribe.fwVer = s.scribe.fwVer ∧ (raise s code epart items).scribe.fwSvn = s.scribe.fwSvn ∧
    (raise s code epart items).scribe.fwDigest = s.scribe.fwDigest ∧
    (raise s code epart items).scribe.rollback = s.scribe.rollback ∧
    (raise s code epart items).scribe.recovered = s.scribe.recovered :=
  noEvents_fields (raise_noEvents s code epart items)

@[simp] theorem raise_reads (s : State) (code epart : Nat) (items : List (Nat × Nat)) :
    (∀ j, (raise s code epart items).o j = s.o j) ∧ (∀ j, (raise s code epart items).b j = s.b j) ∧
    (∀ j, (raise s code epart items).port j = s.port j) ∧ (∀ j, (raise s code epart items).outSt j = s.outSt j) ∧
    (∀ j, (raise s code epart items).part j = s.part j) ∧ (∀ j, (raise s code epart items).folio j = s.folio j) ∧
    (∀ j, (raise s code epart items).domain j = s.domain j) ∧ (∀ j, (raise s code epart items).ctx j = s.ctx j) ∧
    (∀ j, (raise s code epart items).table j = s.table j) ∧ (∀ j, (raise s code epart items).quill j = s.quill j) ∧
    (∀ j, (raise s code epart items).object j = s.object j) ∧ (∀ j, (raise s code epart items).sched j = s.sched j) ∧
    (∀ j, (raise s code epart items).slot j = s.slot j) ∧ (∀ j, (raise s code epart items).batch j = s.batch j) ∧
    (∀ j, (raise s code epart items).region j = s.region j) ∧ (∀ j, (raise s code epart items).meter j = s.meter j) ∧
    (∀ j, (raise s code epart items).unit j = s.unit j) ∧ (∀ j, (raise s code epart items).hostP j = s.hostP j) ∧
    (∀ j, (raise s code epart items).mac j = s.mac j) ∧ (∀ j, (raise s code epart items).strag j = s.strag j) ∧
    (∀ j, (raise s code epart items).inputQ j = s.inputQ j) ∧ (∀ j, (raise s code epart items).routeSlot j = s.routeSlot j) ∧
    (∀ i j l, (raise s code epart items).key i j l = s.key i j l) := by
  and_intros <;> intros <;> simp [State.o, State.b, State.port, State.outSt, State.part, State.folio, State.domain, State.ctx,
    State.table, State.quill, State.object, State.sched, State.slot, State.batch, State.region, State.meter, State.unit,
    State.hostP, State.mac, State.strag, State.inputQ, State.routeSlot, State.key]

@[simp] theorem raiseTo_frame (s : State) (code epart : Nat) (items : List (Nat × Nat)) (only : Session → Bool) :
    (raiseTo s code epart items only).pending = s.pending ∧ (raiseTo s code epart items only).time = s.time ∧
    (raiseTo s code epart items only).timebase = s.timebase ∧ (raiseTo s code epart items only).obj = s.obj ∧
    (raiseTo s code epart items only).blob = s.blob ∧ (raiseTo s code epart items only).qos = s.qos ∧
    (raiseTo s code epart items only).serial = s.serial ∧ (raiseTo s code epart items only).free = s.free ∧
    (raiseTo s code epart items only).ports = s.ports ∧ (raiseTo s code epart items only).keys = s.keys ∧
    (raiseTo s code epart items only).kx = s.kx ∧ (raiseTo s code epart items only).rawOut = s.rawOut ∧
    (raiseTo s code epart items only).epPrev = s.epPrev ∧ (raiseTo s code epart items only).epTime = s.epTime ∧
    (raiseTo s code epart items only).slot0 = s.slot0 ∧ (raiseTo s code epart items only).slot1 = s.slot1 ∧
    (raiseTo s code epart items only).ligs = s.ligs ∧ (raiseTo s code epart items only).inq = s.inq ∧
    (raiseTo s code epart items only).spine = s.spine ∧ (raiseTo s code epart items only).spinePtr = s.spinePtr ∧
    (raiseTo s code epart items only).outs = s.outs ∧ (raiseTo s code epart items only).meters = s.meters ∧
    (raiseTo s code epart items only).holds = s.holds ∧ (raiseTo s code epart items only).draws = s.draws ∧
    (raiseTo s code epart items only).notices = s.notices ∧ (raiseTo s code epart items only).asm = s.asm ∧
    (raiseTo s code epart items only).badMsgs = s.badMsgs ∧ (raiseTo s code epart items only).delivered = s.delivered ∧
    (raiseTo s code epart items only).tags = s.tags ∧ (raiseTo s code epart items only).late = s.late ∧
    (raiseTo s code epart items only).journal = s.journal ∧ (raiseTo s code epart items only).ligRecs = s.ligRecs ∧
    (raiseTo s code epart items only).opRecs = s.opRecs ∧ (raiseTo s code epart items only).mem = s.mem ∧
    (raiseTo s code epart items only).poison = s.poison ∧ (raiseTo s code epart items only).domains = s.domains ∧
    (raiseTo s code epart items only).dir = s.dir ∧ (raiseTo s code epart items only).txns = s.txns ∧
    (raiseTo s code epart items only).cohWait = s.cohWait ∧ (raiseTo s code epart items only).folios = s.folios ∧
    (raiseTo s code epart items only).reissues = s.reissues ∧ (raiseTo s code epart items only).regions = s.regions ∧
    (raiseTo s code epart items only).vloads = s.vloads ∧ (raiseTo s code epart items only).waitPubs = s.waitPubs ∧
    (raiseTo s code epart items only).ctxs = s.ctxs ∧ (raiseTo s code epart items only).chunks = s.chunks ∧
    (raiseTo s code epart items only).tables = s.tables ∧ (raiseTo s code epart items only).quills = s.quills ∧
    (raiseTo s code epart items only).objects = s.objects ∧ (raiseTo s code epart items only).moves = s.moves ∧
    (raiseTo s code epart items only).moveQ = s.moveQ ∧ (raiseTo s code epart items only).transitWait = s.transitWait ∧
    (raiseTo s code epart items only).scheds = s.scheds ∧ (raiseTo s code epart items only).pfPool = s.pfPool ∧
    (raiseTo s code epart items only).slots = s.slots ∧ (raiseTo s code epart items only).basisJobs = s.basisJobs ∧
    (raiseTo s code epart items only).encJobs = s.encJobs ∧ (raiseTo s code epart items only).expanders = s.expanders ∧
    (raiseTo s code epart items only).expResps = s.expResps ∧ (raiseTo s code epart items only).batches = s.batches ∧
    (raiseTo s code epart items only).parts = s.parts ∧ (raiseTo s code epart items only).macsec = s.macsec ∧
    (raiseTo s code epart items only).units = s.units ∧ (raiseTo s code epart items only).standIn = s.standIn ∧
    (raiseTo s code epart items only).dumap = s.dumap ∧ (raiseTo s code epart items only).watches = s.watches ∧
    (raiseTo s code epart items only).hbSeq = s.hbSeq ∧ (raiseTo s code epart items only).hbHeard = s.hbHeard ∧
    (raiseTo s code epart items only).dead = s.dead ∧ (raiseTo s code epart items only).alive = s.alive ∧
    (raiseTo s code epart items only).fences = s.fences ∧ (raiseTo s code epart items only).fepoch = s.fepoch ∧
    (raiseTo s code epart items only).members = s.members ∧ (raiseTo s code epart items only).mepoch = s.mepoch ∧
    (raiseTo s code epart items only).staged = s.staged ∧ (raiseTo s code epart items only).grandfathered = s.grandfathered ∧
    (raiseTo s code epart items only).strags = s.strags ∧ (raiseTo s code epart items only).loader = s.loader ∧
    (raiseTo s code epart items only).oprCred = s.oprCred ∧ (raiseTo s code epart items only).refused = s.refused ∧
    (raiseTo s code epart items only).hostSt = s.hostSt ∧ (raiseTo s code epart items only).power = s.power ∧
    (raiseTo s code epart items only).snap = s.snap ∧ (raiseTo s code epart items only).scribe.st = s.scribe.st ∧
    (raiseTo s code epart items only).scribe.bootCount = s.scribe.bootCount ∧
    (raiseTo s code epart items only).scribe.lastRestart = s.scribe.lastRestart ∧
    (raiseTo s code epart items only).scribe.pIn = s.scribe.pIn ∧ (raiseTo s code epart items only).scribe.vIn = s.scribe.vIn ∧
    (raiseTo s code epart items only).scribe.iIn = s.scribe.iIn ∧
    (raiseTo s code epart items only).scribe.tHot = s.scribe.tHot ∧
    (raiseTo s code epart items only).scribe.tHotSite = s.scribe.tHotSite ∧
    (raiseTo s code epart items only).scribe.diodes = s.scribe.diodes ∧
    (raiseTo s code epart items only).scribe.stackT = s.scribe.stackT ∧
    (raiseTo s code epart items only).scribe.coolIn = s.scribe.coolIn ∧
    (raiseTo s code epart items only).scribe.coolOut = s.scribe.coolOut ∧
    (raiseTo s code epart items only).scribe.tach0 = s.scribe.tach0 ∧
    (raiseTo s code epart items only).scribe.tach1 = s.scribe.tach1 ∧
    (raiseTo s code epart items only).scribe.rails = s.scribe.rails ∧
    (raiseTo s code epart items only).scribe.energy = s.scribe.energy ∧
    (raiseTo s code epart items only).scribe.pHeld = s.scribe.pHeld ∧
    (raiseTo s code epart items only).scribe.tHeld = s.scribe.tHeld ∧
    (raiseTo s code epart items only).scribe.invalid = s.scribe.invalid ∧
    (raiseTo s code epart items only).scribe.demand = s.scribe.demand ∧
    (raiseTo s code epart items only).scribe.integral = s.scribe.integral ∧
    (raiseTo s code epart items only).scribe.pumpDuty = s.scribe.pumpDuty ∧
    (raiseTo s code epart items only).scribe.valveDuty = s.scribe.valveDuty ∧
    (raiseTo s code epart items only).scribe.upMs = s.scribe.upMs ∧
    (raiseTo s code epart items only).scribe.inletHigh = s.scribe.inletHigh ∧
    (raiseTo s code epart items only).scribe.tachLow = s.scribe.tachLow ∧
    (raiseTo s code epart items only).scribe.divisor = s.scribe.divisor ∧
    (raiseTo s code epart items only).scribe.tempDiv = s.scribe.tempDiv ∧
    (raiseTo s code epart items only).scribe.powDiv = s.scribe.powDiv ∧
    (raiseTo s code epart items only).scribe.powHigh = s.scribe.powHigh ∧
    (raiseTo s code epart items only).scribe.tripped = s.scribe.tripped ∧
    (raiseTo s code epart items only).scribe.tripLow = s.scribe.tripLow ∧
    (raiseTo s code epart items only).scribe.linkA = s.scribe.linkA ∧
    (raiseTo s code epart items only).scribe.linkB = s.scribe.linkB ∧
    (raiseTo s code epart items only).scribe.bypass = s.scribe.bypass ∧
    (raiseTo s code epart items only).scribe.plog = s.scribe.plog ∧
    (raiseTo s code epart items only).scribe.plogNext = s.scribe.plogNext ∧
    (raiseTo s code epart items only).scribe.fwSt = s.scribe.fwSt ∧
    (raiseTo s code epart items only).scribe.fwResult = s.scribe.fwResult ∧
    (raiseTo s code epart items only).scribe.staging = s.scribe.staging ∧
    (raiseTo s code epart items only).scribe.flash = s.scribe.flash ∧
    (raiseTo s code epart items only).scribe.fwVer = s.scribe.fwVer ∧
    (raiseTo s code epart items only).scribe.fwSvn = s.scribe.fwSvn ∧
    (raiseTo s code epart items only).scribe.fwDigest = s.scribe.fwDigest ∧
    (raiseTo s code epart items only).scribe.rollback = s.scribe.rollback ∧
    (raiseTo s code epart items only).scribe.recovered = s.scribe.recovered :=
  noEvents_fields (raiseTo_noEvents s code epart items only)

@[simp] theorem raiseTo_reads (s : State) (code epart : Nat) (items : List (Nat × Nat)) (only : Session → Bool) :
    (∀ j, (raiseTo s code epart items only).o j = s.o j) ∧ (∀ j, (raiseTo s code epart items only).b j = s.b j) ∧
    (∀ j, (raiseTo s code epart items only).port j = s.port j) ∧ (∀ j, (raiseTo s code epart items only).outSt j = s.outSt j) ∧
    (∀ j, (raiseTo s code epart items only).part j = s.part j) ∧ (∀ j, (raiseTo s code epart items only).folio j = s.folio j) ∧
    (∀ j, (raiseTo s code epart items only).domain j = s.domain j) ∧ (∀ j, (raiseTo s code epart items only).ctx j = s.ctx j) ∧
    (∀ j, (raiseTo s code epart items only).table j = s.table j) ∧
    (∀ j, (raiseTo s code epart items only).quill j = s.quill j) ∧
    (∀ j, (raiseTo s code epart items only).object j = s.object j) ∧
    (∀ j, (raiseTo s code epart items only).sched j = s.sched j) ∧ (∀ j, (raiseTo s code epart items only).slot j = s.slot j) ∧
    (∀ j, (raiseTo s code epart items only).batch j = s.batch j) ∧
    (∀ j, (raiseTo s code epart items only).region j = s.region j) ∧
    (∀ j, (raiseTo s code epart items only).meter j = s.meter j) ∧ (∀ j, (raiseTo s code epart items only).unit j = s.unit j) ∧
    (∀ j, (raiseTo s code epart items only).hostP j = s.hostP j) ∧ (∀ j, (raiseTo s code epart items only).mac j = s.mac j) ∧
    (∀ j, (raiseTo s code epart items only).strag j = s.strag j) ∧
    (∀ j, (raiseTo s code epart items only).inputQ j = s.inputQ j) ∧
    (∀ j, (raiseTo s code epart items only).routeSlot j = s.routeSlot j) ∧
    (∀ i j l, (raiseTo s code epart items only).key i j l = s.key i j l) := by
  and_intros <;> intros <;> simp [State.o, State.b, State.port, State.outSt, State.part, State.folio, State.domain, State.ctx,
    State.table, State.quill, State.object, State.sched, State.slot, State.batch, State.region, State.meter, State.unit,
    State.hostP, State.mac, State.strag, State.inputQ, State.routeSlot, State.key]

@[simp] theorem raiseLimited_frame (s : State) (span unit code epart : Nat) (items : List (Nat × Nat)) :
    (raiseLimited s span unit code epart items).pending = s.pending ∧
    (raiseLimited s span unit code epart items).time = s.time ∧
    (raiseLimited s span unit code epart items).timebase = s.timebase ∧
    (raiseLimited s span unit code epart items).obj = s.obj ∧ (raiseLimited s span unit code epart items).blob = s.blob ∧
    (raiseLimited s span unit code epart items).qos = s.qos ∧ (raiseLimited s span unit code epart items).serial = s.serial ∧
    (raiseLimited s span unit code epart items).free = s.free ∧ (raiseLimited s span unit code epart items).ports = s.ports ∧
    (raiseLimited s span unit code epart items).keys = s.keys ∧ (raiseLimited s span unit code epart items).kx = s.kx ∧
    (raiseLimited s span unit code epart items).rawOut = s.rawOut ∧
    (raiseLimited s span unit code epart items).epPrev = s.epPrev ∧
    (raiseLimited s span unit code epart items).epTime = s.epTime ∧
    (raiseLimited s span unit code epart items).slot0 = s.slot0 ∧ (raiseLimited s span unit code epart items).slot1 = s.slot1 ∧
    (raiseLimited s span unit code epart items).ligs = s.ligs ∧ (raiseLimited s span unit code epart items).inq = s.inq ∧
    (raiseLimited s span unit code epart items).spine = s.spine ∧
    (raiseLimited s span unit code epart items).spinePtr = s.spinePtr ∧
    (raiseLimited s span unit code epart items).outs = s.outs ∧ (raiseLimited s span unit code epart items).meters = s.meters ∧
    (raiseLimited s span unit code epart items).holds = s.holds ∧ (raiseLimited s span unit code epart items).draws = s.draws ∧
    (raiseLimited s span unit code epart items).notices = s.notices ∧ (raiseLimited s span unit code epart items).asm = s.asm ∧
    (raiseLimited s span unit code epart items).badMsgs = s.badMsgs ∧
    (raiseLimited s span unit code epart items).delivered = s.delivered ∧
    (raiseLimited s span unit code epart items).tags = s.tags ∧ (raiseLimited s span unit code epart items).late = s.late ∧
    (raiseLimited s span unit code epart items).journal = s.journal ∧
    (raiseLimited s span unit code epart items).ligRecs = s.ligRecs ∧
    (raiseLimited s span unit code epart items).opRecs = s.opRecs ∧ (raiseLimited s span unit code epart items).mem = s.mem ∧
    (raiseLimited s span unit code epart items).poison = s.poison ∧
    (raiseLimited s span unit code epart items).domains = s.domains ∧ (raiseLimited s span unit code epart items).dir = s.dir ∧
    (raiseLimited s span unit code epart items).txns = s.txns ∧
    (raiseLimited s span unit code epart items).cohWait = s.cohWait ∧
    (raiseLimited s span unit code epart items).folios = s.folios ∧
    (raiseLimited s span unit code epart items).reissues = s.reissues ∧
    (raiseLimited s span unit code epart items).regions = s.regions ∧
    (raiseLimited s span unit code epart items).vloads = s.vloads ∧
    (raiseLimited s span unit code epart items).waitPubs = s.waitPubs ∧
    (raiseLimited s span unit code epart items).ctxs = s.ctxs ∧ (raiseLimited s span unit code epart items).chunks = s.chunks ∧
    (raiseLimited s span unit code epart items).tables = s.tables ∧
    (raiseLimited s span unit code epart items).quills = s.quills ∧
    (raiseLimited s span unit code epart items).objects = s.objects ∧
    (raiseLimited s span unit code epart items).moves = s.moves ∧ (raiseLimited s span unit code epart items).moveQ = s.moveQ ∧
    (raiseLimited s span unit code epart items).transitWait = s.transitWait ∧
    (raiseLimited s span unit code epart items).scheds = s.scheds ∧
    (raiseLimited s span unit code epart items).pfPool = s.pfPool ∧
    (raiseLimited s span unit code epart items).slots = s.slots ∧
    (raiseLimited s span unit code epart items).basisJobs = s.basisJobs ∧
    (raiseLimited s span unit code epart items).encJobs = s.encJobs ∧
    (raiseLimited s span unit code epart items).expanders = s.expanders ∧
    (raiseLimited s span unit code epart items).expResps = s.expResps ∧
    (raiseLimited s span unit code epart items).batches = s.batches ∧
    (raiseLimited s span unit code epart items).parts = s.parts ∧
    (raiseLimited s span unit code epart items).macsec = s.macsec ∧
    (raiseLimited s span unit code epart items).units = s.units ∧
    (raiseLimited s span unit code epart items).standIn = s.standIn ∧
    (raiseLimited s span unit code epart items).dumap = s.dumap ∧
    (raiseLimited s span unit code epart items).watches = s.watches ∧
    (raiseLimited s span unit code epart items).hbSeq = s.hbSeq ∧
    (raiseLimited s span unit code epart items).hbHeard = s.hbHeard ∧
    (raiseLimited s span unit code epart items).dead = s.dead ∧ (raiseLimited s span unit code epart items).alive = s.alive ∧
    (raiseLimited s span unit code epart items).fences = s.fences ∧
    (raiseLimited s span unit code epart items).fepoch = s.fepoch ∧
    (raiseLimited s span unit code epart items).members = s.members ∧
    (raiseLimited s span unit code epart items).mepoch = s.mepoch ∧
    (raiseLimited s span unit code epart items).staged = s.staged ∧
    (raiseLimited s span unit code epart items).grandfathered = s.grandfathered ∧
    (raiseLimited s span unit code epart items).strags = s.strags ∧
    (raiseLimited s span unit code epart items).loader = s.loader ∧
    (raiseLimited s span unit code epart items).oprCred = s.oprCred ∧
    (raiseLimited s span unit code epart items).refused = s.refused ∧
    (raiseLimited s span unit code epart items).hostSt = s.hostSt ∧
    (raiseLimited s span unit code epart items).power = s.power ∧ (raiseLimited s span unit code epart items).snap = s.snap ∧
    (raiseLimited s span unit code epart items).scribe.st = s.scribe.st ∧
    (raiseLimited s span unit code epart items).scribe.bootCount = s.scribe.bootCount ∧
    (raiseLimited s span unit code epart items).scribe.lastRestart = s.scribe.lastRestart ∧
    (raiseLimited s span unit code epart items).scribe.pIn = s.scribe.pIn ∧
    (raiseLimited s span unit code epart items).scribe.vIn = s.scribe.vIn ∧
    (raiseLimited s span unit code epart items).scribe.iIn = s.scribe.iIn ∧
    (raiseLimited s span unit code epart items).scribe.tHot = s.scribe.tHot ∧
    (raiseLimited s span unit code epart items).scribe.tHotSite = s.scribe.tHotSite ∧
    (raiseLimited s span unit code epart items).scribe.diodes = s.scribe.diodes ∧
    (raiseLimited s span unit code epart items).scribe.stackT = s.scribe.stackT ∧
    (raiseLimited s span unit code epart items).scribe.coolIn = s.scribe.coolIn ∧
    (raiseLimited s span unit code epart items).scribe.coolOut = s.scribe.coolOut ∧
    (raiseLimited s span unit code epart items).scribe.tach0 = s.scribe.tach0 ∧
    (raiseLimited s span unit code epart items).scribe.tach1 = s.scribe.tach1 ∧
    (raiseLimited s span unit code epart items).scribe.rails = s.scribe.rails ∧
    (raiseLimited s span unit code epart items).scribe.energy = s.scribe.energy ∧
    (raiseLimited s span unit code epart items).scribe.pHeld = s.scribe.pHeld ∧
    (raiseLimited s span unit code epart items).scribe.tHeld = s.scribe.tHeld ∧
    (raiseLimited s span unit code epart items).scribe.invalid = s.scribe.invalid ∧
    (raiseLimited s span unit code epart items).scribe.demand = s.scribe.demand ∧
    (raiseLimited s span unit code epart items).scribe.integral = s.scribe.integral ∧
    (raiseLimited s span unit code epart items).scribe.pumpDuty = s.scribe.pumpDuty ∧
    (raiseLimited s span unit code epart items).scribe.valveDuty = s.scribe.valveDuty ∧
    (raiseLimited s span unit code epart items).scribe.upMs = s.scribe.upMs ∧
    (raiseLimited s span unit code epart items).scribe.inletHigh = s.scribe.inletHigh ∧
    (raiseLimited s span unit code epart items).scribe.tachLow = s.scribe.tachLow ∧
    (raiseLimited s span unit code epart items).scribe.divisor = s.scribe.divisor ∧
    (raiseLimited s span unit code epart items).scribe.tempDiv = s.scribe.tempDiv ∧
    (raiseLimited s span unit code epart items).scribe.powDiv = s.scribe.powDiv ∧
    (raiseLimited s span unit code epart items).scribe.powHigh = s.scribe.powHigh ∧
    (raiseLimited s span unit code epart items).scribe.tripped = s.scribe.tripped ∧
    (raiseLimited s span unit code epart items).scribe.tripLow = s.scribe.tripLow ∧
    (raiseLimited s span unit code epart items).scribe.linkA = s.scribe.linkA ∧
    (raiseLimited s span unit code epart items).scribe.linkB = s.scribe.linkB ∧
    (raiseLimited s span unit code epart items).scribe.bypass = s.scribe.bypass ∧
    (raiseLimited s span unit code epart items).scribe.plog = s.scribe.plog ∧
    (raiseLimited s span unit code epart items).scribe.plogNext = s.scribe.plogNext ∧
    (raiseLimited s span unit code epart items).scribe.fwSt = s.scribe.fwSt ∧
    (raiseLimited s span unit code epart items).scribe.fwResult = s.scribe.fwResult ∧
    (raiseLimited s span unit code epart items).scribe.staging = s.scribe.staging ∧
    (raiseLimited s span unit code epart items).scribe.flash = s.scribe.flash ∧
    (raiseLimited s span unit code epart items).scribe.fwVer = s.scribe.fwVer ∧
    (raiseLimited s span unit code epart items).scribe.fwSvn = s.scribe.fwSvn ∧
    (raiseLimited s span unit code epart items).scribe.fwDigest = s.scribe.fwDigest ∧
    (raiseLimited s span unit code epart items).scribe.rollback = s.scribe.rollback ∧
    (raiseLimited s span unit code epart items).scribe.recovered = s.scribe.recovered :=
  noEvents_fields (raiseLimited_noEvents s span unit code epart items)

@[simp] theorem raiseLimited_reads (s : State) (span unit code epart : Nat) (items : List (Nat × Nat)) :
    (∀ j, (raiseLimited s span unit code epart items).o j = s.o j) ∧
    (∀ j, (raiseLimited s span unit code epart items).b j = s.b j) ∧
    (∀ j, (raiseLimited s span unit code epart items).port j = s.port j) ∧
    (∀ j, (raiseLimited s span unit code epart items).outSt j = s.outSt j) ∧
    (∀ j, (raiseLimited s span unit code epart items).part j = s.part j) ∧
    (∀ j, (raiseLimited s span unit code epart items).folio j = s.folio j) ∧
    (∀ j, (raiseLimited s span unit code epart items).domain j = s.domain j) ∧
    (∀ j, (raiseLimited s span unit code epart items).ctx j = s.ctx j) ∧
    (∀ j, (raiseLimited s span unit code epart items).table j = s.table j) ∧
    (∀ j, (raiseLimited s span unit code epart items).quill j = s.quill j) ∧
    (∀ j, (raiseLimited s span unit code epart items).object j = s.object j) ∧
    (∀ j, (raiseLimited s span unit code epart items).sched j = s.sched j) ∧
    (∀ j, (raiseLimited s span unit code epart items).slot j = s.slot j) ∧
    (∀ j, (raiseLimited s span unit code epart items).batch j = s.batch j) ∧
    (∀ j, (raiseLimited s span unit code epart items).region j = s.region j) ∧
    (∀ j, (raiseLimited s span unit code epart items).meter j = s.meter j) ∧
    (∀ j, (raiseLimited s span unit code epart items).unit j = s.unit j) ∧
    (∀ j, (raiseLimited s span unit code epart items).hostP j = s.hostP j) ∧
    (∀ j, (raiseLimited s span unit code epart items).mac j = s.mac j) ∧
    (∀ j, (raiseLimited s span unit code epart items).strag j = s.strag j) ∧
    (∀ j, (raiseLimited s span unit code epart items).inputQ j = s.inputQ j) ∧
    (∀ j, (raiseLimited s span unit code epart items).routeSlot j = s.routeSlot j) ∧
    (∀ i j l, (raiseLimited s span unit code epart items).key i j l = s.key i j l) := by
  and_intros <;> intros <;> simp [State.o, State.b, State.port, State.outSt, State.part, State.folio, State.domain, State.ctx,
    State.table, State.quill, State.object, State.sched, State.slot, State.batch, State.region, State.meter, State.unit,
    State.hostP, State.mac, State.strag, State.inputQ, State.routeSlot, State.key]

@[simp] theorem dictSend_frame (s : State) (v : Session) (m : DMsg) :
    (dictSend s v m).pending = s.pending ∧ (dictSend s v m).time = s.time ∧ (dictSend s v m).timebase = s.timebase ∧
    (dictSend s v m).obj = s.obj ∧ (dictSend s v m).blob = s.blob ∧ (dictSend s v m).qos = s.qos ∧
    (dictSend s v m).serial = s.serial ∧ (dictSend s v m).free = s.free ∧ (dictSend s v m).ports = s.ports ∧
    (dictSend s v m).keys = s.keys ∧ (dictSend s v m).kx = s.kx ∧ (dictSend s v m).rawOut = s.rawOut ∧
    (dictSend s v m).epPrev = s.epPrev ∧ (dictSend s v m).epTime = s.epTime ∧ (dictSend s v m).slot0 = s.slot0 ∧
    (dictSend s v m).slot1 = s.slot1 ∧ (dictSend s v m).ligs = s.ligs ∧ (dictSend s v m).inq = s.inq ∧
    (dictSend s v m).spine = s.spine ∧ (dictSend s v m).spinePtr = s.spinePtr ∧ (dictSend s v m).outs = s.outs ∧
    (dictSend s v m).meters = s.meters ∧ (dictSend s v m).holds = s.holds ∧ (dictSend s v m).draws = s.draws ∧
    (dictSend s v m).notices = s.notices ∧ (dictSend s v m).asm = s.asm ∧ (dictSend s v m).badMsgs = s.badMsgs ∧
    (dictSend s v m).delivered = s.delivered ∧ (dictSend s v m).tags = s.tags ∧ (dictSend s v m).late = s.late ∧
    (dictSend s v m).journal = s.journal ∧ (dictSend s v m).ligRecs = s.ligRecs ∧ (dictSend s v m).opRecs = s.opRecs ∧
    (dictSend s v m).mem = s.mem ∧ (dictSend s v m).poison = s.poison ∧ (dictSend s v m).domains = s.domains ∧
    (dictSend s v m).dir = s.dir ∧ (dictSend s v m).txns = s.txns ∧ (dictSend s v m).cohWait = s.cohWait ∧
    (dictSend s v m).folios = s.folios ∧ (dictSend s v m).reissues = s.reissues ∧ (dictSend s v m).regions = s.regions ∧
    (dictSend s v m).vloads = s.vloads ∧ (dictSend s v m).waitPubs = s.waitPubs ∧ (dictSend s v m).ctxs = s.ctxs ∧
    (dictSend s v m).chunks = s.chunks ∧ (dictSend s v m).tables = s.tables ∧ (dictSend s v m).quills = s.quills ∧
    (dictSend s v m).objects = s.objects ∧ (dictSend s v m).moves = s.moves ∧ (dictSend s v m).moveQ = s.moveQ ∧
    (dictSend s v m).transitWait = s.transitWait ∧ (dictSend s v m).scheds = s.scheds ∧ (dictSend s v m).pfPool = s.pfPool ∧
    (dictSend s v m).slots = s.slots ∧ (dictSend s v m).basisJobs = s.basisJobs ∧ (dictSend s v m).encJobs = s.encJobs ∧
    (dictSend s v m).expanders = s.expanders ∧ (dictSend s v m).expResps = s.expResps ∧ (dictSend s v m).batches = s.batches ∧
    (dictSend s v m).parts = s.parts ∧ (dictSend s v m).macsec = s.macsec ∧ (dictSend s v m).units = s.units ∧
    (dictSend s v m).standIn = s.standIn ∧ (dictSend s v m).dumap = s.dumap ∧ (dictSend s v m).watches = s.watches ∧
    (dictSend s v m).hbSeq = s.hbSeq ∧ (dictSend s v m).hbHeard = s.hbHeard ∧ (dictSend s v m).dead = s.dead ∧
    (dictSend s v m).alive = s.alive ∧ (dictSend s v m).fences = s.fences ∧ (dictSend s v m).fepoch = s.fepoch ∧
    (dictSend s v m).members = s.members ∧ (dictSend s v m).mepoch = s.mepoch ∧ (dictSend s v m).staged = s.staged ∧
    (dictSend s v m).grandfathered = s.grandfathered ∧ (dictSend s v m).strags = s.strags ∧
    (dictSend s v m).loader = s.loader ∧ (dictSend s v m).oprCred = s.oprCred ∧ (dictSend s v m).refused = s.refused ∧
    (dictSend s v m).hostSt = s.hostSt ∧ (dictSend s v m).power = s.power ∧ (dictSend s v m).snap = s.snap ∧
    (dictSend s v m).scribe.st = s.scribe.st ∧ (dictSend s v m).scribe.bootCount = s.scribe.bootCount ∧
    (dictSend s v m).scribe.lastRestart = s.scribe.lastRestart ∧ (dictSend s v m).scribe.pIn = s.scribe.pIn ∧
    (dictSend s v m).scribe.vIn = s.scribe.vIn ∧ (dictSend s v m).scribe.iIn = s.scribe.iIn ∧
    (dictSend s v m).scribe.tHot = s.scribe.tHot ∧ (dictSend s v m).scribe.tHotSite = s.scribe.tHotSite ∧
    (dictSend s v m).scribe.diodes = s.scribe.diodes ∧ (dictSend s v m).scribe.stackT = s.scribe.stackT ∧
    (dictSend s v m).scribe.coolIn = s.scribe.coolIn ∧ (dictSend s v m).scribe.coolOut = s.scribe.coolOut ∧
    (dictSend s v m).scribe.tach0 = s.scribe.tach0 ∧ (dictSend s v m).scribe.tach1 = s.scribe.tach1 ∧
    (dictSend s v m).scribe.rails = s.scribe.rails ∧ (dictSend s v m).scribe.energy = s.scribe.energy ∧
    (dictSend s v m).scribe.pHeld = s.scribe.pHeld ∧ (dictSend s v m).scribe.tHeld = s.scribe.tHeld ∧
    (dictSend s v m).scribe.invalid = s.scribe.invalid ∧ (dictSend s v m).scribe.demand = s.scribe.demand ∧
    (dictSend s v m).scribe.integral = s.scribe.integral ∧ (dictSend s v m).scribe.pumpDuty = s.scribe.pumpDuty ∧
    (dictSend s v m).scribe.valveDuty = s.scribe.valveDuty ∧ (dictSend s v m).scribe.upMs = s.scribe.upMs ∧
    (dictSend s v m).scribe.inletHigh = s.scribe.inletHigh ∧ (dictSend s v m).scribe.tachLow = s.scribe.tachLow ∧
    (dictSend s v m).scribe.divisor = s.scribe.divisor ∧ (dictSend s v m).scribe.tempDiv = s.scribe.tempDiv ∧
    (dictSend s v m).scribe.powDiv = s.scribe.powDiv ∧ (dictSend s v m).scribe.powHigh = s.scribe.powHigh ∧
    (dictSend s v m).scribe.tripped = s.scribe.tripped ∧ (dictSend s v m).scribe.tripLow = s.scribe.tripLow ∧
    (dictSend s v m).scribe.linkA = s.scribe.linkA ∧ (dictSend s v m).scribe.linkB = s.scribe.linkB ∧
    (dictSend s v m).scribe.bypass = s.scribe.bypass ∧ (dictSend s v m).scribe.plog = s.scribe.plog ∧
    (dictSend s v m).scribe.plogNext = s.scribe.plogNext ∧ (dictSend s v m).scribe.fwSt = s.scribe.fwSt ∧
    (dictSend s v m).scribe.fwResult = s.scribe.fwResult ∧ (dictSend s v m).scribe.staging = s.scribe.staging ∧
    (dictSend s v m).scribe.flash = s.scribe.flash ∧ (dictSend s v m).scribe.fwVer = s.scribe.fwVer ∧
    (dictSend s v m).scribe.fwSvn = s.scribe.fwSvn ∧ (dictSend s v m).scribe.fwDigest = s.scribe.fwDigest ∧
    (dictSend s v m).scribe.rollback = s.scribe.rollback ∧ (dictSend s v m).scribe.recovered = s.scribe.recovered :=
  noEvents_fields (dictSend_noEvents s v m)

@[simp] theorem dictSend_reads (s : State) (v : Session) (m : DMsg) :
    (∀ j, (dictSend s v m).o j = s.o j) ∧ (∀ j, (dictSend s v m).b j = s.b j) ∧ (∀ j, (dictSend s v m).port j = s.port j) ∧
    (∀ j, (dictSend s v m).outSt j = s.outSt j) ∧ (∀ j, (dictSend s v m).part j = s.part j) ∧
    (∀ j, (dictSend s v m).folio j = s.folio j) ∧ (∀ j, (dictSend s v m).domain j = s.domain j) ∧
    (∀ j, (dictSend s v m).ctx j = s.ctx j) ∧ (∀ j, (dictSend s v m).table j = s.table j) ∧
    (∀ j, (dictSend s v m).quill j = s.quill j) ∧ (∀ j, (dictSend s v m).object j = s.object j) ∧
    (∀ j, (dictSend s v m).sched j = s.sched j) ∧ (∀ j, (dictSend s v m).slot j = s.slot j) ∧
    (∀ j, (dictSend s v m).batch j = s.batch j) ∧ (∀ j, (dictSend s v m).region j = s.region j) ∧
    (∀ j, (dictSend s v m).meter j = s.meter j) ∧ (∀ j, (dictSend s v m).unit j = s.unit j) ∧
    (∀ j, (dictSend s v m).hostP j = s.hostP j) ∧ (∀ j, (dictSend s v m).mac j = s.mac j) ∧
    (∀ j, (dictSend s v m).strag j = s.strag j) ∧ (∀ j, (dictSend s v m).inputQ j = s.inputQ j) ∧
    (∀ j, (dictSend s v m).routeSlot j = s.routeSlot j) ∧ (∀ i j l, (dictSend s v m).key i j l = s.key i j l) := by
  and_intros <;> intros <;> simp [State.o, State.b, State.port, State.outSt, State.part, State.folio, State.domain, State.ctx,
    State.table, State.quill, State.object, State.sched, State.slot, State.batch, State.region, State.meter, State.unit,
    State.hostP, State.mac, State.strag, State.inputQ, State.routeSlot, State.key]

@[simp] theorem noTraffic_mk x0 x1 x2 x3 x4 x5 x6 x7 x8 x9 x10 x11 x12 x13 x14 x15 x16 x17 x18 x19 x20 x21 x22 x23 x24 x25 x26
    x27 x28 x29 x30 x31 x32 x33 x34 x35 x36 x37 x38 x39 x40 x41 x42 x43 x44 x45 x46 x47 x48 x49 x50 x51 x52 x53 x54 x55 x56 x57
    x58 x59 x60 x61 x62 x63 x64 x65 x66 x67 x68 x69 x70 x71 x72 x73 x74 x75 x76 x77 x78 x79 x80 x81 x82 x83 x84 x85 x86 x87 x88
    : (State.mk x0 x1 x2 x3 x4 x5 x6 x7 x8 x9 x10 x11 x12 x13 x14 x15 x16 x17 x18 x19 x20 x21 x22 x23 x24 x25 x26 x27 x28 x29
    x30 x31 x32 x33 x34 x35 x36 x37 x38 x39 x40 x41 x42 x43 x44 x45 x46 x47 x48 x49 x50 x51 x52 x53 x54 x55 x56 x57 x58 x59 x60
    x61 x62 x63 x64 x65 x66 x67 x68 x69 x70 x71 x72 x73 x74 x75 x76 x77 x78 x79 x80 x81 x82 x83 x84 x85 x86 x87 x88).noTraffic
    = State.mk (x0) (x1) (x2) (x3) (x4) ([]) (x6) ([]) (0) (x9) ([]) (x11) (x12) (x13) (x14) (x15) (x16) (x17) (x18) (x19) ([])
    (x21) (x22) (x23) (x24) (x25) (x26) (x27) (x28) (x29) (x30) (x31) (x32) (x33) (x34) (x35) (x36) (x37) (x38) (x39) (x40)
    (x41) (x42) (x43) (x44) (x45) (x46) (x47) (x48) (x49) (x50) (x51) (x52) (x53) (x54) (x55) (x56) (x57) (x58) (x59) (x60)
    (x61) (x62) (x63) (x64) (x65) (x66) (x67) (x68) (x69) (x70) (x71) (x72) (x73) (x74) (x75) (x76) (x77) (x78) (x79) ([])
    (x81) (x82) (x83) (x84) ([]) ({ x86 with log := [], logNext := 0, toPersist := [], persistIv := 0, persistN := 0 }) (x87)
    (x88) := (rfl)
@[simp] theorem noTraffic_fold (s : State) : State.mk (s.pending) (s.time) (s.timebase) (s.obj) (s.blob) ([]) (s.qos) ([]) (0)
    (s.free) ([]) (s.ports) (s.keys) (s.kx) (s.rawOut) (s.epPrev) (s.epTime) (s.slot0) (s.slot1) (s.ligs) ([]) (s.spine)
    (s.spinePtr) (s.outs) (s.meters) (s.holds) (s.draws) (s.notices) (s.asm) (s.badMsgs) (s.delivered) (s.tags) (s.late)
    (s.journal) (s.ligRecs) (s.opRecs) (s.mem) (s.poison) (s.domains) (s.dir) (s.txns) (s.cohWait) (s.folios) (s.reissues)
    (s.regions) (s.vloads) (s.waitPubs) (s.ctxs) (s.chunks) (s.tables) (s.quills) (s.objects) (s.moves) (s.moveQ)
    (s.transitWait) (s.scheds) (s.pfPool) (s.slots) (s.basisJobs) (s.encJobs) (s.expanders) (s.expResps) (s.batches) (s.parts)
    (s.macsec) (s.units) (s.standIn) (s.dumap) (s.watches) (s.hbSeq) (s.hbHeard) (s.dead) (s.alive) (s.fences) (s.fepoch)
    (s.members) (s.mepoch) (s.staged) (s.grandfathered) (s.strags) ([]) (s.loader) (s.oprCred) (s.refused) (s.hostSt) ([]) ({
    s.scribe with log := [], logNext := 0, toPersist := [], persistIv := 0, persistN := 0 }) (s.power) (s.snap) = s.noTraffic
    := (rfl)
@[simp] theorem foldl_noTraffic {α : Type} (f : State → α → State) (h : ∀ s a, (f s a).noTraffic = s.noTraffic) (l : List α) (s
    : State) : (l.foldl f s).noTraffic = s.noTraffic := by
  induction l generalizing s with
  | nil => rfl
  | cons a l ih => simp [ih, h]
@[simp] theorem ite_noTraffic (c : Prop) [Decidable c] (a b : State) : (if c then a else b).noTraffic = if c then a.noTraffic
    else b.noTraffic := by
  split <;> rfl

@[simp] theorem State.setC_noTraffic (s : State) (k v : Nat) : (State.setC s k v).noTraffic = s.noTraffic := rfl
@[simp] theorem State.bump_noTraffic (s : State) (k n : Nat) : (State.bump s k n).noTraffic = s.noTraffic := by simp [State.bump]
@[simp] theorem State.setHrb_noTraffic (s : State) (h : Nat) (v : Hrb) : (State.setHrb s h v).noTraffic = s.noTraffic := rfl
@[simp] theorem State.setInputQ_noTraffic (s : State) (i : Nat) (v : List Held) : (State.setInputQ s i v).noTraffic =
    s.noTraffic := rfl
@[simp] theorem State.emit_noTraffic (s : State) (o : Out) : (State.emit s o).noTraffic = s.noTraffic := rfl
@[simp] theorem State.nextSerial_noTraffic (s : State) : (State.nextSerial s).2.noTraffic = s.noTraffic := rfl
@[simp] theorem State.firstIn_noTraffic (s : State) (span what unit : Nat) : (s.firstIn span what unit).2.noTraffic =
    s.noTraffic := by
  unfold State.firstIn; dsimp only; split <;> rfl
@[simp] theorem endSession_noTraffic (s : State) (sid : BitVec 16) : (endSession s sid).noTraffic = s.noTraffic := rfl
@[simp] theorem State.setSession_noTraffic (s : State) (v : Session) : (State.setSession s v).noTraffic = s.noTraffic := rfl
@[simp] theorem dictSend_noTraffic (s : State) (v : Session) (m : DMsg) : (dictSend s v m).noTraffic = s.noTraffic := by
  simp [dictSend]
@[simp] theorem hrbAttention_noTraffic (s : State) (h : Nat) : (hrbAttention s h).noTraffic = s.noTraffic := by
  simp [hrbAttention]
@[simp] theorem offer_noTraffic (e : Event) (s : State) (sid : BitVec 16) : (offer e s sid).noTraffic = s.noTraffic := by
  unfold offer; (repeat' split) <;> simp
@[simp] theorem attend_noTraffic (before : Nat) (s : State) (h : Nat) : (attend before s h).noTraffic = s.noTraffic := by
  simp [attend]
@[simp] theorem deliverEvent_noTraffic (s : State) (e : Event) (only : Session → Bool) : (deliverEvent s e only).noTraffic =
    s.noTraffic := by
  simp [deliverEvent]
theorem noTraffic_log (s : State) (l : List LogRec) (n : BitVec 32) :
    ({ s with scribe := { s.scribe with log := l, logNext := n } } : State).noTraffic = s.noTraffic := rfl
@[simp] theorem logAppend_noTraffic (s : State) (e : Event) : (logAppend s e).noTraffic = s.noTraffic := noTraffic_log s _ _
@[simp] theorem markPersist_noTraffic (s : State) (n : BitVec 32) : (markPersist s n).2.noTraffic = s.noTraffic := by
  unfold markPersist; dsimp only; (repeat' split) <;> rfl
@[simp] theorem raiseOnce_noTraffic (s : State) (c p : Nat) (l : List (Nat × Nat)) (o : Session → Bool) : (raiseOnce s c p l
    o).2.noTraffic = s.noTraffic := by
  unfold raiseOnce; extract_lets e no s1 r
  have h : r.2.noTraffic = s.noTraffic := by simp only [r, s1]; split <;> simp
  simp [h]
@[simp] theorem raiseTo_noTraffic (s : State) (code epart : Nat) (items : List (Nat × Nat)) (only : Session → Bool) : (raiseTo
    s code epart items only).noTraffic = s.noTraffic := by
  simp [raiseTo]
@[simp] theorem raise_noTraffic (s : State) (code epart : Nat) (items : List (Nat × Nat)) : (raise s code epart
    items).noTraffic = s.noTraffic := by
  simp [raise]
@[simp] theorem raiseLimited_noTraffic (s : State) (span unit code epart : Nat) (items : List (Nat × Nat)) : (raiseLimited s
    span unit code epart items).noTraffic = s.noTraffic := by
  simp [raiseLimited]
@[simp] theorem enqueueIn_noTraffic (s : State) (ing : Nat) (kind : HeldKind) (ret : Option HostRet) (p : Packet) : (enqueueIn
    s ing kind ret p).noTraffic = s.noTraffic := by
  simp [enqueueIn]
@[simp] theorem originate_noTraffic (s : State) (ing : Nat) (kind : HeldKind) (ps : List Packet) : (originate s ing kind
    ps).noTraffic = s.noTraffic := by
  simp [originate]
@[simp] theorem noteStatus_noTraffic (s : State) (tile : Nat) (st : BitVec 8) : (noteStatus s tile st).noTraffic =
    s.noTraffic := by
  simp [noteStatus]
@[simp] theorem complete_noTraffic (s : State) (ing : Nat) (h : Hdr) (st cflg : BitVec 8) (cdat : BitVec 16) : (complete s ing
    h st cflg cdat).noTraffic = s.noTraffic := by
  simp [complete]
@[simp] theorem completeData_noTraffic (s : State) (ing : Nat) (h : Hdr) (cflg : BitVec 8) (cdat : BitVec 16) (body : List
    Byte) : (completeData s ing h cflg cdat body).noTraffic = s.noTraffic := by
  simp [completeData]

theorem noTraffic_fields {a b : State} (h : a.noTraffic = b.noTraffic) :
    a.pending = b.pending ∧ a.time = b.time ∧ a.timebase = b.timebase ∧ a.obj = b.obj ∧ a.blob = b.blob ∧ a.qos = b.qos ∧
    a.free = b.free ∧ a.ports = b.ports ∧ a.keys = b.keys ∧ a.kx = b.kx ∧ a.rawOut = b.rawOut ∧ a.epPrev = b.epPrev ∧
    a.epTime = b.epTime ∧ a.slot0 = b.slot0 ∧ a.slot1 = b.slot1 ∧ a.ligs = b.ligs ∧ a.spine = b.spine ∧
    a.spinePtr = b.spinePtr ∧ a.outs = b.outs ∧ a.meters = b.meters ∧ a.holds = b.holds ∧ a.draws = b.draws ∧
    a.notices = b.notices ∧ a.asm = b.asm ∧ a.badMsgs = b.badMsgs ∧ a.delivered = b.delivered ∧ a.tags = b.tags ∧
    a.late = b.late ∧ a.journal = b.journal ∧ a.ligRecs = b.ligRecs ∧ a.opRecs = b.opRecs ∧ a.mem = b.mem ∧
    a.poison = b.poison ∧ a.domains = b.domains ∧ a.dir = b.dir ∧ a.txns = b.txns ∧ a.cohWait = b.cohWait ∧
    a.folios = b.folios ∧ a.reissues = b.reissues ∧ a.regions = b.regions ∧ a.vloads = b.vloads ∧ a.waitPubs = b.waitPubs ∧
    a.ctxs = b.ctxs ∧ a.chunks = b.chunks ∧ a.tables = b.tables ∧ a.quills = b.quills ∧ a.objects = b.objects ∧
    a.moves = b.moves ∧ a.moveQ = b.moveQ ∧ a.transitWait = b.transitWait ∧ a.scheds = b.scheds ∧ a.pfPool = b.pfPool ∧
    a.slots = b.slots ∧ a.basisJobs = b.basisJobs ∧ a.encJobs = b.encJobs ∧ a.expanders = b.expanders ∧
    a.expResps = b.expResps ∧ a.batches = b.batches ∧ a.parts = b.parts ∧ a.macsec = b.macsec ∧ a.units = b.units ∧
    a.standIn = b.standIn ∧ a.dumap = b.dumap ∧ a.watches = b.watches ∧ a.hbSeq = b.hbSeq ∧ a.hbHeard = b.hbHeard ∧
    a.dead = b.dead ∧ a.alive = b.alive ∧ a.fences = b.fences ∧ a.fepoch = b.fepoch ∧ a.members = b.members ∧
    a.mepoch = b.mepoch ∧ a.staged = b.staged ∧ a.grandfathered = b.grandfathered ∧ a.strags = b.strags ∧ a.loader = b.loader ∧
    a.oprCred = b.oprCred ∧ a.refused = b.refused ∧ a.hostSt = b.hostSt ∧ a.power = b.power ∧ a.snap = b.snap ∧
    a.scribe.st = b.scribe.st ∧ a.scribe.bootCount = b.scribe.bootCount ∧ a.scribe.lastRestart = b.scribe.lastRestart ∧
    a.scribe.pIn = b.scribe.pIn ∧ a.scribe.vIn = b.scribe.vIn ∧ a.scribe.iIn = b.scribe.iIn ∧ a.scribe.tHot = b.scribe.tHot ∧
    a.scribe.tHotSite = b.scribe.tHotSite ∧ a.scribe.diodes = b.scribe.diodes ∧ a.scribe.stackT = b.scribe.stackT ∧
    a.scribe.coolIn = b.scribe.coolIn ∧ a.scribe.coolOut = b.scribe.coolOut ∧ a.scribe.tach0 = b.scribe.tach0 ∧
    a.scribe.tach1 = b.scribe.tach1 ∧ a.scribe.rails = b.scribe.rails ∧ a.scribe.energy = b.scribe.energy ∧
    a.scribe.pHeld = b.scribe.pHeld ∧ a.scribe.tHeld = b.scribe.tHeld ∧ a.scribe.invalid = b.scribe.invalid ∧
    a.scribe.demand = b.scribe.demand ∧ a.scribe.integral = b.scribe.integral ∧ a.scribe.pumpDuty = b.scribe.pumpDuty ∧
    a.scribe.valveDuty = b.scribe.valveDuty ∧ a.scribe.upMs = b.scribe.upMs ∧ a.scribe.inletHigh = b.scribe.inletHigh ∧
    a.scribe.tachLow = b.scribe.tachLow ∧ a.scribe.divisor = b.scribe.divisor ∧ a.scribe.tempDiv = b.scribe.tempDiv ∧
    a.scribe.powDiv = b.scribe.powDiv ∧ a.scribe.powHigh = b.scribe.powHigh ∧ a.scribe.tripped = b.scribe.tripped ∧
    a.scribe.tripLow = b.scribe.tripLow ∧ a.scribe.linkA = b.scribe.linkA ∧ a.scribe.linkB = b.scribe.linkB ∧
    a.scribe.bypass = b.scribe.bypass ∧ a.scribe.plog = b.scribe.plog ∧ a.scribe.plogNext = b.scribe.plogNext ∧
    a.scribe.fwSt = b.scribe.fwSt ∧ a.scribe.fwResult = b.scribe.fwResult ∧ a.scribe.staging = b.scribe.staging ∧
    a.scribe.flash = b.scribe.flash ∧ a.scribe.fwVer = b.scribe.fwVer ∧ a.scribe.fwSvn = b.scribe.fwSvn ∧
    a.scribe.fwDigest = b.scribe.fwDigest ∧ a.scribe.rollback = b.scribe.rollback ∧ a.scribe.recovered = b.scribe.recovered :=
  have g : ∀ {β : Type} (f : State → β), f a.noTraffic = f b.noTraffic := fun f => congrArg f h;
    ⟨g State.pending, g State.time, g State.timebase, g State.obj, g State.blob, g State.qos, g State.free, g State.ports,
    g State.keys, g State.kx, g State.rawOut, g State.epPrev, g State.epTime, g State.slot0, g State.slot1, g State.ligs,
    g State.spine, g State.spinePtr, g State.outs, g State.meters, g State.holds, g State.draws, g State.notices,
    g State.asm, g State.badMsgs, g State.delivered, g State.tags, g State.late, g State.journal, g State.ligRecs,
    g State.opRecs, g State.mem, g State.poison, g State.domains, g State.dir, g State.txns, g State.cohWait, g State.folios,
    g State.reissues, g State.regions, g State.vloads, g State.waitPubs, g State.ctxs, g State.chunks, g State.tables,
    g State.quills, g State.objects, g State.moves, g State.moveQ, g State.transitWait, g State.scheds, g State.pfPool,
    g State.slots, g State.basisJobs, g State.encJobs, g State.expanders, g State.expResps, g State.batches, g State.parts,
    g State.macsec, g State.units, g State.standIn, g State.dumap, g State.watches, g State.hbSeq, g State.hbHeard,
    g State.dead, g State.alive, g State.fences, g State.fepoch, g State.members, g State.mepoch, g State.staged,
    g State.grandfathered, g State.strags, g State.loader, g State.oprCred, g State.refused, g State.hostSt, g State.power,
    g State.snap, g (fun x => x.scribe.st), g (fun x => x.scribe.bootCount), g (fun x => x.scribe.lastRestart),
    g (fun x => x.scribe.pIn), g (fun x => x.scribe.vIn), g (fun x => x.scribe.iIn), g (fun x => x.scribe.tHot),
    g (fun x => x.scribe.tHotSite), g (fun x => x.scribe.diodes), g (fun x => x.scribe.stackT), g (fun x => x.scribe.coolIn),
    g (fun x => x.scribe.coolOut), g (fun x => x.scribe.tach0), g (fun x => x.scribe.tach1), g (fun x => x.scribe.rails),
    g (fun x => x.scribe.energy), g (fun x => x.scribe.pHeld), g (fun x => x.scribe.tHeld), g (fun x => x.scribe.invalid),
    g (fun x => x.scribe.demand), g (fun x => x.scribe.integral), g (fun x => x.scribe.pumpDuty),
    g (fun x => x.scribe.valveDuty), g (fun x => x.scribe.upMs), g (fun x => x.scribe.inletHigh),
    g (fun x => x.scribe.tachLow), g (fun x => x.scribe.divisor), g (fun x => x.scribe.tempDiv),
    g (fun x => x.scribe.powDiv), g (fun x => x.scribe.powHigh), g (fun x => x.scribe.tripped),
    g (fun x => x.scribe.tripLow), g (fun x => x.scribe.linkA), g (fun x => x.scribe.linkB), g (fun x => x.scribe.bypass),
    g (fun x => x.scribe.plog), g (fun x => x.scribe.plogNext), g (fun x => x.scribe.fwSt), g (fun x => x.scribe.fwResult),
    g (fun x => x.scribe.staging), g (fun x => x.scribe.flash), g (fun x => x.scribe.fwVer), g (fun x => x.scribe.fwSvn),
    g (fun x => x.scribe.fwDigest), g (fun x => x.scribe.rollback), g (fun x => x.scribe.recovered)⟩

@[simp] theorem enqueueIn_frame (s : State) (ing : Nat) (kind : HeldKind) (ret : Option HostRet) (p : Packet) :
    (enqueueIn s ing kind ret p).pending = s.pending ∧ (enqueueIn s ing kind ret p).time = s.time ∧
    (enqueueIn s ing kind ret p).timebase = s.timebase ∧ (enqueueIn s ing kind ret p).obj = s.obj ∧
    (enqueueIn s ing kind ret p).blob = s.blob ∧ (enqueueIn s ing kind ret p).qos = s.qos ∧
    (enqueueIn s ing kind ret p).free = s.free ∧ (enqueueIn s ing kind ret p).ports = s.ports ∧
    (enqueueIn s ing kind ret p).keys = s.keys ∧ (enqueueIn s ing kind ret p).kx = s.kx ∧
    (enqueueIn s ing kind ret p).rawOut = s.rawOut ∧ (enqueueIn s ing kind ret p).epPrev = s.epPrev ∧
    (enqueueIn s ing kind ret p).epTime = s.epTime ∧ (enqueueIn s ing kind ret p).slot0 = s.slot0 ∧
    (enqueueIn s ing kind ret p).slot1 = s.slot1 ∧ (enqueueIn s ing kind ret p).ligs = s.ligs ∧
    (enqueueIn s ing kind ret p).spine = s.spine ∧ (enqueueIn s ing kind ret p).spinePtr = s.spinePtr ∧
    (enqueueIn s ing kind ret p).outs = s.outs ∧ (enqueueIn s ing kind ret p).meters = s.meters ∧
    (enqueueIn s ing kind ret p).holds = s.holds ∧ (enqueueIn s ing kind ret p).draws = s.draws ∧
    (enqueueIn s ing kind ret p).notices = s.notices ∧ (enqueueIn s ing kind ret p).asm = s.asm ∧
    (enqueueIn s ing kind ret p).badMsgs = s.badMsgs ∧ (enqueueIn s ing kind ret p).delivered = s.delivered ∧
    (enqueueIn s ing kind ret p).tags = s.tags ∧ (enqueueIn s ing kind ret p).late = s.late ∧
    (enqueueIn s ing kind ret p).journal = s.journal ∧ (enqueueIn s ing kind ret p).ligRecs = s.ligRecs ∧
    (enqueueIn s ing kind ret p).opRecs = s.opRecs ∧ (enqueueIn s ing kind ret p).mem = s.mem ∧
    (enqueueIn s ing kind ret p).poison = s.poison ∧ (enqueueIn s ing kind ret p).domains = s.domains ∧
    (enqueueIn s ing kind ret p).dir = s.dir ∧ (enqueueIn s ing kind ret p).txns = s.txns ∧
    (enqueueIn s ing kind ret p).cohWait = s.cohWait ∧ (enqueueIn s ing kind ret p).folios = s.folios ∧
    (enqueueIn s ing kind ret p).reissues = s.reissues ∧ (enqueueIn s ing kind ret p).regions = s.regions ∧
    (enqueueIn s ing kind ret p).vloads = s.vloads ∧ (enqueueIn s ing kind ret p).waitPubs = s.waitPubs ∧
    (enqueueIn s ing kind ret p).ctxs = s.ctxs ∧ (enqueueIn s ing kind ret p).chunks = s.chunks ∧
    (enqueueIn s ing kind ret p).tables = s.tables ∧ (enqueueIn s ing kind ret p).quills = s.quills ∧
    (enqueueIn s ing kind ret p).objects = s.objects ∧ (enqueueIn s ing kind ret p).moves = s.moves ∧
    (enqueueIn s ing kind ret p).moveQ = s.moveQ ∧ (enqueueIn s ing kind ret p).transitWait = s.transitWait ∧
    (enqueueIn s ing kind ret p).scheds = s.scheds ∧ (enqueueIn s ing kind ret p).pfPool = s.pfPool ∧
    (enqueueIn s ing kind ret p).slots = s.slots ∧ (enqueueIn s ing kind ret p).basisJobs = s.basisJobs ∧
    (enqueueIn s ing kind ret p).encJobs = s.encJobs ∧ (enqueueIn s ing kind ret p).expanders = s.expanders ∧
    (enqueueIn s ing kind ret p).expResps = s.expResps ∧ (enqueueIn s ing kind ret p).batches = s.batches ∧
    (enqueueIn s ing kind ret p).parts = s.parts ∧ (enqueueIn s ing kind ret p).macsec = s.macsec ∧
    (enqueueIn s ing kind ret p).units = s.units ∧ (enqueueIn s ing kind ret p).standIn = s.standIn ∧
    (enqueueIn s ing kind ret p).dumap = s.dumap ∧ (enqueueIn s ing kind ret p).watches = s.watches ∧
    (enqueueIn s ing kind ret p).hbSeq = s.hbSeq ∧ (enqueueIn s ing kind ret p).hbHeard = s.hbHeard ∧
    (enqueueIn s ing kind ret p).dead = s.dead ∧ (enqueueIn s ing kind ret p).alive = s.alive ∧
    (enqueueIn s ing kind ret p).fences = s.fences ∧ (enqueueIn s ing kind ret p).fepoch = s.fepoch ∧
    (enqueueIn s ing kind ret p).members = s.members ∧ (enqueueIn s ing kind ret p).mepoch = s.mepoch ∧
    (enqueueIn s ing kind ret p).staged = s.staged ∧ (enqueueIn s ing kind ret p).grandfathered = s.grandfathered ∧
    (enqueueIn s ing kind ret p).strags = s.strags ∧ (enqueueIn s ing kind ret p).loader = s.loader ∧
    (enqueueIn s ing kind ret p).oprCred = s.oprCred ∧ (enqueueIn s ing kind ret p).refused = s.refused ∧
    (enqueueIn s ing kind ret p).hostSt = s.hostSt ∧ (enqueueIn s ing kind ret p).power = s.power ∧
    (enqueueIn s ing kind ret p).snap = s.snap ∧ (enqueueIn s ing kind ret p).scribe.st = s.scribe.st ∧
    (enqueueIn s ing kind ret p).scribe.bootCount = s.scribe.bootCount ∧
    (enqueueIn s ing kind ret p).scribe.lastRestart = s.scribe.lastRestart ∧
    (enqueueIn s ing kind ret p).scribe.pIn = s.scribe.pIn ∧ (enqueueIn s ing kind ret p).scribe.vIn = s.scribe.vIn ∧
    (enqueueIn s ing kind ret p).scribe.iIn = s.scribe.iIn ∧ (enqueueIn s ing kind ret p).scribe.tHot = s.scribe.tHot ∧
    (enqueueIn s ing kind ret p).scribe.tHotSite = s.scribe.tHotSite ∧
    (enqueueIn s ing kind ret p).scribe.diodes = s.scribe.diodes ∧
    (enqueueIn s ing kind ret p).scribe.stackT = s.scribe.stackT ∧
    (enqueueIn s ing kind ret p).scribe.coolIn = s.scribe.coolIn ∧
    (enqueueIn s ing kind ret p).scribe.coolOut = s.scribe.coolOut ∧
    (enqueueIn s ing kind ret p).scribe.tach0 = s.scribe.tach0 ∧ (enqueueIn s ing kind ret p).scribe.tach1 = s.scribe.tach1 ∧
    (enqueueIn s ing kind ret p).scribe.rails = s.scribe.rails ∧ (enqueueIn s ing kind ret p).scribe.energy = s.scribe.energy ∧
    (enqueueIn s ing kind ret p).scribe.pHeld = s.scribe.pHeld ∧ (enqueueIn s ing kind ret p).scribe.tHeld = s.scribe.tHeld ∧
    (enqueueIn s ing kind ret p).scribe.invalid = s.scribe.invalid ∧
    (enqueueIn s ing kind ret p).scribe.demand = s.scribe.demand ∧
    (enqueueIn s ing kind ret p).scribe.integral = s.scribe.integral ∧
    (enqueueIn s ing kind ret p).scribe.pumpDuty = s.scribe.pumpDuty ∧
    (enqueueIn s ing kind ret p).scribe.valveDuty = s.scribe.valveDuty ∧
    (enqueueIn s ing kind ret p).scribe.upMs = s.scribe.upMs ∧
    (enqueueIn s ing kind ret p).scribe.inletHigh = s.scribe.inletHigh ∧
    (enqueueIn s ing kind ret p).scribe.tachLow = s.scribe.tachLow ∧
    (enqueueIn s ing kind ret p).scribe.divisor = s.scribe.divisor ∧
    (enqueueIn s ing kind ret p).scribe.tempDiv = s.scribe.tempDiv ∧
    (enqueueIn s ing kind ret p).scribe.powDiv = s.scribe.powDiv ∧
    (enqueueIn s ing kind ret p).scribe.powHigh = s.scribe.powHigh ∧
    (enqueueIn s ing kind ret p).scribe.tripped = s.scribe.tripped ∧
    (enqueueIn s ing kind ret p).scribe.tripLow = s.scribe.tripLow ∧
    (enqueueIn s ing kind ret p).scribe.linkA = s.scribe.linkA ∧ (enqueueIn s ing kind ret p).scribe.linkB = s.scribe.linkB ∧
    (enqueueIn s ing kind ret p).scribe.bypass = s.scribe.bypass ∧ (enqueueIn s ing kind ret p).scribe.plog = s.scribe.plog ∧
    (enqueueIn s ing kind ret p).scribe.plogNext = s.scribe.plogNext ∧
    (enqueueIn s ing kind ret p).scribe.fwSt = s.scribe.fwSt ∧
    (enqueueIn s ing kind ret p).scribe.fwResult = s.scribe.fwResult ∧
    (enqueueIn s ing kind ret p).scribe.staging = s.scribe.staging ∧
    (enqueueIn s ing kind ret p).scribe.flash = s.scribe.flash ∧ (enqueueIn s ing kind ret p).scribe.fwVer = s.scribe.fwVer ∧
    (enqueueIn s ing kind ret p).scribe.fwSvn = s.scribe.fwSvn ∧
    (enqueueIn s ing kind ret p).scribe.fwDigest = s.scribe.fwDigest ∧
    (enqueueIn s ing kind ret p).scribe.rollback = s.scribe.rollback ∧
    (enqueueIn s ing kind ret p).scribe.recovered = s.scribe.recovered :=
  noTraffic_fields (enqueueIn_noTraffic s ing kind ret p)

@[simp] theorem enqueueIn_reads (s : State) (ing : Nat) (kind : HeldKind) (ret : Option HostRet) (p : Packet) :
    (∀ j, (enqueueIn s ing kind ret p).o j = s.o j) ∧ (∀ j, (enqueueIn s ing kind ret p).b j = s.b j) ∧
    (∀ j, (enqueueIn s ing kind ret p).port j = s.port j) ∧ (∀ j, (enqueueIn s ing kind ret p).outSt j = s.outSt j) ∧
    (∀ j, (enqueueIn s ing kind ret p).part j = s.part j) ∧ (∀ j, (enqueueIn s ing kind ret p).folio j = s.folio j) ∧
    (∀ j, (enqueueIn s ing kind ret p).domain j = s.domain j) ∧ (∀ j, (enqueueIn s ing kind ret p).ctx j = s.ctx j) ∧
    (∀ j, (enqueueIn s ing kind ret p).table j = s.table j) ∧ (∀ j, (enqueueIn s ing kind ret p).quill j = s.quill j) ∧
    (∀ j, (enqueueIn s ing kind ret p).object j = s.object j) ∧ (∀ j, (enqueueIn s ing kind ret p).sched j = s.sched j) ∧
    (∀ j, (enqueueIn s ing kind ret p).slot j = s.slot j) ∧ (∀ j, (enqueueIn s ing kind ret p).batch j = s.batch j) ∧
    (∀ j, (enqueueIn s ing kind ret p).region j = s.region j) ∧ (∀ j, (enqueueIn s ing kind ret p).meter j = s.meter j) ∧
    (∀ j, (enqueueIn s ing kind ret p).unit j = s.unit j) ∧ (∀ j, (enqueueIn s ing kind ret p).hostP j = s.hostP j) ∧
    (∀ j, (enqueueIn s ing kind ret p).mac j = s.mac j) ∧ (∀ j, (enqueueIn s ing kind ret p).strag j = s.strag j) ∧
    (∀ j, (enqueueIn s ing kind ret p).routeSlot j = s.routeSlot j) ∧
    (∀ i j l, (enqueueIn s ing kind ret p).key i j l = s.key i j l) := by
  and_intros <;> intros <;> simp [State.o, State.b, State.port, State.outSt, State.part, State.folio, State.domain, State.ctx,
    State.table, State.quill, State.object, State.sched, State.slot, State.batch, State.region, State.meter, State.unit,
    State.hostP, State.mac, State.strag, State.inputQ, State.routeSlot, State.key]

@[simp] theorem originate_frame (s : State) (ing : Nat) (kind : HeldKind) (ps : List Packet) :
    (originate s ing kind ps).pending = s.pending ∧ (originate s ing kind ps).time = s.time ∧
    (originate s ing kind ps).timebase = s.timebase ∧ (originate s ing kind ps).obj = s.obj ∧
    (originate s ing kind ps).blob = s.blob ∧ (originate s ing kind ps).qos = s.qos ∧ (originate s ing kind ps).free = s.free ∧
    (originate s ing kind ps).ports = s.ports ∧ (originate s ing kind ps).keys = s.keys ∧ (originate s ing kind ps).kx = s.kx ∧
    (originate s ing kind ps).rawOut = s.rawOut ∧ (originate s ing kind ps).epPrev = s.epPrev ∧
    (originate s ing kind ps).epTime = s.epTime ∧ (originate s ing kind ps).slot0 = s.slot0 ∧
    (originate s ing kind ps).slot1 = s.slot1 ∧ (originate s ing kind ps).ligs = s.ligs ∧
    (originate s ing kind ps).spine = s.spine ∧ (originate s ing kind ps).spinePtr = s.spinePtr ∧
    (originate s ing kind ps).outs = s.outs ∧ (originate s ing kind ps).meters = s.meters ∧
    (originate s ing kind ps).holds = s.holds ∧ (originate s ing kind ps).draws = s.draws ∧
    (originate s ing kind ps).notices = s.notices ∧ (originate s ing kind ps).asm = s.asm ∧
    (originate s ing kind ps).badMsgs = s.badMsgs ∧ (originate s ing kind ps).delivered = s.delivered ∧
    (originate s ing kind ps).tags = s.tags ∧ (originate s ing kind ps).late = s.late ∧
    (originate s ing kind ps).journal = s.journal ∧ (originate s ing kind ps).ligRecs = s.ligRecs ∧
    (originate s ing kind ps).opRecs = s.opRecs ∧ (originate s ing kind ps).mem = s.mem ∧
    (originate s ing kind ps).poison = s.poison ∧ (originate s ing kind ps).domains = s.domains ∧
    (originate s ing kind ps).dir = s.dir ∧ (originate s ing kind ps).txns = s.txns ∧
    (originate s ing kind ps).cohWait = s.cohWait ∧ (originate s ing kind ps).folios = s.folios ∧
    (originate s ing kind ps).reissues = s.reissues ∧ (originate s ing kind ps).regions = s.regions ∧
    (originate s ing kind ps).vloads = s.vloads ∧ (originate s ing kind ps).waitPubs = s.waitPubs ∧
    (originate s ing kind ps).ctxs = s.ctxs ∧ (originate s ing kind ps).chunks = s.chunks ∧
    (originate s ing kind ps).tables = s.tables ∧ (originate s ing kind ps).quills = s.quills ∧
    (originate s ing kind ps).objects = s.objects ∧ (originate s ing kind ps).moves = s.moves ∧
    (originate s ing kind ps).moveQ = s.moveQ ∧ (originate s ing kind ps).transitWait = s.transitWait ∧
    (originate s ing kind ps).scheds = s.scheds ∧ (originate s ing kind ps).pfPool = s.pfPool ∧
    (originate s ing kind ps).slots = s.slots ∧ (originate s ing kind ps).basisJobs = s.basisJobs ∧
    (originate s ing kind ps).encJobs = s.encJobs ∧ (originate s ing kind ps).expanders = s.expanders ∧
    (originate s ing kind ps).expResps = s.expResps ∧ (originate s ing kind ps).batches = s.batches ∧
    (originate s ing kind ps).parts = s.parts ∧ (originate s ing kind ps).macsec = s.macsec ∧
    (originate s ing kind ps).units = s.units ∧ (originate s ing kind ps).standIn = s.standIn ∧
    (originate s ing kind ps).dumap = s.dumap ∧ (originate s ing kind ps).watches = s.watches ∧
    (originate s ing kind ps).hbSeq = s.hbSeq ∧ (originate s ing kind ps).hbHeard = s.hbHeard ∧
    (originate s ing kind ps).dead = s.dead ∧ (originate s ing kind ps).alive = s.alive ∧
    (originate s ing kind ps).fences = s.fences ∧ (originate s ing kind ps).fepoch = s.fepoch ∧
    (originate s ing kind ps).members = s.members ∧ (originate s ing kind ps).mepoch = s.mepoch ∧
    (originate s ing kind ps).staged = s.staged ∧ (originate s ing kind ps).grandfathered = s.grandfathered ∧
    (originate s ing kind ps).strags = s.strags ∧ (originate s ing kind ps).loader = s.loader ∧
    (originate s ing kind ps).oprCred = s.oprCred ∧ (originate s ing kind ps).refused = s.refused ∧
    (originate s ing kind ps).hostSt = s.hostSt ∧ (originate s ing kind ps).power = s.power ∧
    (originate s ing kind ps).snap = s.snap ∧ (originate s ing kind ps).scribe.st = s.scribe.st ∧
    (originate s ing kind ps).scribe.bootCount = s.scribe.bootCount ∧
    (originate s ing kind ps).scribe.lastRestart = s.scribe.lastRestart ∧ (originate s ing kind ps).scribe.pIn = s.scribe.pIn ∧
    (originate s ing kind ps).scribe.vIn = s.scribe.vIn ∧ (originate s ing kind ps).scribe.iIn = s.scribe.iIn ∧
    (originate s ing kind ps).scribe.tHot = s.scribe.tHot ∧ (originate s ing kind ps).scribe.tHotSite = s.scribe.tHotSite ∧
    (originate s ing kind ps).scribe.diodes = s.scribe.diodes ∧ (originate s ing kind ps).scribe.stackT = s.scribe.stackT ∧
    (originate s ing kind ps).scribe.coolIn = s.scribe.coolIn ∧ (originate s ing kind ps).scribe.coolOut = s.scribe.coolOut ∧
    (originate s ing kind ps).scribe.tach0 = s.scribe.tach0 ∧ (originate s ing kind ps).scribe.tach1 = s.scribe.tach1 ∧
    (originate s ing kind ps).scribe.rails = s.scribe.rails ∧ (originate s ing kind ps).scribe.energy = s.scribe.energy ∧
    (originate s ing kind ps).scribe.pHeld = s.scribe.pHeld ∧ (originate s ing kind ps).scribe.tHeld = s.scribe.tHeld ∧
    (originate s ing kind ps).scribe.invalid = s.scribe.invalid ∧ (originate s ing kind ps).scribe.demand = s.scribe.demand ∧
    (originate s ing kind ps).scribe.integral = s.scribe.integral ∧
    (originate s ing kind ps).scribe.pumpDuty = s.scribe.pumpDuty ∧
    (originate s ing kind ps).scribe.valveDuty = s.scribe.valveDuty ∧ (originate s ing kind ps).scribe.upMs = s.scribe.upMs ∧
    (originate s ing kind ps).scribe.inletHigh = s.scribe.inletHigh ∧
    (originate s ing kind ps).scribe.tachLow = s.scribe.tachLow ∧ (originate s ing kind ps).scribe.divisor = s.scribe.divisor ∧
    (originate s ing kind ps).scribe.tempDiv = s.scribe.tempDiv ∧ (originate s ing kind ps).scribe.powDiv = s.scribe.powDiv ∧
    (originate s ing kind ps).scribe.powHigh = s.scribe.powHigh ∧ (originate s ing kind ps).scribe.tripped = s.scribe.tripped ∧
    (originate s ing kind ps).scribe.tripLow = s.scribe.tripLow ∧ (originate s ing kind ps).scribe.linkA = s.scribe.linkA ∧
    (originate s ing kind ps).scribe.linkB = s.scribe.linkB ∧ (originate s ing kind ps).scribe.bypass = s.scribe.bypass ∧
    (originate s ing kind ps).scribe.plog = s.scribe.plog ∧ (originate s ing kind ps).scribe.plogNext = s.scribe.plogNext ∧
    (originate s ing kind ps).scribe.fwSt = s.scribe.fwSt ∧ (originate s ing kind ps).scribe.fwResult = s.scribe.fwResult ∧
    (originate s ing kind ps).scribe.staging = s.scribe.staging ∧ (originate s ing kind ps).scribe.flash = s.scribe.flash ∧
    (originate s ing kind ps).scribe.fwVer = s.scribe.fwVer ∧ (originate s ing kind ps).scribe.fwSvn = s.scribe.fwSvn ∧
    (originate s ing kind ps).scribe.fwDigest = s.scribe.fwDigest ∧
    (originate s ing kind ps).scribe.rollback = s.scribe.rollback ∧
    (originate s ing kind ps).scribe.recovered = s.scribe.recovered :=
  noTraffic_fields (originate_noTraffic s ing kind ps)

@[simp] theorem originate_reads (s : State) (ing : Nat) (kind : HeldKind) (ps : List Packet) :
    (∀ j, (originate s ing kind ps).o j = s.o j) ∧ (∀ j, (originate s ing kind ps).b j = s.b j) ∧
    (∀ j, (originate s ing kind ps).port j = s.port j) ∧ (∀ j, (originate s ing kind ps).outSt j = s.outSt j) ∧
    (∀ j, (originate s ing kind ps).part j = s.part j) ∧ (∀ j, (originate s ing kind ps).folio j = s.folio j) ∧
    (∀ j, (originate s ing kind ps).domain j = s.domain j) ∧ (∀ j, (originate s ing kind ps).ctx j = s.ctx j) ∧
    (∀ j, (originate s ing kind ps).table j = s.table j) ∧ (∀ j, (originate s ing kind ps).quill j = s.quill j) ∧
    (∀ j, (originate s ing kind ps).object j = s.object j) ∧ (∀ j, (originate s ing kind ps).sched j = s.sched j) ∧
    (∀ j, (originate s ing kind ps).slot j = s.slot j) ∧ (∀ j, (originate s ing kind ps).batch j = s.batch j) ∧
    (∀ j, (originate s ing kind ps).region j = s.region j) ∧ (∀ j, (originate s ing kind ps).meter j = s.meter j) ∧
    (∀ j, (originate s ing kind ps).unit j = s.unit j) ∧ (∀ j, (originate s ing kind ps).hostP j = s.hostP j) ∧
    (∀ j, (originate s ing kind ps).mac j = s.mac j) ∧ (∀ j, (originate s ing kind ps).strag j = s.strag j) ∧
    (∀ j, (originate s ing kind ps).routeSlot j = s.routeSlot j) ∧ (∀ i j l, (originate s ing kind ps).key i j l = s.key i j l) := by
  and_intros <;> intros <;> simp [State.o, State.b, State.port, State.outSt, State.part, State.folio, State.domain, State.ctx,
    State.table, State.quill, State.object, State.sched, State.slot, State.batch, State.region, State.meter, State.unit,
    State.hostP, State.mac, State.strag, State.inputQ, State.routeSlot, State.key]

@[simp] theorem complete_frame (s : State) (ing : Nat) (h : Hdr) (st cflg : BitVec 8) (cdat : BitVec 16) :
    (complete s ing h st cflg cdat).pending = s.pending ∧ (complete s ing h st cflg cdat).time = s.time ∧
    (complete s ing h st cflg cdat).timebase = s.timebase ∧ (complete s ing h st cflg cdat).obj = s.obj ∧
    (complete s ing h st cflg cdat).blob = s.blob ∧ (complete s ing h st cflg cdat).qos = s.qos ∧
    (complete s ing h st cflg cdat).free = s.free ∧ (complete s ing h st cflg cdat).ports = s.ports ∧
    (complete s ing h st cflg cdat).keys = s.keys ∧ (complete s ing h st cflg cdat).kx = s.kx ∧
    (complete s ing h st cflg cdat).rawOut = s.rawOut ∧ (complete s ing h st cflg cdat).epPrev = s.epPrev ∧
    (complete s ing h st cflg cdat).epTime = s.epTime ∧ (complete s ing h st cflg cdat).slot0 = s.slot0 ∧
    (complete s ing h st cflg cdat).slot1 = s.slot1 ∧ (complete s ing h st cflg cdat).ligs = s.ligs ∧
    (complete s ing h st cflg cdat).spine = s.spine ∧ (complete s ing h st cflg cdat).spinePtr = s.spinePtr ∧
    (complete s ing h st cflg cdat).outs = s.outs ∧ (complete s ing h st cflg cdat).meters = s.meters ∧
    (complete s ing h st cflg cdat).holds = s.holds ∧ (complete s ing h st cflg cdat).draws = s.draws ∧
    (complete s ing h st cflg cdat).notices = s.notices ∧ (complete s ing h st cflg cdat).asm = s.asm ∧
    (complete s ing h st cflg cdat).badMsgs = s.badMsgs ∧ (complete s ing h st cflg cdat).delivered = s.delivered ∧
    (complete s ing h st cflg cdat).tags = s.tags ∧ (complete s ing h st cflg cdat).late = s.late ∧
    (complete s ing h st cflg cdat).journal = s.journal ∧ (complete s ing h st cflg cdat).ligRecs = s.ligRecs ∧
    (complete s ing h st cflg cdat).opRecs = s.opRecs ∧ (complete s ing h st cflg cdat).mem = s.mem ∧
    (complete s ing h st cflg cdat).poison = s.poison ∧ (complete s ing h st cflg cdat).domains = s.domains ∧
    (complete s ing h st cflg cdat).dir = s.dir ∧ (complete s ing h st cflg cdat).txns = s.txns ∧
    (complete s ing h st cflg cdat).cohWait = s.cohWait ∧ (complete s ing h st cflg cdat).folios = s.folios ∧
    (complete s ing h st cflg cdat).reissues = s.reissues ∧ (complete s ing h st cflg cdat).regions = s.regions ∧
    (complete s ing h st cflg cdat).vloads = s.vloads ∧ (complete s ing h st cflg cdat).waitPubs = s.waitPubs ∧
    (complete s ing h st cflg cdat).ctxs = s.ctxs ∧ (complete s ing h st cflg cdat).chunks = s.chunks ∧
    (complete s ing h st cflg cdat).tables = s.tables ∧ (complete s ing h st cflg cdat).quills = s.quills ∧
    (complete s ing h st cflg cdat).objects = s.objects ∧ (complete s ing h st cflg cdat).moves = s.moves ∧
    (complete s ing h st cflg cdat).moveQ = s.moveQ ∧ (complete s ing h st cflg cdat).transitWait = s.transitWait ∧
    (complete s ing h st cflg cdat).scheds = s.scheds ∧ (complete s ing h st cflg cdat).pfPool = s.pfPool ∧
    (complete s ing h st cflg cdat).slots = s.slots ∧ (complete s ing h st cflg cdat).basisJobs = s.basisJobs ∧
    (complete s ing h st cflg cdat).encJobs = s.encJobs ∧ (complete s ing h st cflg cdat).expanders = s.expanders ∧
    (complete s ing h st cflg cdat).expResps = s.expResps ∧ (complete s ing h st cflg cdat).batches = s.batches ∧
    (complete s ing h st cflg cdat).parts = s.parts ∧ (complete s ing h st cflg cdat).macsec = s.macsec ∧
    (complete s ing h st cflg cdat).units = s.units ∧ (complete s ing h st cflg cdat).standIn = s.standIn ∧
    (complete s ing h st cflg cdat).dumap = s.dumap ∧ (complete s ing h st cflg cdat).watches = s.watches ∧
    (complete s ing h st cflg cdat).hbSeq = s.hbSeq ∧ (complete s ing h st cflg cdat).hbHeard = s.hbHeard ∧
    (complete s ing h st cflg cdat).dead = s.dead ∧ (complete s ing h st cflg cdat).alive = s.alive ∧
    (complete s ing h st cflg cdat).fences = s.fences ∧ (complete s ing h st cflg cdat).fepoch = s.fepoch ∧
    (complete s ing h st cflg cdat).members = s.members ∧ (complete s ing h st cflg cdat).mepoch = s.mepoch ∧
    (complete s ing h st cflg cdat).staged = s.staged ∧ (complete s ing h st cflg cdat).grandfathered = s.grandfathered ∧
    (complete s ing h st cflg cdat).strags = s.strags ∧ (complete s ing h st cflg cdat).loader = s.loader ∧
    (complete s ing h st cflg cdat).oprCred = s.oprCred ∧ (complete s ing h st cflg cdat).refused = s.refused ∧
    (complete s ing h st cflg cdat).hostSt = s.hostSt ∧ (complete s ing h st cflg cdat).power = s.power ∧
    (complete s ing h st cflg cdat).snap = s.snap ∧ (complete s ing h st cflg cdat).scribe.st = s.scribe.st ∧
    (complete s ing h st cflg cdat).scribe.bootCount = s.scribe.bootCount ∧
    (complete s ing h st cflg cdat).scribe.lastRestart = s.scribe.lastRestart ∧
    (complete s ing h st cflg cdat).scribe.pIn = s.scribe.pIn ∧ (complete s ing h st cflg cdat).scribe.vIn = s.scribe.vIn ∧
    (complete s ing h st cflg cdat).scribe.iIn = s.scribe.iIn ∧ (complete s ing h st cflg cdat).scribe.tHot = s.scribe.tHot ∧
    (complete s ing h st cflg cdat).scribe.tHotSite = s.scribe.tHotSite ∧
    (complete s ing h st cflg cdat).scribe.diodes = s.scribe.diodes ∧
    (complete s ing h st cflg cdat).scribe.stackT = s.scribe.stackT ∧
    (complete s ing h st cflg cdat).scribe.coolIn = s.scribe.coolIn ∧
    (complete s ing h st cflg cdat).scribe.coolOut = s.scribe.coolOut ∧
    (complete s ing h st cflg cdat).scribe.tach0 = s.scribe.tach0 ∧
    (complete s ing h st cflg cdat).scribe.tach1 = s.scribe.tach1 ∧
    (complete s ing h st cflg cdat).scribe.rails = s.scribe.rails ∧
    (complete s ing h st cflg cdat).scribe.energy = s.scribe.energy ∧
    (complete s ing h st cflg cdat).scribe.pHeld = s.scribe.pHeld ∧
    (complete s ing h st cflg cdat).scribe.tHeld = s.scribe.tHeld ∧
    (complete s ing h st cflg cdat).scribe.invalid = s.scribe.invalid ∧
    (complete s ing h st cflg cdat).scribe.demand = s.scribe.demand ∧
    (complete s ing h st cflg cdat).scribe.integral = s.scribe.integral ∧
    (complete s ing h st cflg cdat).scribe.pumpDuty = s.scribe.pumpDuty ∧
    (complete s ing h st cflg cdat).scribe.valveDuty = s.scribe.valveDuty ∧
    (complete s ing h st cflg cdat).scribe.upMs = s.scribe.upMs ∧
    (complete s ing h st cflg cdat).scribe.inletHigh = s.scribe.inletHigh ∧
    (complete s ing h st cflg cdat).scribe.tachLow = s.scribe.tachLow ∧
    (complete s ing h st cflg cdat).scribe.divisor = s.scribe.divisor ∧
    (complete s ing h st cflg cdat).scribe.tempDiv = s.scribe.tempDiv ∧
    (complete s ing h st cflg cdat).scribe.powDiv = s.scribe.powDiv ∧
    (complete s ing h st cflg cdat).scribe.powHigh = s.scribe.powHigh ∧
    (complete s ing h st cflg cdat).scribe.tripped = s.scribe.tripped ∧
    (complete s ing h st cflg cdat).scribe.tripLow = s.scribe.tripLow ∧
    (complete s ing h st cflg cdat).scribe.linkA = s.scribe.linkA ∧
    (complete s ing h st cflg cdat).scribe.linkB = s.scribe.linkB ∧
    (complete s ing h st cflg cdat).scribe.bypass = s.scribe.bypass ∧
    (complete s ing h st cflg cdat).scribe.plog = s.scribe.plog ∧
    (complete s ing h st cflg cdat).scribe.plogNext = s.scribe.plogNext ∧
    (complete s ing h st cflg cdat).scribe.fwSt = s.scribe.fwSt ∧
    (complete s ing h st cflg cdat).scribe.fwResult = s.scribe.fwResult ∧
    (complete s ing h st cflg cdat).scribe.staging = s.scribe.staging ∧
    (complete s ing h st cflg cdat).scribe.flash = s.scribe.flash ∧
    (complete s ing h st cflg cdat).scribe.fwVer = s.scribe.fwVer ∧
    (complete s ing h st cflg cdat).scribe.fwSvn = s.scribe.fwSvn ∧
    (complete s ing h st cflg cdat).scribe.fwDigest = s.scribe.fwDigest ∧
    (complete s ing h st cflg cdat).scribe.rollback = s.scribe.rollback ∧
    (complete s ing h st cflg cdat).scribe.recovered = s.scribe.recovered :=
  noTraffic_fields (complete_noTraffic s ing h st cflg cdat)

@[simp] theorem complete_reads (s : State) (ing : Nat) (h : Hdr) (st cflg : BitVec 8) (cdat : BitVec 16) :
    (∀ j, (complete s ing h st cflg cdat).o j = s.o j) ∧ (∀ j, (complete s ing h st cflg cdat).b j = s.b j) ∧
    (∀ j, (complete s ing h st cflg cdat).port j = s.port j) ∧ (∀ j, (complete s ing h st cflg cdat).outSt j = s.outSt j) ∧
    (∀ j, (complete s ing h st cflg cdat).part j = s.part j) ∧ (∀ j, (complete s ing h st cflg cdat).folio j = s.folio j) ∧
    (∀ j, (complete s ing h st cflg cdat).domain j = s.domain j) ∧ (∀ j, (complete s ing h st cflg cdat).ctx j = s.ctx j) ∧
    (∀ j, (complete s ing h st cflg cdat).table j = s.table j) ∧ (∀ j, (complete s ing h st cflg cdat).quill j = s.quill j) ∧
    (∀ j, (complete s ing h st cflg cdat).object j = s.object j) ∧ (∀ j, (complete s ing h st cflg cdat).sched j = s.sched j) ∧
    (∀ j, (complete s ing h st cflg cdat).slot j = s.slot j) ∧ (∀ j, (complete s ing h st cflg cdat).batch j = s.batch j) ∧
    (∀ j, (complete s ing h st cflg cdat).region j = s.region j) ∧ (∀ j, (complete s ing h st cflg cdat).meter j = s.meter j) ∧
    (∀ j, (complete s ing h st cflg cdat).unit j = s.unit j) ∧ (∀ j, (complete s ing h st cflg cdat).hostP j = s.hostP j) ∧
    (∀ j, (complete s ing h st cflg cdat).mac j = s.mac j) ∧ (∀ j, (complete s ing h st cflg cdat).strag j = s.strag j) ∧
    (∀ j, (complete s ing h st cflg cdat).routeSlot j = s.routeSlot j) ∧
    (∀ i j l, (complete s ing h st cflg cdat).key i j l = s.key i j l) := by
  and_intros <;> intros <;> simp [State.o, State.b, State.port, State.outSt, State.part, State.folio, State.domain, State.ctx,
    State.table, State.quill, State.object, State.sched, State.slot, State.batch, State.region, State.meter, State.unit,
    State.hostP, State.mac, State.strag, State.inputQ, State.routeSlot, State.key]

@[simp] theorem completeData_frame (s : State) (ing : Nat) (h : Hdr) (cflg : BitVec 8) (cdat : BitVec 16) (body : List Byte) :
    (completeData s ing h cflg cdat body).pending = s.pending ∧ (completeData s ing h cflg cdat body).time = s.time ∧
    (completeData s ing h cflg cdat body).timebase = s.timebase ∧ (completeData s ing h cflg cdat body).obj = s.obj ∧
    (completeData s ing h cflg cdat body).blob = s.blob ∧ (completeData s ing h cflg cdat body).qos = s.qos ∧
    (completeData s ing h cflg cdat body).free = s.free ∧ (completeData s ing h cflg cdat body).ports = s.ports ∧
    (completeData s ing h cflg cdat body).keys = s.keys ∧ (completeData s ing h cflg cdat body).kx = s.kx ∧
    (completeData s ing h cflg cdat body).rawOut = s.rawOut ∧ (completeData s ing h cflg cdat body).epPrev = s.epPrev ∧
    (completeData s ing h cflg cdat body).epTime = s.epTime ∧ (completeData s ing h cflg cdat body).slot0 = s.slot0 ∧
    (completeData s ing h cflg cdat body).slot1 = s.slot1 ∧ (completeData s ing h cflg cdat body).ligs = s.ligs ∧
    (completeData s ing h cflg cdat body).spine = s.spine ∧ (completeData s ing h cflg cdat body).spinePtr = s.spinePtr ∧
    (completeData s ing h cflg cdat body).outs = s.outs ∧ (completeData s ing h cflg cdat body).meters = s.meters ∧
    (completeData s ing h cflg cdat body).holds = s.holds ∧ (completeData s ing h cflg cdat body).draws = s.draws ∧
    (completeData s ing h cflg cdat body).notices = s.notices ∧ (completeData s ing h cflg cdat body).asm = s.asm ∧
    (completeData s ing h cflg cdat body).badMsgs = s.badMsgs ∧ (completeData s ing h cflg cdat body).delivered = s.delivered ∧
    (completeData s ing h cflg cdat body).tags = s.tags ∧ (completeData s ing h cflg cdat body).late = s.late ∧
    (completeData s ing h cflg cdat body).journal = s.journal ∧ (completeData s ing h cflg cdat body).ligRecs = s.ligRecs ∧
    (completeData s ing h cflg cdat body).opRecs = s.opRecs ∧ (completeData s ing h cflg cdat body).mem = s.mem ∧
    (completeData s ing h cflg cdat body).poison = s.poison ∧ (completeData s ing h cflg cdat body).domains = s.domains ∧
    (completeData s ing h cflg cdat body).dir = s.dir ∧ (completeData s ing h cflg cdat body).txns = s.txns ∧
    (completeData s ing h cflg cdat body).cohWait = s.cohWait ∧ (completeData s ing h cflg cdat body).folios = s.folios ∧
    (completeData s ing h cflg cdat body).reissues = s.reissues ∧ (completeData s ing h cflg cdat body).regions = s.regions ∧
    (completeData s ing h cflg cdat body).vloads = s.vloads ∧ (completeData s ing h cflg cdat body).waitPubs = s.waitPubs ∧
    (completeData s ing h cflg cdat body).ctxs = s.ctxs ∧ (completeData s ing h cflg cdat body).chunks = s.chunks ∧
    (completeData s ing h cflg cdat body).tables = s.tables ∧ (completeData s ing h cflg cdat body).quills = s.quills ∧
    (completeData s ing h cflg cdat body).objects = s.objects ∧ (completeData s ing h cflg cdat body).moves = s.moves ∧
    (completeData s ing h cflg cdat body).moveQ = s.moveQ ∧ (completeData s ing h cflg cdat body).transitWait = s.transitWait ∧
    (completeData s ing h cflg cdat body).scheds = s.scheds ∧ (completeData s ing h cflg cdat body).pfPool = s.pfPool ∧
    (completeData s ing h cflg cdat body).slots = s.slots ∧ (completeData s ing h cflg cdat body).basisJobs = s.basisJobs ∧
    (completeData s ing h cflg cdat body).encJobs = s.encJobs ∧ (completeData s ing h cflg cdat body).expanders = s.expanders ∧
    (completeData s ing h cflg cdat body).expResps = s.expResps ∧ (completeData s ing h cflg cdat body).batches = s.batches ∧
    (completeData s ing h cflg cdat body).parts = s.parts ∧ (completeData s ing h cflg cdat body).macsec = s.macsec ∧
    (completeData s ing h cflg cdat body).units = s.units ∧ (completeData s ing h cflg cdat body).standIn = s.standIn ∧
    (completeData s ing h cflg cdat body).dumap = s.dumap ∧ (completeData s ing h cflg cdat body).watches = s.watches ∧
    (completeData s ing h cflg cdat body).hbSeq = s.hbSeq ∧ (completeData s ing h cflg cdat body).hbHeard = s.hbHeard ∧
    (completeData s ing h cflg cdat body).dead = s.dead ∧ (completeData s ing h cflg cdat body).alive = s.alive ∧
    (completeData s ing h cflg cdat body).fences = s.fences ∧ (completeData s ing h cflg cdat body).fepoch = s.fepoch ∧
    (completeData s ing h cflg cdat body).members = s.members ∧ (completeData s ing h cflg cdat body).mepoch = s.mepoch ∧
    (completeData s ing h cflg cdat body).staged = s.staged ∧
    (completeData s ing h cflg cdat body).grandfathered = s.grandfathered ∧
    (completeData s ing h cflg cdat body).strags = s.strags ∧ (completeData s ing h cflg cdat body).loader = s.loader ∧
    (completeData s ing h cflg cdat body).oprCred = s.oprCred ∧ (completeData s ing h cflg cdat body).refused = s.refused ∧
    (completeData s ing h cflg cdat body).hostSt = s.hostSt ∧ (completeData s ing h cflg cdat body).power = s.power ∧
    (completeData s ing h cflg cdat body).snap = s.snap ∧ (completeData s ing h cflg cdat body).scribe.st = s.scribe.st ∧
    (completeData s ing h cflg cdat body).scribe.bootCount = s.scribe.bootCount ∧
    (completeData s ing h cflg cdat body).scribe.lastRestart = s.scribe.lastRestart ∧
    (completeData s ing h cflg cdat body).scribe.pIn = s.scribe.pIn ∧
    (completeData s ing h cflg cdat body).scribe.vIn = s.scribe.vIn ∧
    (completeData s ing h cflg cdat body).scribe.iIn = s.scribe.iIn ∧
    (completeData s ing h cflg cdat body).scribe.tHot = s.scribe.tHot ∧
    (completeData s ing h cflg cdat body).scribe.tHotSite = s.scribe.tHotSite ∧
    (completeData s ing h cflg cdat body).scribe.diodes = s.scribe.diodes ∧
    (completeData s ing h cflg cdat body).scribe.stackT = s.scribe.stackT ∧
    (completeData s ing h cflg cdat body).scribe.coolIn = s.scribe.coolIn ∧
    (completeData s ing h cflg cdat body).scribe.coolOut = s.scribe.coolOut ∧
    (completeData s ing h cflg cdat body).scribe.tach0 = s.scribe.tach0 ∧
    (completeData s ing h cflg cdat body).scribe.tach1 = s.scribe.tach1 ∧
    (completeData s ing h cflg cdat body).scribe.rails = s.scribe.rails ∧
    (completeData s ing h cflg cdat body).scribe.energy = s.scribe.energy ∧
    (completeData s ing h cflg cdat body).scribe.pHeld = s.scribe.pHeld ∧
    (completeData s ing h cflg cdat body).scribe.tHeld = s.scribe.tHeld ∧
    (completeData s ing h cflg cdat body).scribe.invalid = s.scribe.invalid ∧
    (completeData s ing h cflg cdat body).scribe.demand = s.scribe.demand ∧
    (completeData s ing h cflg cdat body).scribe.integral = s.scribe.integral ∧
    (completeData s ing h cflg cdat body).scribe.pumpDuty = s.scribe.pumpDuty ∧
    (completeData s ing h cflg cdat body).scribe.valveDuty = s.scribe.valveDuty ∧
    (completeData s ing h cflg cdat body).scribe.upMs = s.scribe.upMs ∧
    (completeData s ing h cflg cdat body).scribe.inletHigh = s.scribe.inletHigh ∧
    (completeData s ing h cflg cdat body).scribe.tachLow = s.scribe.tachLow ∧
    (completeData s ing h cflg cdat body).scribe.divisor = s.scribe.divisor ∧
    (completeData s ing h cflg cdat body).scribe.tempDiv = s.scribe.tempDiv ∧
    (completeData s ing h cflg cdat body).scribe.powDiv = s.scribe.powDiv ∧
    (completeData s ing h cflg cdat body).scribe.powHigh = s.scribe.powHigh ∧
    (completeData s ing h cflg cdat body).scribe.tripped = s.scribe.tripped ∧
    (completeData s ing h cflg cdat body).scribe.tripLow = s.scribe.tripLow ∧
    (completeData s ing h cflg cdat body).scribe.linkA = s.scribe.linkA ∧
    (completeData s ing h cflg cdat body).scribe.linkB = s.scribe.linkB ∧
    (completeData s ing h cflg cdat body).scribe.bypass = s.scribe.bypass ∧
    (completeData s ing h cflg cdat body).scribe.plog = s.scribe.plog ∧
    (completeData s ing h cflg cdat body).scribe.plogNext = s.scribe.plogNext ∧
    (completeData s ing h cflg cdat body).scribe.fwSt = s.scribe.fwSt ∧
    (completeData s ing h cflg cdat body).scribe.fwResult = s.scribe.fwResult ∧
    (completeData s ing h cflg cdat body).scribe.staging = s.scribe.staging ∧
    (completeData s ing h cflg cdat body).scribe.flash = s.scribe.flash ∧
    (completeData s ing h cflg cdat body).scribe.fwVer = s.scribe.fwVer ∧
    (completeData s ing h cflg cdat body).scribe.fwSvn = s.scribe.fwSvn ∧
    (completeData s ing h cflg cdat body).scribe.fwDigest = s.scribe.fwDigest ∧
    (completeData s ing h cflg cdat body).scribe.rollback = s.scribe.rollback ∧
    (completeData s ing h cflg cdat body).scribe.recovered = s.scribe.recovered :=
  noTraffic_fields (completeData_noTraffic s ing h cflg cdat body)

@[simp] theorem completeData_reads (s : State) (ing : Nat) (h : Hdr) (cflg : BitVec 8) (cdat : BitVec 16) (body : List Byte) :
    (∀ j, (completeData s ing h cflg cdat body).o j = s.o j) ∧ (∀ j, (completeData s ing h cflg cdat body).b j = s.b j) ∧
    (∀ j, (completeData s ing h cflg cdat body).port j = s.port j) ∧
    (∀ j, (completeData s ing h cflg cdat body).outSt j = s.outSt j) ∧
    (∀ j, (completeData s ing h cflg cdat body).part j = s.part j) ∧
    (∀ j, (completeData s ing h cflg cdat body).folio j = s.folio j) ∧
    (∀ j, (completeData s ing h cflg cdat body).domain j = s.domain j) ∧
    (∀ j, (completeData s ing h cflg cdat body).ctx j = s.ctx j) ∧
    (∀ j, (completeData s ing h cflg cdat body).table j = s.table j) ∧
    (∀ j, (completeData s ing h cflg cdat body).quill j = s.quill j) ∧
    (∀ j, (completeData s ing h cflg cdat body).object j = s.object j) ∧
    (∀ j, (completeData s ing h cflg cdat body).sched j = s.sched j) ∧
    (∀ j, (completeData s ing h cflg cdat body).slot j = s.slot j) ∧
    (∀ j, (completeData s ing h cflg cdat body).batch j = s.batch j) ∧
    (∀ j, (completeData s ing h cflg cdat body).region j = s.region j) ∧
    (∀ j, (completeData s ing h cflg cdat body).meter j = s.meter j) ∧
    (∀ j, (completeData s ing h cflg cdat body).unit j = s.unit j) ∧
    (∀ j, (completeData s ing h cflg cdat body).hostP j = s.hostP j) ∧
    (∀ j, (completeData s ing h cflg cdat body).mac j = s.mac j) ∧
    (∀ j, (completeData s ing h cflg cdat body).strag j = s.strag j) ∧
    (∀ j, (completeData s ing h cflg cdat body).routeSlot j = s.routeSlot j) ∧
    (∀ i j l, (completeData s ing h cflg cdat body).key i j l = s.key i j l) := by
  and_intros <;> intros <;> simp [State.o, State.b, State.port, State.outSt, State.part, State.folio, State.domain, State.ctx,
    State.table, State.quill, State.object, State.sched, State.slot, State.batch, State.region, State.meter, State.unit,
    State.hostP, State.mac, State.strag, State.inputQ, State.routeSlot, State.key]

end Sys2Proof.Machine
end

