-- ==== Sys2Proof/Laws/Access.lean ====
section
/-! SUPPORT. What the guards of a dictionary write answer, and the answer of a write that is performed (R481). -/

namespace Sys2Proof.Machine

@[simp] theorem guardRole_true (s : State) (r : Ans) : guardRole s true r = r := rfl
@[simp] theorem guardRole_false (s : State) (r : Ans) : guardRole s false r = Ans.no s Ds.accessDenied := rfl
@[simp] theorem guardRange_true (s : State) (r : Ans) : guardRange s true r = r := rfl
@[simp] theorem guardRange_false (s : State) (r : Ans) : guardRange s false r = Ans.no s Ds.outOfRange := rfl
@[simp] theorem guardValue_true (s : State) (r : Ans) : guardValue s true r = r := rfl
@[simp] theorem guardValue_false (s : State) (r : Ans) : guardValue s false r = Ans.no s Ds.valueRejected := rfl

/-- A performed write answers its state with the answer OK appended to what leaves the device. -/
@[simp] theorem Ans.ok_out (s : State) (by_ : Caller) : (Ans.ok s).out by_ = .next (s.emit (.answer by_ Ds.ok 0 [])) := rfl
@[simp] theorem Ans.no_out (s : State) (d : BitVec 8) (by_ : Caller) :
    (Ans.no s d).out by_ = .next (s.emit (.answer by_ d 0 [])) := rfl

/-- The answer OK is the last thing sent. -/
@[simp] theorem writeOk_emit (s : State) (by_ : Caller) : WriteOk by_ (s.emit (.answer by_ Ds.ok 0 [])) := by
  simp [WriteOk]

/-- Records that are all accepted answer OK. -/
theorem recordsAnswer_nil (s : State) : recordsAnswer s [] = Ans.ok s := rfl

/-- A record accepted one at a time, the rest after it. -/
theorem writeRecords_single {α : Type} (f : State → α → Bool × State) (s : State) (r : α) (h : (f s r).1 = true) :
    writeRecords f s [r] = Ans.ok (f s r).2 := by simp [writeRecords, applyRecords, h, recordsAnswer]

end Sys2Proof.Machine
end

