-- ==== Sys2Proof/Laws/Quiet.lean ====
section
/-! SUPPORT. The operations that store nothing to memory: each leaves memory and the queue of waiting commands as they were.
One lemma for each operation, in the order of the model, by unfolding it once and citing those of what it calls; the
meanings' lemmas stand beside them. -/

set_option linter.unusedSimpArgs false
set_option linter.unusedVariables false

set_option Elab.async false

namespace Sys2Proof.Machine
/-- Memory and the queue: what these lemmas follow through an operation. -/
def State.kept (s : State) : List Host.Cell × List Instr := (s.mem, s.pending)
/-- What a meaning answers. -/
theorem next_inj {a b : State} (h : (.next a : Host.Outcome State Fault Refusal) = .next b) : a = b := by cases h; rfl
@[simp] theorem kept_mk x0 x1 x2 x3 x4 x5 x6 x7 x8 x9 x10 x11 x12 x13 x14 x15 x16 x17 x18 x19 x20 x21 x22 x23 x24 x25 x26 x27
    x28 x29 x30 x31 x32 x33 x34 x35 x36 x37 x38 x39 x40 x41 x42 x43 x44 x45 x46 x47 x48 x49 x50 x51 x52 x53 x54 x55 x56 x57 x58
    x59 x60 x61 x62 x63 x64 x65 x66 x67 x68 x69 x70 x71 x72 x73 x74 x75 x76 x77 x78 x79 x80 x81 x82 x83 x84 x85 x86 x87 x88 :
(State.mk x0 x1 x2 x3 x4 x5 x6 x7 x8 x9 x10 x11 x12 x13 x14 x15 x16 x17 x18 x19 x20 x21 x22 x23 x24 x25 x26 x27 x28 x29 x30 x31
x32 x33 x34 x35 x36 x37 x38 x39 x40 x41 x42 x43 x44 x45 x46 x47 x48 x49 x50 x51 x52 x53 x54 x55 x56 x57 x58 x59 x60 x61 x62 x63
x64 x65 x66 x67 x68 x69 x70 x71 x72 x73 x74 x75 x76 x77 x78 x79 x80 x81 x82 x83 x84 x85 x86 x87 x88).kept = (x36, x0) := (rfl)
@[simp] theorem kept_fold (s : State) : (s.mem, s.pending) = s.kept := rfl
@[simp] theorem foldl_kept {α : Type} (f : State → α → State)
    (h : ∀ s a, (f s a).kept = s.kept) (l : List α) (s : State) : (l.foldl f s).kept = s.kept := by
  induction l generalizing s with
  | nil => rfl
  | cons a l ih => simp [ih, h]
@[simp] theorem foldl2_kept {α β : Type} (f : β × State → α → β × State)
    (h : ∀ x a, (f x a).2.kept = x.2.kept) (l : List α) (x : β × State) : (l.foldl f x).2.kept = x.2.kept := by
  induction l generalizing x with
  | nil => rfl
  | cons a l ih => simp [ih, h]
theorem foldl3_kept {α β γ : Type} (f : β × State × γ → α → β × State × γ)
    (h : ∀ x a, (f x a).2.1.kept = x.2.1.kept) (l : List α) (x : β × State × γ) : (l.foldl f x).2.1.kept = x.2.1.kept := by
  induction l generalizing x with
  | nil => rfl
  | cons a l ih => simp [ih, h]
theorem foldl22_kept {α β γ : Type} (f : β × γ × State → α → β × γ × State)
    (h : ∀ x a, (f x a).2.2.kept = x.2.2.kept) (l : List α) (x : β × γ × State) : (l.foldl f x).2.2.kept = x.2.2.kept := by
  induction l generalizing x with
  | nil => rfl
  | cons a l ih => simp [ih, h]
@[simp] theorem ite_kept (c : Prop) [Decidable c] (a b : State) : (if c then a else b).kept = if c then a.kept else b.kept := by
  split <;> rfl

@[simp] theorem State.setO_kept (s : State) (k v : Nat) : (State.setO s k v).kept = s.kept := by simp [State.setO]
@[simp] theorem State.setB_kept (s : State) (k : Nat) (v : List Byte) : (State.setB s k v).kept = s.kept := by simp [State.setB]
@[simp] theorem State.setC_kept (s : State) (k v : Nat) : (State.setC s k v).kept = s.kept := by simp [State.setC]
@[simp] theorem State.bump_kept (s : State) (k n : Nat) : (State.bump s k n).kept = s.kept := by simp [State.bump]
@[simp] theorem State.setPort_kept (s : State) (p : Nat) (v : PortSt) : (State.setPort s p v).kept = s.kept := by simp
    [State.setPort]
@[simp] theorem State.modPort_kept (s : State) (p : Nat) (f : PortSt → PortSt) : (State.modPort s p f).kept = s.kept := by simp
    [State.modPort]
@[simp] theorem State.setOut_kept (s : State) (o : Nat) (v : OutSt) : (State.setOut s o v).kept = s.kept := by simp
    [State.setOut]
@[simp] theorem State.setPart_kept (s : State) (p : Nat) (v : Partition) : (State.setPart s p v).kept = s.kept := by simp
    [State.setPart]
@[simp] theorem State.modPart_kept (s : State) (p : Nat) (f : Partition → Partition) : (State.modPart s p f).kept = s.kept :=
    by simp [State.modPart]
@[simp] theorem State.setFolio_kept (s : State) (i : Nat) (v : Folio) : (State.setFolio s i v).kept = s.kept := by simp
    [State.setFolio]
@[simp] theorem State.setDomain_kept (s : State) (d : Nat) (v : Domain) : (State.setDomain s d v).kept = s.kept := by simp
    [State.setDomain]
@[simp] theorem State.setCtx_kept (s : State) (c : Nat) (v : Ctx) : (State.setCtx s c v).kept = s.kept := by simp [State.setCtx]
@[simp] theorem State.setTable_kept (s : State) (t : Nat) (v : Table) : (State.setTable s t v).kept = s.kept := by simp
    [State.setTable]
@[simp] theorem State.setQuill_kept (s : State) (q : Nat) (v : QuillSt) : (State.setQuill s q v).kept = s.kept := by simp
    [State.setQuill]
@[simp] theorem State.setObject_kept (s : State) (n : Nat) (v : Obj) : (State.setObject s n v).kept = s.kept := by simp
    [State.setObject]
@[simp] theorem State.setSched_kept (s : State) (n : Nat) (v : Sched) : (State.setSched s n v).kept = s.kept := by simp
    [State.setSched]
@[simp] theorem State.setSlot_kept (s : State) (n : Nat) (v : BasisSlot) : (State.setSlot s n v).kept = s.kept := by simp
    [State.setSlot]
@[simp] theorem State.setBatch_kept (s : State) (p : Nat) (v : Batch) : (State.setBatch s p v).kept = s.kept := by simp
    [State.setBatch]
@[simp] theorem State.setRegion_kept (s : State) (r : Nat) (v : Option Region) : (State.setRegion s r v).kept = s.kept := by
    simp [State.setRegion]
@[simp] theorem State.setMeter_kept (s : State) (m : Nat) (v : MeterSt) : (State.setMeter s m v).kept = s.kept := by simp
    [State.setMeter]
@[simp] theorem State.setUnit_kept (s : State) (u : Nat) (v : UnitSt) : (State.setUnit s u v).kept = s.kept := by simp
    [State.setUnit]
@[simp] theorem State.setHrb_kept (s : State) (h : Nat) (v : Hrb) : (State.setHrb s h v).kept = s.kept := by simp [State.setHrb]
@[simp] theorem State.setHostP_kept (s : State) (h : Nat) (v : HostSt) : (State.setHostP s h v).kept = s.kept := by simp
    [State.setHostP]
@[simp] theorem State.setMac_kept (s : State) (h : Nat) (v : Macsec) : (State.setMac s h v).kept = s.kept := by simp
    [State.setMac]
@[simp] theorem State.setStrag_kept (s : State) (m : Nat) (v : Strag) : (State.setStrag s m v).kept = s.kept := by simp
    [State.setStrag]
@[simp] theorem State.setInputQ_kept (s : State) (i : Nat) (v : List Held) : (State.setInputQ s i v).kept = s.kept := by simp
    [State.setInputQ]
@[simp] theorem State.setRouteSlot_kept (s : State) (ep : Bool) (v : RouteSlot) : (State.setRouteSlot s ep v).kept = s.kept :=
    by simp [State.setRouteSlot]
@[simp] theorem State.setKey_kept (s : State) (port part slot : Nat) (v : KeySt) : (State.setKey s port part slot v).kept =
    s.kept := by simp [State.setKey]
@[simp] theorem State.emit_kept (s : State) (o : Out) : (State.emit s o).kept = s.kept := by simp [State.emit]
@[simp] theorem State.takeFree_kept (s : State) (point : Nat) : (State.takeFree s point).2.kept = s.kept := by simp
    [State.takeFree]
@[simp] theorem State.draw_kept (s : State) : (State.draw s).2.kept = s.kept := by simp [State.draw]
@[simp] theorem State.nextSerial_kept (s : State) : (State.nextSerial s).2.kept = s.kept := by simp [State.nextSerial]
@[simp] theorem State.firstIn_kept (s : State) (span what unit : Nat) : (State.firstIn s span what unit).2.kept = s.kept := by
  unfold State.firstIn; dsimp only; (repeat' split) <;> simp
@[simp] theorem endSession_kept (s : State) (sid : BitVec 16) : (endSession s sid).kept = s.kept := by simp [endSession]
@[simp] theorem State.setSession_kept (s : State) (v : Session) : (State.setSession s v).kept = s.kept := by simp
    [State.setSession]
@[simp] theorem dictSend_kept (s : State) (v : Session) (m : DMsg) : (dictSend s v m).kept = s.kept := by simp [dictSend]
@[simp] theorem hrbAttention_kept (s : State) (h : Nat) : (hrbAttention s h).kept = s.kept := by simp [hrbAttention]
@[simp] theorem offer_kept (e : Event) (s : State) (sid : BitVec 16) : (offer e s sid).kept = s.kept := by
  unfold offer; (repeat' split) <;> simp
@[simp] theorem attend_kept (before : Nat) (s : State) (h : Nat) : (attend before s h).kept = s.kept := by simp [attend]
@[simp] theorem deliverEvent_kept (s : State) (e : Event) (only : Session → Bool) : (deliverEvent s e only).kept = s.kept := by
    simp [deliverEvent]
@[simp] theorem logAppend_kept (s : State) (e : Event) : (logAppend s e).kept = s.kept := by simp [logAppend]
@[simp] theorem markPersist_kept (s : State) (logno : BitVec 32) : (markPersist s logno).2.kept = s.kept := by
  unfold markPersist; dsimp only; (repeat' split) <;> simp
@[simp] theorem raiseOnce_kept (s : State) (code epart : Nat) (items : List (Nat × Nat)) (only : Session → Bool) : (raiseOnce s
    code epart items only).2.kept = s.kept := by
  unfold raiseOnce; dsimp only; (repeat' split) <;> simp
@[simp] theorem raiseTo_kept (s : State) (code epart : Nat) (items : List (Nat × Nat)) (only : Session → Bool) : (raiseTo s
    code epart items only).kept = s.kept := by simp [raiseTo]
@[simp] theorem raise_kept (s : State) (code epart : Nat) (items : List (Nat × Nat)) : (raise s code epart items).kept = s.kept
    := by simp [raise]
@[simp] theorem raiseLimited_kept (s : State) (span unit code epart : Nat) (items : List (Nat × Nat)) : (raiseLimited s span
    unit code epart items).kept = s.kept := by simp [raiseLimited]
@[simp] theorem enqueueIn_kept (s : State) (ing : Nat) (kind : HeldKind) (ret : Option HostRet) (p : Packet) : (enqueueIn s ing
    kind ret p).kept = s.kept := by simp [enqueueIn]
@[simp] theorem originate_kept (s : State) (ing : Nat) (kind : HeldKind) (ps : List Packet) : (originate s ing kind ps).kept =
    s.kept := by simp [originate]
@[simp] theorem noteStatus_kept (s : State) (tile : Nat) (st : BitVec 8) : (noteStatus s tile st).kept = s.kept := by simp
    [noteStatus]
@[simp] theorem complete_kept (s : State) (ing : Nat) (h : Hdr) (st cflg : BitVec 8) (cdat : BitVec 16) : (complete s ing h st
    cflg cdat).kept = s.kept := by simp [complete]
@[simp] theorem completeData_kept (s : State) (ing : Nat) (h : Hdr) (cflg : BitVec 8) (cdat : BitVec 16) (body : List Byte) :
    (completeData s ing h cflg cdat body).kept = s.kept := by simp [completeData]
@[simp] theorem sendItem_kept (s : State) (p : Nat) (ltype : BitVec 8) (tspec : BitVec 64) : (sendItem s p ltype tspec).kept =
    s.kept := by simp [sendItem]
@[simp] theorem updateXoff_kept (s : State) (p : Nat) : (updateXoff s p).kept = s.kept := by simp [updateXoff]
@[simp] theorem updateAllXoff_kept (s : State) : (updateAllXoff s).kept = s.kept := by simp [updateAllXoff]
@[simp] theorem setTag_kept (s : State) (e : TagEntry) : (setTag s e).kept = s.kept := by simp [setTag]
@[simp] theorem dropTag_kept (s : State) (k : ReqKey) : (dropTag s k).kept = s.kept := by simp [dropTag]
@[simp] theorem setJournal_kept (s : State) (j : JRec) : (setJournal s j).kept = s.kept := by simp [setJournal]
@[simp] theorem dropJournal_kept (s : State) (k : ReqKey) : (dropJournal s k).kept = s.kept := by simp [dropJournal]
@[simp] theorem noteBlotter_kept (s : State) (t : Nat) : (noteBlotter s t).kept = s.kept := by simp [noteBlotter]
@[simp] theorem takeJournal_kept (s : State) (t : Tile) (h : Hdr) (body : List Byte) (rkind : Nat) (held : Bool) (ing : BitVec
    8) : (takeJournal s t h body rkind held ing).kept = s.kept := by simp [takeJournal]
@[simp] theorem noteEgress_kept (s : State) (k : ReqKey) (out : Nat) : (noteEgress s k out).kept = s.kept := by
  unfold noteEgress; (repeat' split) <;> simp
@[simp] theorem releaseRequest_kept (s : State) (k : ReqKey) : (releaseRequest s k).kept = s.kept := by simp [releaseRequest]
@[simp] theorem finishRequest_kept (s : State) (h : Hdr) (st : BitVec 8) (cdat : BitVec 16) (ret0 : Option HostRet := none) :
    (finishRequest s h st cdat ret0).kept = s.kept := by simp [finishRequest]
@[simp] theorem replayHeld_kept (s : State) (j : JRec) : (replayHeld s j).kept = s.kept := by
  unfold replayHeld; dsimp only; (repeat' split) <;> simp
@[simp] theorem replayTrigger_kept (s : State) (k : ReqKey) : (replayTrigger s k).kept = s.kept := by
  unfold replayTrigger; (repeat' split) <;> simp
@[simp] theorem setOp_kept (s : State) (r : OpRec) : (setOp s r).kept = s.kept := by simp [setOp]
@[simp] theorem openOp_kept (s : State) (h : Hdr) : (openOp s h).kept = s.kept := by simp [openOp]
@[simp] theorem sendOp_kept (s : State) (ing : Nat) (h : Hdr) (r : OpRec) : (sendOp s ing h r).kept = s.kept := by simp [sendOp]
@[simp] theorem finishOnce_kept (s : State) (ing : Nat) (h : Hdr) (st cflg : BitVec 8) (cdat : BitVec 16) (res : Option (BitVec
    64)) : (finishOnce s ing h st cflg cdat res).kept = s.kept := by
  unfold finishOnce; (repeat' split) <;> simp
@[simp] theorem takeDelivered_kept (s : State) (m : Msg) : (takeDelivered s m).kept = s.kept := by simp [takeDelivered]
@[simp] theorem once_kept (s : State) (ing : Nat) (m : Msg) (f : State → State)
    (h : ∀ s, (f s).kept = s.kept) : (once s ing m f).kept = s.kept := by
  unfold once; (repeat' split) <;> simp [h]
@[simp] theorem Ans.ok_kept (s : State) : (Ans.ok s).s.kept = s.kept := rfl
@[simp] theorem Ans.no_kept (s : State) (d) : (Ans.no s d).s.kept = s.kept := rfl
theorem Ans.out_kept {a : Ans} {by_ : Caller} {t : State} (h : a.out by_ = .next t) : t.kept = a.s.kept := by
  unfold Ans.out at h; rw [← next_inj h]; rfl
@[simp] theorem recordsAnswer_kept (s : State) (l) : (recordsAnswer s l).s.kept = s.kept := by unfold recordsAnswer; split <;>
    rfl
@[simp] theorem applyRecords_kept {α : Type} (f : State → α → Bool × State)
    (h : ∀ s a, (f s a).2.kept = s.kept) (s : State) (l : List α) (i : Nat) : (applyRecords f s l i).2.kept = s.kept := by
  induction l generalizing s i with
  | nil => rfl
  | cons a l ih => simp [applyRecords, ih, h]
@[simp] theorem writeRecords_kept {α : Type} (f : State → α → Bool × State)
    (h : ∀ s a, (f s a).2.kept = s.kept) (s : State) (l : List α) : (writeRecords f s l).s.kept = s.kept := by
  unfold writeRecords; simp [applyRecords_kept f h]
@[simp] theorem guardRole_kept (s : State) (b) (r : Ans) : (guardRole s b r).s.kept = if b then r.s.kept else s.kept := by
  unfold guardRole; split <;> simp_all
@[simp] theorem guardRange_kept (s : State) (b) (r : Ans) : (guardRange s b r).s.kept = if b then r.s.kept else s.kept := by
  unfold guardRange; split <;> simp_all
@[simp] theorem guardValue_kept (s : State) (b) (r : Ans) : (guardValue s b r).s.kept = if b then r.s.kept else s.kept := by
  unfold guardValue; split <;> simp_all
@[simp] theorem countStall_kept (s : State) (p t c : Nat) : (countStall s p t c).kept = s.kept := by simp [countStall]
@[simp] theorem stallOnArrival_kept (s : State) (p : Nat) (ws : List Want) : (stallOnArrival s p ws).2.kept = s.kept := by
  unfold stallOnArrival; (repeat' split) <;> simp
@[simp] theorem finishMem_kept (s : State) (m : Msg) (counted : Bool) (r : MemRes) : (finishMem s m counted r).kept = s.kept :=
    by
  unfold finishMem; (repeat' split) <;> simp
@[simp] theorem raiseUncorr_kept (s : State) (p a : Nat) : (raiseUncorr s p a).kept = s.kept := by simp [raiseUncorr]
@[simp] theorem ownHdr_kept (s : State) (op : BitVec 8) (dst : Fid) (part : BitVec 5) (addr aux : Nat) : (ownHdr s op dst part
    addr aux).2.kept = s.kept := by simp [ownHdr]
@[simp] theorem sendOwn_kept (s : State) (q : Nat) (op : BitVec 8) (dst : Fid) (part : BitVec 5) (addr aux : Nat) (body : List
    Byte) : (sendOwn s q op dst part addr aux body).2.kept = s.kept := by simp [sendOwn]
@[simp] theorem readAt_kept (s : State) (ov : Fwd) (q : Nat) (p : BitVec 5) (g : Seg) : (readAt s ov q p g).2.kept = s.kept :=
    by
  unfold readAt; (repeat' split) <;> simp
@[simp] theorem readSub_kept (s : State) (ov : Fwd) (m : Msg) (g : Seg) : (readSub s ov m g).2.kept = s.kept := by simp
    [readSub]
@[simp] theorem forwardSub_kept (s : State) (m : Msg) (g : Seg) (fid : Fid) (ra aux : Nat) (body : List Byte) : (forwardSub s m
    g fid ra aux body).2.kept = s.kept := by simp [forwardSub]
@[simp] theorem overRuns_kept (f : State → Nat → Seg → Sub × State) (s : State) (gs : List Seg)
    (h : ∀ s n g, (f s n g).2.kept = s.kept) : (overRuns f s gs).2.kept = s.kept := by
  unfold overRuns; rw [foldl3_kept]; intro x a; simp [h]
@[simp] theorem readSubs_kept (s : State) (ov : Fwd) (m : Msg) (gs : List Seg) : (readSubs s ov m gs).2.kept = s.kept := by
    simp [readSubs]
@[simp] theorem partDone_kept (s : State) (x : Sub) (st cflg : BitVec 8) (cdat : BitVec 16) (data : List Byte) : (partDone s x
    st cflg cdat data).2.kept = s.kept := by
  unfold partDone; (repeat' split) <;> simp
@[simp] theorem inTurn_kept (s : State) (m : Msg) (f : State → State)
    (h : ∀ s, (f s).kept = s.kept) : (inTurn s m f).kept = s.kept := by
  unfold inTurn; (repeat' split) <;> simp [h]
@[simp] theorem mapSubs_kept (f : Sub → Sub) (s : State) : (mapSubs f s).kept = s.kept := by simp [mapSubs]
@[simp] theorem unitSubDone_kept (s : State) (k : ReqKey) (st : BitVec 8) (data : List Byte) : (unitSubDone s k st data).kept =
    s.kept := by
  unfold unitSubDone; (repeat' split) <;> simp
@[simp] theorem endFetchWait_kept (s : State) (p : Nat) (x : Fetch) : (endFetchWait s p x).kept = s.kept := by simp
    [endFetchWait]
@[simp] theorem startFetch_kept (s : State) (q p : Nat) (x : Fetch) : (startFetch s q p x).2.kept = s.kept := by
  unfold startFetch; (repeat' split) <;> simp
@[simp] theorem startFetches_kept (s : State) (q p : Nat) (xs : List Fetch) : (startFetches s q p xs).2.kept = s.kept := by
  unfold startFetches; rw [foldl2_kept]; intro x a; split <;> simp
@[simp] theorem stallRanges_kept (s : State) (p : Nat) (rs : List (Nat × Nat)) : (stallRanges s p rs).kept = s.kept := by simp
    [stallRanges]
@[simp] theorem noteReserve_kept (s : State) (q before after : Nat) : (noteReserve s q before after).kept = s.kept := by simp
    [noteReserve]
@[simp] theorem chargeEsc_kept (s : State) (q : Nat) (seq : Option Nat) (n : Nat) : (chargeEsc s q seq n).2.kept = s.kept := by
  unfold chargeEsc; (repeat' split) <;> simp
@[simp] theorem countVec_kept (s : State) (v : VecOut) : (countVec s v).kept = s.kept := by simp [countVec]
@[simp] theorem countTrunc_kept (s : State) (q n : Nat) : (countTrunc s q n).kept = s.kept := by simp [countTrunc]
@[simp] theorem mrCompute_kept (s : State) (m : Msg) (o : MrOp) (memBytes : List Byte) : (mrCompute s m o memBytes).2.2.kept =
    s.kept := by simp [mrCompute]
@[simp] theorem countSlow_kept (s : State) (r : Reissue) : (countSlow s r).2.kept = s.kept := by
  unfold countSlow; (repeat' split) <;> simp
@[simp] theorem countNear_kept (s : State) (m : Msg) : (countNear s m).kept = s.kept := by simp [countNear]
@[simp] theorem endReissue_kept (s : State) (r : Reissue) : (endReissue s r).kept = s.kept := by simp [endReissue]
@[simp] theorem noteVersioned_kept (s : State) (m : Msg) : (noteVersioned s m).kept = s.kept := by
  unfold noteVersioned; (repeat' split) <;> simp
@[simp] theorem serveVrec_kept (s : State) (m : Msg) : (serveVrec s m).kept = s.kept := by
  unfold serveVrec; (repeat' split) <;> simp
@[simp] theorem pruneVloads_kept (s : State) : (pruneVloads s).kept = s.kept := by simp [pruneVloads]
@[simp] theorem publishNow_kept (s : State) (m : Msg) : (publishNow s m).kept = s.kept := by
  unfold publishNow; dsimp only; (repeat' split) <;> simp
@[simp] theorem releasePubs_kept (s : State) (region : Nat) : (releasePubs s region).kept = s.kept := by simp [releasePubs]
@[simp] theorem setDir_kept (s : State) (line : Nat) (e : DirEntry) : (setDir s line e).kept = s.kept := by simp [setDir]
@[simp] theorem sendSnoop_kept (s : State) (d a skind : Nat) (req : Hdr) (addr : Addr) (fwd : Fid) : (sendSnoop s d a skind req
    addr fwd).kept = s.kept := by simp [sendSnoop]
@[simp] theorem sendData_kept (s : State) (d a grant : Nat) (place : Bool) (req : Hdr) (addr : Addr) (line : List Byte) :
    (sendData s d a grant place req addr line).kept = s.kept := by simp [sendData]
@[simp] theorem sendSnoops_kept (s : State) (t : Txn) (skind : Nat) (fwd : Fid) (inv : List Nat) : (sendSnoops s t skind fwd
    inv).kept = s.kept := by
  unfold sendSnoops; (repeat' split) <;> simp
@[simp] theorem completeC1_kept (s : State) (t : Txn) (st : BitVec 8) (grant : Nat) : (completeC1 s t st grant).kept = s.kept
    := by simp [completeC1]
@[simp] theorem grantFromMemory_kept (s : State) (t : Txn) (grant : Nat) (e : DirEntry) : (grantFromMemory s t grant e).kept =
    s.kept := by
  unfold grantFromMemory; (repeat' split) <;> simp
@[simp] theorem grantForward_kept (s : State) (t : Txn) (grant : Nat) (e : DirEntry) : (grantForward s t grant e).kept = s.kept
    := by simp [grantForward]
@[simp] theorem placeLine_kept (s : State) (t : Txn) (target : Nat) : (placeLine s t target).kept = s.kept := by
  unfold placeLine; (repeat' split) <;> simp
@[simp] theorem placeLines_kept (s : State) (m : Msg) (ts : List Txn) : (placeLines s m ts).kept = s.kept := by simp
    [placeLines]
@[simp] theorem openLine_kept (j : MemReq) (s : State) (u : LineUse) : (openLine j s u).kept = s.kept := by simp [openLine]
@[simp] theorem waitPiece_kept (s : State) (j : MemReq) (obj tier : Nat) : (waitPiece s j obj tier).kept = s.kept := by simp
    [waitPiece]
@[simp] theorem advanceLast_kept (s : State) (r : Reissue) : (advanceLast s r).kept = s.kept := by simp [advanceLast]
@[simp] theorem replaceTxn_kept (s : State) (old new : Txn) : (replaceTxn s old new).kept = s.kept := by simp [replaceTxn]
@[simp] theorem removeTxn_kept (s : State) (t : Txn) : (removeTxn s t).kept = s.kept := by simp [removeTxn]
theorem execPublish_kept (m : Msg) (s : State) {nxt : State}
    (ee : (execPublish m s) = .next nxt) : nxt.kept = s.kept := by
  unfold execPublish at ee; rw [← next_inj ee]; simp
theorem execPublishRelease_kept (region : BitVec 12) (s : State) {nxt : State}
    (ee : (execPublishRelease region s) = .next nxt) : nxt.kept = s.kept := by
  unfold execPublishRelease at ee; rw [← next_inj ee]; simp
@[simp] theorem chargeTokens_kept (s : State) (o c len : Nat) : (chargeTokens s o c len).kept = s.kept := by simp [chargeTokens]
@[simp] theorem ligDropBranch_kept (s : State) (k : ReqKey) (p : Nat) : (ligDropBranch s k p).kept = s.kept := by simp
    [ligDropBranch]
@[simp] theorem countRed_kept (s : State) (o : Nat) (c : Colour) (r : RedResult) : (countRed s o c r).kept = s.kept := by
  unfold countRed; (repeat' split) <;> simp
@[simp] theorem redDropped_kept (s : State) (o : Nat) (h : Held) (r : RedResult) : (redDropped s o h r).kept = s.kept := by
    simp [redDropped]
@[simp] theorem countC7_kept (s : State) (o : Nat) : (countC7 s o).kept = s.kept := by simp [countC7]
@[simp] theorem discardDown_kept (s : State) (o : Nat) (h : Held) : (discardDown s o h).kept = s.kept := by simp [discardDown]
@[simp] theorem appendOut_kept (s : State) (o : Nat) (h : Held) : (appendOut s o h).kept = s.kept := by simp [appendOut]
@[simp] theorem enqueueOut_kept (s : State) (o : Nat) (h : Held) : (enqueueOut s o h).kept = s.kept := by simp [enqueueOut]
@[simp] theorem outputDown_kept (s : State) (o : Nat) : (outputDown s o).kept = s.kept := by simp [outputDown]
@[simp] theorem sealFor_kept (s : State) (p : Nat) (h : Held) : (sealFor s p h).2.kept = s.kept := by
  unfold sealFor; (repeat' split) <;> simp
@[simp] theorem sendOnLink_kept (s : State) (p : Nat) (w : WirePacket) : (sendOnLink s p w).kept = s.kept := by simp
    [sendOnLink]
@[simp] theorem startPacket_kept (s : State) (o : Nat) (h : Held) : (startPacket s o h).kept = s.kept := by simp [startPacket]
@[simp] theorem countDraw_kept (s : State) (ing : Nat) : (countDraw s ing).kept = s.kept := by simp [countDraw]
@[simp] theorem fallback_kept (s : State) (ing : Nat) (h : Hdr) : (fallback s ing h).kept = s.kept := by simp [fallback]
@[simp] theorem chooseIntermediate_kept (s : State) (slot : RouteSlot) (h : Hdr) (e : BitVec 128) (ing : Nat) :
    (chooseIntermediate s slot h e ing).2.2.kept = s.kept := by
  unfold chooseIntermediate; dsimp only; (repeat' split) <;> simp
@[simp] theorem arrivePhase_kept (s : State) (slot : RouteSlot) (h : Hdr) (ing : Nat) : (arrivePhase s slot h ing).2.2.kept =
    s.kept := by
  unfold arrivePhase; (repeat' split) <;> simp
@[simp] theorem routeFrom_kept (s : State) (slot : RouteSlot) (h : Hdr) (il : Option (BitVec 32)) (e : BitVec 128) (ing : Nat)
    : (routeFrom s slot h il e ing).2.2.kept = s.kept := by
  unfold routeFrom; dsimp only; (repeat' split) <;> simp
@[simp] theorem decide1_kept (s : State) (h : Hdr) (ing : Nat) : (decide1 s h ing).2.2.kept = s.kept := by
  unfold decide1; dsimp only; (repeat' split) <;> simp
@[simp] theorem markBad_kept (s : State) (k : ReqKey) : (markBad s k).kept = s.kept := by simp [markBad]
@[simp] theorem refusePacket_kept (s : State) (h : Held) (st : BitVec 8) : (refusePacket s h st).kept = s.kept := by simp
    [refusePacket]
@[simp] theorem refuseOnce_kept (s : State) (h : Held) (st : BitVec 8) : (refuseOnce s h st).kept = s.kept := by simp
    [refuseOnce]
@[simp] theorem clashSame_kept (s : State) (h : Held) (e : TagEntry) : (clashSame s h e).kept = s.kept := by simp [clashSame]
@[simp] theorem afterDiscard_kept (s : State) (h : Hdr) : (afterDiscard s h).kept = s.kept := by simp [afterDiscard]
@[simp] theorem partViolation_kept (s : State) (ing : Nat) (h : Held) : (partViolation s ing h).kept = s.kept := by simp
    [partViolation]
theorem ingressReject_kept (s : State) (ing : Nat)
    (h : Held) {t : State} (e : ingressReject s ing h = some t) : t.kept = s.kept := by
  unfold ingressReject at e; dsimp only at e
  (repeat' split at e) <;> first | (injection e with e; rw [← e]; simp; done) | (injection e with e; rw [← e]) | cases e
@[simp] theorem meterPacket_kept (s : State) (ing : Nat) (h : Held) : (meterPacket s ing h).2.kept = s.kept := by
  unfold meterPacket; dsimp only; (repeat' split) <;> simp
@[simp] theorem acceptJournal_kept (s : State) (h : Held) (local_ : Bool) : (acceptJournal s h local_).kept = s.kept := by simp
    [acceptJournal]
theorem acceptRequest_kept (s : State) (ing : Nat) (h : Held) (b : Bool) (t : State)
    (e : acceptRequest s ing h b = .go t ∨ acceptRequest s ing h b = .ended t) : t.kept = s.kept := by
  unfold acceptRequest acceptAgain at e; dsimp only at e
  rcases e with e | e <;> (repeat' split at e) <;> first | (injection e with e; rw [← e]; simp; done) | (injection e with e; rw [← e]) | cases e
@[simp] theorem noteWait_kept (s : State) (ing : Nat) (h : Held) : (noteWait s ing h).kept = s.kept := by simp [noteWait]
@[simp] theorem deliverMsg_kept (s : State) (ing : BitVec 8) (m : Msg) : (deliverMsg s ing m).kept = s.kept := by simp
    [deliverMsg]
@[simp] theorem keepBody_kept (s : State) (m : Msg) : (keepBody s m).kept = s.kept := by
  unfold keepBody; (repeat' split) <;> simp
theorem assemble_partial_kept (s : State) (i : BitVec 8) (k : ReqKey) (p : Packet) {t : State} (e : assemble s i k p =
    .partial_ t) : t.kept = s.kept := by
  unfold assemble at e; dsimp only at e
  (repeat' split at e) <;> first | (injection e with e; subst e; rfl) | cases e
theorem assemble_malformed_kept (s : State) (i : BitVec 8) (k : ReqKey) (p : Packet) {t : State} (e : assemble s i k p =
    .malformed t) : t.kept = s.kept := by
  unfold assemble at e; dsimp only at e
  (repeat' split at e) <;> first | (injection e with e; subst e; rfl) | cases e
theorem assemble_whole_kept (s : State) (i : BitVec 8) (k : ReqKey) (p : Packet) {t : State} {m : Msg} (e : assemble s i k p =
    .whole t m) : t.kept = s.kept := by
  unfold assemble at e; dsimp only at e
  (repeat' split at e) <;> first | (injection e with e; subst e; rfl) | cases e
@[simp] theorem epochHere_kept (s : State) (m : Msg) : (epochHere s m).kept = s.kept := by simp [epochHere]
@[simp] theorem handOver_kept (s : State) (h : Held) (m : Msg) : (handOver s h m).kept = s.kept := by simp [handOver]
@[simp] theorem forwardTo_kept (s : State) (ing o : Nat) (h : Held) : (forwardTo s ing o h).kept = s.kept := by simp [forwardTo]
@[simp] theorem closeLig_kept (s : State) (r : LigRec) : (closeLig s r).kept = s.kept := by simp [closeLig]
@[simp] theorem updateLig_kept (s : State) (r : LigRec) : (updateLig s r).kept = s.kept := by simp [updateLig]
@[simp] theorem ligSkipBranch_kept (s : State) (k : ReqKey) (p fencd : Nat) : (ligSkipBranch s k p fencd).kept = s.kept := by
    simp [ligSkipBranch]
@[simp] theorem copyToPort_kept (h : Held) (s : State) (p : Nat) : (copyToPort h s p).kept = s.kept := by
  unfold copyToPort; (repeat' split) <;> simp
@[simp] theorem copyToPorts_kept (s : State) (h : Held) (ps : List Nat) : (copyToPorts s h ps).kept = s.kept := by
  unfold copyToPorts; dsimp only; (repeat' split) <;> simp
@[simp] theorem ligHere_kept (s : State) (h : Held) : (ligHere s h).kept = s.kept := by
  unfold ligHere; split
  · rename_i e; exact assemble_partial_kept _ _ _ _ e
  · rename_i e; exact assemble_malformed_kept _ _ _ _ e
  · rename_i e; simp [assemble_whole_kept _ _ _ _ e]
@[simp] theorem replicateCopies_kept (s : State) (ing : Nat) (h : Held) (e : BitVec 256) : (replicateCopies s ing h e).kept =
    s.kept := by simp [replicateCopies]
@[simp] theorem replicate_kept (s : State) (ing : Nat) (h : Held) : (replicate s ing h).kept = s.kept := by simp [replicate]
@[simp] theorem showAlive_kept (s : State) (w : BitVec 32) : (showAlive s w).kept = s.kept := by simp [showAlive]
@[simp] theorem portHeard_kept (s : State) (p : Nat) : (portHeard s p).kept = s.kept := by simp [portHeard]
@[simp] theorem triggerOutput_kept (s : State) (o : Nat) : (triggerOutput s o).kept = s.kept := by simp [triggerOutput]
@[simp] theorem hostDown_kept (s : State) (h : Nat) : (hostDown s h).kept = s.kept := by simp [hostDown]
@[simp] theorem clearDir_kept (s : State) (d : Nat) : (clearDir s d).kept = s.kept := by simp [clearDir]
@[simp] theorem setDomainReset_kept (s : State) (by_ : Caller) (d : Nat) : (setDomainReset s by_ d).s.kept = s.kept := by simp
    [setDomainReset]
theorem execDomainReset_kept (by_ : Caller) (d : Part) (s : State) {nxt : State}
    (ee : (execDomainReset by_ d s) = .next nxt) : nxt.kept = s.kept := by
  unfold execDomainReset at ee; rw [← next_inj ee]; simp
@[simp] theorem setDirSlices_kept (s : State) (by_ : Caller) (v : Nat) : (setDirSlices s by_ v).s.kept = s.kept := by
  unfold setDirSlices; (repeat' split) <;> simp
theorem execDirSlices_kept (by_ : Caller) (v : BitVec 32) (s : State) {nxt : State}
    (ee : (execDirSlices by_ v s) = .next nxt) : nxt.kept = s.kept := by
  unfold execDirSlices at ee; rw [← next_inj ee]; simp
@[simp] theorem writeFolio_kept (s : State) (r : BitVec 32 × BitVec 256) : (writeFolio s r).2.kept = s.kept := by
  unfold writeFolio; dsimp only; (repeat' split) <;> simp
@[simp] theorem setFolios_kept (s : State) (by_ : Caller) (recs : List (BitVec 32 × BitVec 256)) : (setFolios s by_
    recs).s.kept = s.kept := by simp [setFolios]
theorem execFolioWrite_kept (by_ : Caller) (recs : List (BitVec 32 × BitVec 256)) (s : State) {nxt : State}
    (ee : (execFolioWrite by_ recs s) = .next nxt) : nxt.kept = s.kept := by
  unfold execFolioWrite at ee; rw [← next_inj ee]; simp
@[simp] theorem setRevoke_kept (s : State) (by_ : Caller) (i : Nat) : (setRevoke s by_ i).s.kept = s.kept := by simp [setRevoke]
theorem execFolioRevoke_kept (by_ : Caller) (i : BitVec 16) (s : State) {nxt : State}
    (ee : (execFolioRevoke by_ i s) = .next nxt) : nxt.kept = s.kept := by
  unfold execFolioRevoke at ee; rw [← next_inj ee]; simp
@[simp] theorem beginScrub_kept (s : State) (i : Nat) : (beginScrub s i).kept = s.kept := by simp [beginScrub]
@[simp] theorem setFolioClear_kept (s : State) (by_ : Caller) (i : Nat) : (setFolioClear s by_ i).s.kept = s.kept := by simp
    [setFolioClear]
theorem execFolioClear_kept (by_ : Caller) (i : BitVec 16) (s : State) {nxt : State}
    (ee : (execFolioClear by_ i s) = .next nxt) : nxt.kept = s.kept := by
  unfold execFolioClear at ee; rw [← next_inj ee]; simp
@[simp] theorem writeRegion_kept (by_ : Caller) (s : State) (w : BitVec 64) : (writeRegion by_ s w).2.kept = s.kept := by
  unfold writeRegion; dsimp only; (repeat' split) <;> simp
@[simp] theorem setRegions_kept (s : State) (by_ : Caller) (recs : List (BitVec 64)) : (setRegions s by_ recs).s.kept = s.kept
    := by simp [setRegions]
theorem execRegionWrite_kept (by_ : Caller) (recs : List (BitVec 64)) (s : State) {nxt : State}
    (ee : (execRegionWrite by_ recs s) = .next nxt) : nxt.kept = s.kept := by
  unfold execRegionWrite at ee; rw [← next_inj ee]; simp
@[simp] theorem setTagReserve_kept (s : State) (by_ : Caller) (p v : Nat) : (setTagReserve s by_ p v).s.kept = s.kept := by
    simp [setTagReserve]
theorem execTagReserve_kept (by_ : Caller) (p : Part) (v : BitVec 32) (s : State) {nxt : State}
    (ee : (execTagReserve by_ p v s) = .next nxt) : nxt.kept = s.kept := by
  unfold execTagReserve at ee; rw [← next_inj ee]; simp
@[simp] theorem setObjDelete_kept (s : State) (by_ : Caller) (n : Nat) : (setObjDelete s by_ n).s.kept = s.kept := by simp
    [setObjDelete]
theorem execObjDelete_kept (by_ : Caller) (o : BitVec 16) (s : State) {nxt : State}
    (ee : (execObjDelete by_ o s) = .next nxt) : nxt.kept = s.kept := by
  unfold execObjDelete at ee; rw [← next_inj ee]; simp
@[simp] theorem setMove_kept (s : State) (m : Move) : (setMove s m).kept = s.kept := by simp [setMove]
@[simp] theorem completeMove_kept (s : State) (m : Move) (st : BitVec 8) (cdat : BitVec 16) : (completeMove s m st cdat).kept =
    s.kept := by
  unfold completeMove; (repeat' split) <;> simp
@[simp] theorem stopMove_kept (s : State) (m : Move) (st : BitVec 8) : (stopMove s m st).kept = s.kept := by simp [stopMove]
@[simp] theorem finishMove_kept (s : State) (m : Move) : (finishMove s m).kept = s.kept := by simp [finishMove]
@[simp] theorem writeSched_kept (by_ : Caller) (s : State) (w : BitVec 64) : (writeSched by_ s w).2.kept = s.kept := by
  unfold writeSched; dsimp only; (repeat' split) <;> simp
@[simp] theorem setScheds_kept (s : State) (by_ : Caller) (recs : List (BitVec 64)) : (setScheds s by_ recs).s.kept = s.kept :=
    by simp [setScheds]
theorem execPfSchedWrite_kept (by_ : Caller) (recs : List (BitVec 64)) (s : State) {nxt : State}
    (ee : (execPfSchedWrite by_ recs s) = .next nxt) : nxt.kept = s.kept := by
  unfold execPfSchedWrite at ee; rw [← next_inj ee]; simp
@[simp] theorem writePfEntry_kept (by_ : Caller) (s : State) (r : BitVec 16 × BitVec 128) : (writePfEntry by_ s r).2.kept =
    s.kept := by
  unfold writePfEntry; dsimp only; (repeat' split) <;> simp
@[simp] theorem setPfEntries_kept (s : State) (by_ : Caller) (recs : List (BitVec 16 × BitVec 128)) : (setPfEntries s by_
    recs).s.kept = s.kept := by simp [setPfEntries]
theorem execPfEntryWrite_kept (by_ : Caller) (recs : List (BitVec 16 × BitVec 128)) (s : State) {nxt : State}
    (ee : (execPfEntryWrite by_ recs s) = .next nxt) : nxt.kept = s.kept := by
  unfold execPfEntryWrite at ee; rw [← next_inj ee]; simp
@[simp] theorem setPfActivate_kept (s : State) (by_ : Caller) (n : Nat) : (setPfActivate s by_ n).s.kept = s.kept := by
  unfold setPfActivate; dsimp only; (repeat' split) <;> simp
@[simp] theorem setPfStop_kept (s : State) (by_ : Caller) (n : Nat) : (setPfStop s by_ n).s.kept = s.kept := by simp [setPfStop]
theorem execPfActivate_kept (by_ : Caller) (s' : BitVec 8) (s : State) {nxt : State}
    (ee : (execPfActivate by_ s' s) = .next nxt) : nxt.kept = s.kept := by
  unfold execPfActivate at ee; rw [← next_inj ee]; simp
theorem execPfStop_kept (by_ : Caller) (s' : BitVec 8) (s : State) {nxt : State}
    (ee : (execPfStop by_ s' s) = .next nxt) : nxt.kept = s.kept := by
  unfold execPfStop at ee; rw [← next_inj ee]; simp
@[simp] theorem refuseEntry_kept (s : State) (n : Nat) (v : Sched) (e : BitVec 128) : (refuseEntry s n v e).kept = s.kept := by
    simp [refuseEntry]
@[simp] theorem markPending_kept (s : State) (es : List (BitVec 128)) : (markPending s es).kept = s.kept := by simp
    [markPending]
theorem execFolioDrained_kept (i : BitVec 16) (s : State) {nxt : State}
    (ee : (execFolioDrained i s) = .next nxt) : nxt.kept = s.kept := by
  unfold execFolioDrained at ee; rw [← next_inj ee]; simp
@[simp] theorem dropJobs_kept (s : State) (i : Nat) : (dropJobs s i).kept = s.kept := by simp [dropJobs]
@[simp] theorem setPool_kept (s : State) (q : Nat) (p : Pool) : (setPool s q p).kept = s.kept := by simp [setPool]
@[simp] theorem removeChunks_kept (s : State) (gone : Chunk → Bool) : (removeChunks s gone).kept = s.kept := by simp
    [removeChunks]
@[simp] theorem ctxHdr_kept (s : State) (op : BitVec 8) (cls : BitVec 3) (dst : Fid) (part : Part) : (ctxHdr s op cls dst
    part).2.kept = s.kept := by simp [ctxHdr]
@[simp] theorem sendCtx_kept (s : State) (c : Nat) (op : BitVec 8) (cls : BitVec 3) (dst : Fid) (addr aux : Nat) (mcast : Bool)
    (body : List Byte) : (sendCtx s c op cls dst addr aux mcast body).2.kept = s.kept := by simp [sendCtx]
@[simp] theorem sendCredit_kept (s : State) (c : Nat) (dst : Fid) : (sendCredit s c dst).kept = s.kept := by simp [sendCredit]
@[simp] theorem sendCredits_kept (s : State) (c : Nat) : (sendCredits s c).kept = s.kept := by simp [sendCredits]
@[simp] theorem newChunk_kept (s : State) (c i : Nat) : (newChunk s c i).kept = s.kept := by simp [newChunk]
@[simp] theorem openCtx_kept (q : Nat) (s : State) (c : Nat) : (openCtx q s c).kept = s.kept := by simp [openCtx]
@[simp] theorem releaseHolds_kept (s : State) (q : Nat) : (releaseHolds s q).kept = s.kept := by simp [releaseHolds]
@[simp] theorem openChunks_kept (s : State) (q : Nat) : (openChunks s q).kept = s.kept := by simp [openChunks]
@[simp] theorem endColl_kept (s : State) (m : Msg) (c : Nat) (st : BitVec 8) (cdat : BitVec 16) : (endColl s m c st cdat).kept
    = s.kept := by simp [endColl]
@[simp] theorem answerOpener_kept (s : State) (c : Nat) (ok : Bool) : (answerOpener s c ok).kept = s.kept := by
  unfold answerOpener; dsimp only; (repeat' split) <;> simp
@[simp] theorem freeCtx_kept (s : State) (c : Nat) : (freeCtx s c).kept = s.kept := by simp [freeCtx]
@[simp] theorem abortMirror_kept (s : State) (c : Nat) : (abortMirror s c).kept = s.kept := by simp [abortMirror]
@[simp] theorem abortCtx_kept (s : State) (c : Nat) : (abortCtx s c).kept = s.kept := by simp [abortCtx]
@[simp] theorem failCtx_kept (s : State) (c : Nat) (st : BitVec 8) : (failCtx s c st).kept = s.kept := by simp [failCtx]
@[simp] theorem chunkDelivered_kept (s : State) (c i : Nat) : (chunkDelivered s c i).kept = s.kept := by simp [chunkDelivered]
@[simp] theorem deliverChunk_kept (s : State) (c : Nat) (k : Chunk) : (deliverChunk s c k).kept = s.kept := by
  unfold deliverChunk; dsimp only; (repeat' split) <;> simp
@[simp] theorem chunkStored_kept (s : State) (k : Chunk) (st : BitVec 8) : (chunkStored s k st).kept = s.kept := by simp
    [chunkStored]
@[simp] theorem stragTake_kept (s : State) (m c i late : Nat) (last : Bool) : (stragTake s m c i late last).kept = s.kept := by
    simp [stragTake]
@[simp] theorem stragglers_kept (s : State) (c i late : Nat) (last : Bool) : (stragglers s c i late last).kept = s.kept := by
    simp [stragglers]
@[simp] theorem answerContrib_kept (s : State) (m : Msg) (st : BitVec 8) (cdat : Nat) : (answerContrib s m st cdat).kept =
    s.kept := by simp [answerContrib]
@[simp] theorem refuseEsc_kept (s : State) (m : Msg) (c i : Nat) : (refuseEsc s m c i).kept = s.kept := by simp [refuseEsc]
@[simp] theorem addContrib_kept (s : State) (m : Msg) (k : Chunk) : (addContrib s m k).kept = s.kept := by simp [addContrib]
@[simp] theorem contribNow_kept (s : State) (m : Msg) : (contribNow s m).kept = s.kept := by
  unfold contribNow; (repeat' split) <;> simp
theorem execContrib_kept (m : Msg) (s : State) {nxt : State}
    (ee : (execContrib m s) = .next nxt) : nxt.kept = s.kept := by
  unfold execContrib at ee; rw [← next_inj ee]; simp
@[simp] theorem sendMirrorOpen_kept (s : State) (c : Nat) (partner : Fid) : (sendMirrorOpen s c partner).kept = s.kept := by
    simp [sendMirrorOpen]
@[simp] theorem openNow_kept (s : State) (m : Msg) : (openNow s m).kept = s.kept := by
  unfold openNow; dsimp only; (repeat' split) <;> simp
@[simp] theorem mirrorLost_kept (s : State) (c : Nat) : (mirrorLost s c).kept = s.kept := by simp [mirrorLost]
@[simp] theorem mirrorAnswer_kept (s : State) (c : Nat) (ok : Bool) : (mirrorAnswer s c ok).kept = s.kept := by simp
    [mirrorAnswer]
theorem execMirrorOpenTimeout_kept (ctx : BitVec 16) (s : State) {nxt : State}
    (ee : (execMirrorOpenTimeout ctx s) = .next nxt) : nxt.kept = s.kept := by
  unfold execMirrorOpenTimeout at ee; rw [← next_inj ee]; simp
@[simp] theorem joinNow_kept (s : State) (m : Msg) : (joinNow s m).kept = s.kept := by
  unfold joinNow; dsimp only; (repeat' split) <;> simp
@[simp] theorem closeNow_kept (s : State) (m : Msg) : (closeNow s m).kept = s.kept := by
  unfold closeNow; dsimp only; (repeat' split) <;> simp
@[simp] theorem abortNow_kept (s : State) (m : Msg) : (abortNow s m).kept = s.kept := by
  unfold abortNow; dsimp only; (repeat' split) <;> simp
@[simp] theorem collNow_kept (s : State) (m : Msg) : (collNow s m).kept = s.kept := by
  unfold collNow; (repeat' split) <;> simp
@[simp] theorem collRequest_kept (s : State) (m : Msg) : (collRequest s m).kept = s.kept := by simp [collRequest]
theorem execOpen_kept (m : Msg) (s : State) {nxt : State}
    (ee : (execOpen m s) = .next nxt) : nxt.kept = s.kept := by
  unfold execOpen at ee; rw [← next_inj ee]; simp
theorem execMirrorOpen_kept (m : Msg) (s : State) {nxt : State}
    (ee : (execMirrorOpen m s) = .next nxt) : nxt.kept = s.kept := by
  unfold execMirrorOpen at ee; rw [← next_inj ee]; simp
theorem execJoin_kept (m : Msg) (s : State) {nxt : State}
    (ee : (execJoin m s) = .next nxt) : nxt.kept = s.kept := by
  unfold execJoin at ee; rw [← next_inj ee]; simp
theorem execClose_kept (m : Msg) (s : State) {nxt : State}
    (ee : (execClose m s) = .next nxt) : nxt.kept = s.kept := by
  unfold execClose at ee; rw [← next_inj ee]; simp
theorem execAbort_kept (m : Msg) (s : State) {nxt : State}
    (ee : (execAbort m s) = .next nxt) : nxt.kept = s.kept := by
  unfold execAbort at ee; rw [← next_inj ee]; simp
theorem execCreditRefresh_kept (s : State) {nxt : State}
    (ee : (execCreditRefresh s) = .next nxt) : nxt.kept = s.kept := by
  unfold execCreditRefresh at ee; rw [← next_inj ee]; simp
@[simp] theorem adoptRecord_kept (s : State) (c : Nat) (limit low : Nat) (epoch : BitVec 32) : (adoptRecord s c limit low
    epoch).kept = s.kept := by simp [adoptRecord]
@[simp] theorem creditNow_kept (s : State) (m : Msg) : (creditNow s m).kept = s.kept := by
  unfold creditNow; dsimp only; (repeat' split) <;> simp
theorem execCredit_kept (m : Msg) (s : State) {nxt : State}
    (ee : (execCredit m s) = .next nxt) : nxt.kept = s.kept := by
  unfold execCredit at ee; rw [← next_inj ee]; simp
@[simp] theorem promote_kept (s : State) (c : Nat) : (promote s c).kept = s.kept := by simp [promote]
@[simp] theorem homeLost_kept (s : State) (c : Nat) : (homeLost s c).kept = s.kept := by simp [homeLost]
@[simp] theorem partnersLost_kept (s : State) (gone : Fid → Bool) : (partnersLost s gone).kept = s.kept := by
  unfold partnersLost; apply foldl_kept; intro s d; (repeat' split) <;> simp
@[simp] theorem setPromote_kept (s : State) (by_ : Caller) (c : Nat) : (setPromote s by_ c).s.kept = s.kept := by simp
    [setPromote]
theorem execMirrorPromote_kept (by_ : Caller) (ctx : BitVec 16) (s : State) {nxt : State}
    (ee : (execMirrorPromote by_ ctx s) = .next nxt) : nxt.kept = s.kept := by
  unfold execMirrorPromote at ee; rw [← next_inj ee]; simp
@[simp] theorem setRetarget_kept (s : State) (by_ : Caller) (c : Nat) (partner : BitVec 32) : (setRetarget s by_ c
    partner).s.kept = s.kept := by simp [setRetarget]
theorem execMirrorRetarget_kept (by_ : Caller) (ctx : BitVec 16) (partner : BitVec 32) (s : State) {nxt : State}
    (ee : (execMirrorRetarget by_ ctx partner s) = .next nxt) : nxt.kept = s.kept := by
  unfold execMirrorRetarget at ee; rw [← next_inj ee]; simp
@[simp] theorem setCtxAbort_kept (s : State) (by_ : Caller) (c : Nat) : (setCtxAbort s by_ c).s.kept = s.kept := by simp
    [setCtxAbort]
theorem execCtxAbort_kept (by_ : Caller) (ctx : BitVec 16) (s : State) {nxt : State}
    (ee : (execCtxAbort by_ ctx s) = .next nxt) : nxt.kept = s.kept := by
  unfold execCtxAbort at ee; rw [← next_inj ee]; simp
@[simp] theorem setChunkSlots_kept (s : State) (by_ : Caller) (v : Nat) : (setChunkSlots s by_ v).s.kept = s.kept := by
  unfold setChunkSlots; (repeat' split) <;> simp
theorem execChunkSlots_kept (by_ : Caller) (v : BitVec 16) (s : State) {nxt : State}
    (ee : (execChunkSlots by_ v s) = .next nxt) : nxt.kept = s.kept := by
  unfold execChunkSlots at ee; rw [← next_inj ee]; simp
@[simp] theorem recordSeal_kept (s : State) (p : Nat) (r : List Byte) : (recordSeal s p r).kept = s.kept := by simp [recordSeal]
@[simp] theorem completeSealed_kept (s : State) (ing : Nat) (m : Msg) (cflg : BitVec 8) (cdat : BitVec 16) (data : List Byte)
    (hdrLen : Nat) (dw di : List Byte) : (completeSealed s ing m cflg cdat data hdrLen dw di).kept = s.kept := by simp
    [completeSealed]
@[simp] theorem writeTable_kept (by_ : Caller) (s : State) (r : BitVec 16 × BitVec 512) : (writeTable by_ s r).2.kept = s.kept
    := by
  unfold writeTable; dsimp only; (repeat' split) <;> simp
@[simp] theorem setTables_kept (s : State) (by_ : Caller) (recs : List (BitVec 16 × BitVec 512)) : (setTables s by_
    recs).s.kept = s.kept := by simp [setTables]
theorem execTableWrite_kept (by_ : Caller) (recs : List (BitVec 16 × BitVec 512)) (s : State) {nxt : State}
    (ee : (execTableWrite by_ recs s) = .next nxt) : nxt.kept = s.kept := by
  unfold execTableWrite at ee; rw [← next_inj ee]; simp
@[simp] theorem stageTable_kept (by_ : Caller) (s : State) (r : BitVec 16 × BitVec 512) : (stageTable by_ s r).2.kept = s.kept
    := by
  unfold stageTable; dsimp only; (repeat' split) <;> simp
@[simp] theorem setStages_kept (s : State) (by_ : Caller) (recs : List (BitVec 16 × BitVec 512)) : (setStages s by_
    recs).s.kept = s.kept := by
  unfold setStages; (repeat' split) <;> simp
theorem execTableStage_kept (by_ : Caller) (recs : List (BitVec 16 × BitVec 512)) (s : State) {nxt : State}
    (ee : (execTableStage by_ recs s) = .next nxt) : nxt.kept = s.kept := by
  unfold execTableStage at ee; rw [← next_inj ee]; simp
@[simp] theorem stageDigest_kept (by_ : Caller) (s : State) (r : BitVec 16 × BitVec 256) : (stageDigest by_ s r).2.kept =
    s.kept := by
  unfold stageDigest; dsimp only; (repeat' split) <;> simp
@[simp] theorem setDigests_kept (s : State) (by_ : Caller) (recs : List (BitVec 16 × BitVec 256)) : (setDigests s by_
    recs).s.kept = s.kept := by simp [setDigests]
theorem execWdigestStage_kept (by_ : Caller) (recs : List (BitVec 16 × BitVec 256)) (s : State) {nxt : State}
    (ee : (execWdigestStage by_ recs s) = .next nxt) : nxt.kept = s.kept := by
  unfold execWdigestStage at ee; rw [← next_inj ee]; simp
theorem execPopHalving_kept (s : State) {nxt : State}
    (ee : (execPopHalving s) = .next nxt) : nxt.kept = s.kept := by
  unfold execPopHalving at ee; rw [← next_inj ee]; simp
@[simp] theorem gFail_kept (s : State) (ing t : Nat) (m : Msg) (st cflg : BitVec 8) (cdat : Nat) : (gFail s ing t m st cflg
    cdat).kept = s.kept := by simp [gFail]
@[simp] theorem settleTable_kept (s : State) (t : Nat) : (settleTable s t).kept = s.kept := by simp [settleTable]
@[simp] theorem modRun_kept (s : State) (q : Nat) (r : Run) : (modRun s q r).kept = s.kept := by simp [modRun]
@[simp] theorem countPositions_kept (s : State) (q : Nat) (r : Run) (gs : List GReq) : (countPositions s q r gs).kept = s.kept
    := by simp [countPositions]
@[simp] theorem gatherStall_kept (s : State) (r : Run) (g : GReq) : (gatherStall s r g).kept = s.kept := by simp [gatherStall]
@[simp] theorem resolveAll_kept (s : State) (r : Run) (gs : List GReq) : (resolveAll s r gs).2.kept = s.kept := by simp
    [resolveAll]
@[simp] theorem noteSpill_kept (s : State) (q : Nat) (spills : Bool) : (noteSpill s q spills).kept = s.kept := by simp
    [noteSpill]
@[simp] theorem takeEsc_kept (q : Nat) (s : State) (r : Run) : (takeEsc q s r).kept = s.kept := by simp [takeEsc]
@[simp] theorem settleReads_kept (s : State) : (settleReads s).kept = s.kept := by simp [settleReads]
@[simp] theorem beginRun_kept (s : State) (q : Nat) (j : Job) : (beginRun s q j).2.kept = s.kept := by
  unfold beginRun; dsimp only; (repeat' split) <;> simp
@[simp] theorem setWaiting_kept (s : State) (q : Nat) (b : Bool) : (setWaiting s q b).kept = s.kept := by simp [setWaiting]
@[simp] theorem endWait_kept (s : State) (q : Nat) : (endWait s q).kept = s.kept := by simp [endWait]
@[simp] theorem recheckWait_kept (s : State) (q : Nat) : (recheckWait s q).kept = s.kept := by simp [recheckWait]
@[simp] theorem closeWin_kept (s : State) (q : Nat) (w : Win) : (closeWin s q w).kept = s.kept := by simp [closeWin]
@[simp] theorem gatherTurn_kept (s : State) (m : Msg) (f : State → State)
    (h : ∀ s, (f s).kept = s.kept) : (gatherTurn s m f).kept = s.kept := by
  unfold gatherTurn; (repeat' split) <;> simp [h]
theorem execWinTimeout_kept (q : Quill) (k : WinKey) (s : State) {nxt : State}
    (ee : (execWinTimeout q k s) = .next nxt) : nxt.kept = s.kept := by
  unfold execWinTimeout at ee; rw [← next_inj ee]; (repeat' split) <;> simp
theorem execWindowKeyServedEnd_kept (q : Quill) (k : WinKey) (s : State) {nxt : State}
    (ee : (execWindowKeyServedEnd q k s) = .next nxt) : nxt.kept = s.kept := by
  unfold execWindowKeyServedEnd at ee; rw [← next_inj ee]; simp
@[simp] theorem finishBag_kept (s : State) (q : Nat) (r : Run) (m : Msg) : (finishBag s q r m).kept = s.kept := by
  unfold finishBag; (repeat' split) <;> simp
@[simp] theorem finishFilter_kept (s : State) (q : Nat) (r : Run) (m : Msg) : (finishFilter s q r m).kept = s.kept := by simp
    [finishFilter]
@[simp] theorem dropRun_kept (s : State) (q id : Nat) : (dropRun s q id).kept = s.kept := by simp [dropRun]
@[simp] theorem finishScatter_kept (s : State) (q : Nat) (r : Run) (m : Msg) : (finishScatter s q r m).kept = s.kept := by
  unfold finishScatter; dsimp only; (repeat' split) <;> simp
@[simp] theorem markChanged_kept (s : State) (t : Nat) (tgen : BitVec 16) : (markChanged s t tgen).kept = s.kept := by simp
    [markChanged]
@[simp] theorem refuseQueued_kept (s : State) (t : Nat) (st : BitVec 8) : (refuseQueued s t st).kept = s.kept := by simp
    [refuseQueued]
@[simp] theorem setTableSync_kept (s : State) (by_ : Caller) (t : Nat) : (setTableSync s by_ t).s.kept = s.kept := by simp
    [setTableSync]
theorem execTableSync_kept (by_ : Caller) (t : BitVec 16) (s : State) {nxt : State}
    (ee : (execTableSync by_ t s) = .next nxt) : nxt.kept = s.kept := by
  unfold execTableSync at ee; rw [← next_inj ee]; simp
@[simp] theorem setEntry_kept (s : State) (slot i : Nat) (e : GenEntry) : (setEntry s slot i e).kept = s.kept := by simp
    [setEntry]
@[simp] theorem setJob_kept (s : State) (j : BasisJob) : (setJob s j).kept = s.kept := by simp [setJob]
@[simp] theorem dropJob_kept (s : State) (m : Msg) : (dropJob s m).kept = s.kept := by simp [dropJob]
@[simp] theorem encEnd_kept (s : State) (m : Msg) (st : BitVec 8) (cdat : Nat) : (encEnd s m st cdat).kept = s.kept := by simp
    [encEnd]
@[simp] theorem assignEntry_kept (s : State) (j : BasisJob) (i : Nat) : (assignEntry s j i).kept = s.kept := by simp
    [assignEntry]
@[simp] theorem serveWaiters_kept (n : Nat) (s : State) (k : Nat) : (serveWaiters n s k).kept = s.kept := by
  induction n generalizing s with
  | zero => rfl
  | succ n ih => unfold serveWaiters; split <;> simp [ih]
@[simp] theorem freeGen_kept (s : State) (slot i : Nat) : (freeGen s slot i).kept = s.kept := by simp [freeGen]
@[simp] theorem releaseRef_kept (s : State) (slot i : Nat) : (releaseRef s slot i).kept = s.kept := by simp [releaseRef]
@[simp] theorem wantEntry_kept (s : State) (j : BasisJob) : (wantEntry s j).kept = s.kept := by
  unfold wantEntry; dsimp only; (repeat' split) <;> simp
@[simp] theorem readBasis_kept (s : State) (p slot i n : Nat) : (readBasis s p slot i n).2.kept = s.kept := by
  unfold readBasis; dsimp only; (repeat' split) <;> simp
@[simp] theorem failBasis_kept (s : State) (j : BasisJob) (st : BitVec 8) (cdat : Nat := 0) : (failBasis s j st cdat).kept =
    s.kept := by simp [failBasis]
@[simp] theorem failJobs_kept (s : State) (mine : Msg → Bool) (st : BitVec 8) (cdat : Nat := 0) : (failJobs s mine st
    cdat).kept = s.kept := by simp [failJobs]
@[simp] theorem loadHeader_kept (s : State) (j : BasisJob) : (loadHeader s j).kept = s.kept := by
  unfold loadHeader; (repeat' split) <;> simp
@[simp] theorem advanceLoad_kept (s : State) (j : BasisJob) : (advanceLoad s j).kept = s.kept := by simp [advanceLoad]
@[simp] theorem basisReady_kept (s : State) (j : BasisJob) : (basisReady s j).kept = s.kept := by simp [basisReady]
theorem execGenWaitTimeout_kept (k : ReqKey) (s : State) {nxt : State}
    (ee : (execGenWaitTimeout k s) = .next nxt) : nxt.kept = s.kept := by
  unfold execGenWaitTimeout at ee; rw [← next_inj ee]; (repeat' split) <;> simp
@[simp] theorem setEnc_kept (s : State) (j : EncJob) : (setEnc s j).kept = s.kept := by simp [setEnc]
@[simp] theorem endEncode_kept (s : State) (j : EncJob) (st : BitVec 8) (cdat : Nat) : (endEncode s j st cdat).kept = s.kept :=
    by simp [endEncode]
@[simp] theorem endEncodes_kept (s : State) (mine : Msg → Bool) (st : BitVec 8) (cdat : Nat := 0) : (endEncodes s mine st
    cdat).kept = s.kept := by simp [endEncodes]
@[simp] theorem genAbsent_kept (s : State) (slot : Nat) (g : BitVec 8) (p : Nat) : (genAbsent s slot g p).kept = s.kept := by
    simp [genAbsent]
@[simp] theorem retireEntry_kept (s : State) (slot i : Nat) : (retireEntry s slot i).kept = s.kept := by simp [retireEntry]
@[simp] theorem setExpQueue_kept (s : State) (e : Nat) (l : List ExpBlock) : (setExpQueue s e l).kept = s.kept := by simp
    [setExpQueue]
@[simp] theorem blockFailed_kept (s : State) (p : Nat) (st : BitVec 8) (baddr slot : Nat) (g : BitVec 8) : (blockFailed s p st
    baddr slot g).kept = s.kept := by simp [blockFailed]
@[simp] theorem expRespond_kept (s : State) (r : ExpResp) : (expRespond s r).kept = s.kept := by simp [expRespond]
@[simp] theorem expAccept_kept (s : State) (r : ExpResp) : (expAccept s r).kept = s.kept := by
  unfold expAccept; extract_lets p items over_; clear_value over_
  cases over_ <;> dsimp only
  · rw [expRespond_kept, foldl2_kept]
    intro x a; dsimp only; split
    · simp
    · split <;> simp
  · simp
@[simp] theorem expAdvance_kept (s : State) : (expAdvance s).kept = s.kept := by simp [expAdvance]
@[simp] theorem expArrive_kept (s : State) (m : Msg) : (expArrive s m).kept = s.kept := by
  unfold expArrive; (repeat' split) <;> simp
theorem execExpand_kept (m : Msg) (s : State) {nxt : State}
    (ee : (execExpand m s) = .next nxt) : nxt.kept = s.kept := by
  unfold execExpand at ee; rw [← next_inj ee]; simp
@[simp] theorem blockDone_kept (s : State) (b : ExpBlock) (st : BitVec 8) (data raw : List Byte) : (blockDone s b st data
    raw).kept = s.kept := by
  unfold blockDone; dsimp only; (repeat' split) <;> simp
@[simp] theorem finishBlock_kept (s : State) (b : ExpBlock) (x : Fetch) : (finishBlock s b x).kept = s.kept := by
  unfold finishBlock; dsimp only; (repeat' split) <;> simp
@[simp] theorem writeSlot_kept (by_ : Caller) (s : State) (r : BitVec 64) : (writeSlot by_ s r).2.kept = s.kept := by
  unfold writeSlot; dsimp only; (repeat' split) <;> simp
@[simp] theorem setSlots_kept (s : State) (by_ : Caller) (recs : List (BitVec 64)) : (setSlots s by_ recs).s.kept = s.kept :=
    by simp [setSlots]
theorem execSlotWrite_kept (by_ : Caller) (recs : List (BitVec 64)) (s : State) {nxt : State}
    (ee : (execSlotWrite by_ recs s) = .next nxt) : nxt.kept = s.kept := by
  unfold execSlotWrite at ee; rw [← next_inj ee]; simp
@[simp] theorem setBasisSlice_kept (s : State) (by_ : Caller) (v : Nat) : (setBasisSlice s by_ v).s.kept = s.kept := by
  unfold setBasisSlice; (repeat' split) <;> simp
theorem execBasisSlice_kept (by_ : Caller) (v : BitVec 8) (s : State) {nxt : State}
    (ee : (execBasisSlice by_ v s) = .next nxt) : nxt.kept = s.kept := by
  unfold execBasisSlice at ee; rw [← next_inj ee]; simp
@[simp] theorem setGenRetire_kept (s : State) (by_ : Caller) (v : Nat) : (setGenRetire s by_ v).s.kept = s.kept := by
  unfold setGenRetire; dsimp only; (repeat' split) <;> simp
theorem execGenRetire_kept (by_ : Caller) (v : BitVec 32) (s : State) {nxt : State}
    (ee : (execGenRetire by_ v s) = .next nxt) : nxt.kept = s.kept := by
  unfold execGenRetire at ee; rw [← next_inj ee]; simp
@[simp] theorem keyChanged_kept (s : State) (oldVer : BitVec 32) (old : DuMap) : (keyChanged s oldVer old).kept = s.kept := by
    simp [keyChanged]
@[simp] theorem setMap_kept (s : State) (m : DuMap) : (setMap s m).kept = s.kept := by simp [setMap]
@[simp] theorem setServes_kept (s : State) (place v : Nat) : (setServes s place v).kept = s.kept := by simp [setServes]
@[simp] theorem modUnit_kept (s : State) (u : Nat) (f : UnitSt → UnitSt) : (modUnit s u f).kept = s.kept := by simp [modUnit]
@[simp] theorem unitAttempt_kept (s : State) (k : ReqKey) : (unitAttempt s k).2.kept = s.kept := by
  unfold unitAttempt; (repeat' split) <;> simp
@[simp] theorem unitAttempts_kept (s : State) (ks : List ReqKey) : (unitAttempts s ks).2.kept = s.kept := by simp [unitAttempts]
@[simp] theorem endQuill_kept (s : State) (q : Nat) : (endQuill s q).kept = s.kept := by simp [endQuill]
@[simp] theorem addPoison_kept (s : State) (w : Nat) : (addPoison s w).kept = s.kept := by simp [addPoison]
@[simp] theorem dropHeld_kept (s : State) (age : Nat) : (dropHeld s age).kept = s.kept := by simp [dropHeld]
@[simp] theorem degraded_kept (s : State) (u : Nat) : (degraded s u).kept = s.kept := by simp [degraded]
@[simp] theorem substituted_kept (s : State) (u spare : Nat) : (substituted s u spare).kept = s.kept := by simp [substituted]
@[simp] theorem retireNib_kept (s : State) (u : Nat) : (retireNib s u).kept = s.kept := by simp [retireNib]
@[simp] theorem writeEntry_kept (ep : Bool) (s : State) (r : BitVec 32 × BitVec 128) : (writeEntry ep s r).2.kept = s.kept := by
  unfold writeEntry; dsimp only; (repeat' split) <;> simp
@[simp] theorem writeIlist_kept (ep : Bool) (s : State) (r : BitVec 32 × BitVec 32) : (writeIlist ep s r).2.kept = s.kept := by
  unfold writeIlist; dsimp only; (repeat' split) <;> simp
@[simp] theorem setEntries_kept (s : State) (by_ : Caller) (ep : Bool) (recs : List (BitVec 32 × BitVec 128)) : (setEntries s
    by_ ep recs).s.kept = s.kept := by simp [setEntries]
@[simp] theorem setIlist_kept (s : State) (by_ : Caller) (ep : Bool) (recs : List (BitVec 32 × BitVec 32)) : (setIlist s by_ ep
    recs).s.kept = s.kept := by simp [setIlist]
theorem execEntryWrite_kept (by_ : Caller) (slot : Bool) (recs : List (BitVec 32 × BitVec 128)) (s : State) {nxt : State}
    (ee : (execEntryWrite by_ slot recs s) = .next nxt) : nxt.kept = s.kept := by
  unfold execEntryWrite at ee; rw [← next_inj ee]; simp
theorem execIlistWrite_kept (by_ : Caller) (slot : Bool) (recs : List (BitVec 32 × BitVec 32)) (s : State) {nxt : State}
    (ee : (execIlistWrite by_ slot recs s) = .next nxt) : nxt.kept = s.kept := by
  unfold execIlistWrite at ee; rw [← next_inj ee]; simp
@[simp] theorem setRetire_kept (s : State) (by_ : Caller) (ep : Bool) (v : Nat) : (setRetire s by_ ep v).s.kept = s.kept := by
    simp [setRetire]
theorem execRetire_kept (by_ : Caller) (slot : Bool) (v : BitVec 8) (s : State) {nxt : State}
    (ee : (execRetire by_ slot v s) = .next nxt) : nxt.kept = s.kept := by
  unfold execRetire at ee; rw [← next_inj ee]; simp
@[simp] theorem setClear_kept (s : State) (by_ : Caller) (ep : Bool) (v : Nat) : (setClear s by_ ep v).s.kept = s.kept := by
    simp [setClear]
theorem execClear_kept (by_ : Caller) (slot : Bool) (v : BitVec 8) (s : State) {nxt : State}
    (ee : (execClear by_ slot v s) = .next nxt) : nxt.kept = s.kept := by
  unfold execClear at ee; rw [← next_inj ee]; simp
@[simp] theorem slotEmpty_kept (s : State) (ep : Bool) : (slotEmpty s ep).kept = s.kept := by simp [slotEmpty]
theorem execDrainTimerExpire_kept (slot : Bool) (s : State) {nxt : State}
    (ee : (execDrainTimerExpire slot s) = .next nxt) : nxt.kept = s.kept := by
  unfold execDrainTimerExpire at ee; rw [← next_inj ee]; simp
theorem execSlotDrained_kept (slot : Bool) (s : State) {nxt : State}
    (ee : (execSlotDrained slot s) = .next nxt) : nxt.kept = s.kept := by
  unfold execSlotDrained at ee; rw [← next_inj ee]; simp
@[simp] theorem sendNotice_kept (kind : Nat) (payload : List Byte) (s : State) (p : Nat) : (sendNotice kind payload s p).kept =
    s.kept := by simp [sendNotice]
@[simp] theorem setEpochNotify_kept (s : State) (by_ : Caller) (rgen : BitVec 32) : (setEpochNotify s by_ rgen).s.kept = s.kept
    := by simp [setEpochNotify]
theorem execEpochNotify_kept (by_ : Caller) (rgen : BitVec 32) (s : State) {nxt : State}
    (ee : (execEpochNotify by_ rgen s) = .next nxt) : nxt.kept = s.kept := by
  unfold execEpochNotify at ee; rw [← next_inj ee]; simp
@[simp] theorem noticeFailed_kept (s : State) (x : Notice) (completed : Bool) (status : Nat) : (noticeFailed s x completed
    status).kept = s.kept := by simp [noticeFailed]
@[simp] theorem noticeCompleted_kept (s : State) (x : Notice) (status : BitVec 8) : (noticeCompleted s x status).kept = s.kept
    := by simp [noticeCompleted]
theorem execEpochNoticeTimeout_kept (p : Port) (s : State) {nxt : State}
    (ee : (execEpochNoticeTimeout p s) = .next nxt) : nxt.kept = s.kept := by
  unfold execEpochNoticeTimeout at ee; rw [← next_inj ee]; (repeat' split) <;> simp
@[simp] theorem writeLig_kept (s : State) (r : BitVec 32 × BitVec 256) : (writeLig s r).2.kept = s.kept := by
  unfold writeLig; (repeat' split) <;> simp
@[simp] theorem setLigs_kept (s : State) (by_ : Caller) (recs : List (BitVec 32 × BitVec 256)) : (setLigs s by_ recs).s.kept =
    s.kept := by simp [setLigs]
theorem execLigWrite_kept (by_ : Caller) (recs : List (BitVec 32 × BitVec 256)) (s : State) {nxt : State}
    (ee : (execLigWrite by_ recs s) = .next nxt) : nxt.kept = s.kept := by
  unfold execLigWrite at ee; rw [← next_inj ee]; simp
theorem execLigRecordTimeout_kept (k : ReqKey) (s : State) {nxt : State}
    (ee : (execLigRecordTimeout k s) = .next nxt) : nxt.kept = s.kept := by
  unfold execLigRecordTimeout at ee; rw [← next_inj ee]; (repeat' split) <;> simp
@[simp] theorem spineArrive_kept (s : State) (x : SpineItem) : (spineArrive s x).kept = s.kept := by simp [spineArrive]
theorem execSpineTransfer_kept (src dst : Tile) (s : State) {nxt : State}
    (ee : (execSpineTransfer src dst s) = .next nxt) : nxt.kept = s.kept := by
  unfold execSpineTransfer at ee; rw [← next_inj ee]; (repeat' split) <;> simp
@[simp] theorem sendRaw_kept (s : State) (port : Nat) (ps : List Packet) : (sendRaw s port ps).kept = s.kept := by simp
    [sendRaw]
@[simp] theorem keyxHdr_kept (s : State) (port part opx : Nat) : (keyxHdr s port part opx).2.kept = s.kept := by simp [keyxHdr]
@[simp] theorem sendSlotNote_kept (s : State) (port part slot opx : Nat) : (sendSlotNote s port part slot opx).kept = s.kept :=
    by simp [sendSlotNote]
@[simp] theorem answerKeyx_kept (s : State) (port : Nat) (h : Hdr) (st : BitVec 8) : (answerKeyx s port h st).kept = s.kept :=
    by simp [answerKeyx]
@[simp] theorem dropKx_kept (s : State) (port part slot : Nat) : (dropKx s port part slot).kept = s.kept := by simp [dropKx]
@[simp] theorem kxRefused_kept (s : State) (port : Nat) (m : Msg) (st : BitVec 8) : (kxRefused s port m st).kept = s.kept := by
    simp [kxRefused]
@[simp] theorem loadSlot_kept (s : State) (port part slot : Nat) (initiator : Bool) (k : List Byte) : (loadSlot s port part
    slot initiator k).kept = s.kept := by simp [loadSlot]
@[simp] theorem kxAccept_kept (s : State) (port : Nat) (m : Msg) : (kxAccept s port m).kept = s.kept := by simp [kxAccept]
@[simp] theorem kxInit_kept (s : State) (port : Nat) (m : Msg) : (kxInit s port m).kept = s.kept := by
  unfold kxInit; (repeat' split) <;> simp
theorem execKxInit_kept (port : Port) (m : Msg) (s : State) {nxt : State}
    (ee : (execKxInit port m s) = .next nxt) : nxt.kept = s.kept := by
  unfold execKxInit at ee; rw [← next_inj ee]; simp
@[simp] theorem keyEstablished_kept (s : State) (port part slot : Nat) : (keyEstablished s port part slot).kept = s.kept := by
    simp [keyEstablished]
@[simp] theorem kxFailed_kept (s : State) (k : Kx) : (kxFailed s k).kept = s.kept := by simp [kxFailed]
@[simp] theorem kxResp_kept (s : State) (port : Nat) (m : Msg) : (kxResp s port m).kept = s.kept := by
  unfold kxResp; (repeat' split) <;> simp
theorem execKxResp_kept (port : Port) (m : Msg) (s : State) {nxt : State}
    (ee : (execKxResp port m s) = .next nxt) : nxt.kept = s.kept := by
  unfold execKxResp at ee; rw [← next_inj ee]; simp
@[simp] theorem kxActive_kept (s : State) (port : Nat) (m : Msg) : (kxActive s port m).kept = s.kept := by simp [kxActive]
theorem execKxActive_kept (port : Port) (m : Msg) (s : State) {nxt : State}
    (ee : (execKxActive port m s) = .next nxt) : nxt.kept = s.kept := by
  unfold execKxActive at ee; rw [← next_inj ee]; simp
@[simp] theorem stopSlot_kept (s : State) (port part slot : Nat) : (stopSlot s port part slot).kept = s.kept := by simp
    [stopSlot]
@[simp] theorem kxRetire_kept (s : State) (port : Nat) (m : Msg) : (kxRetire s port m).kept = s.kept := by simp [kxRetire]
theorem execKxRetire_kept (port : Port) (m : Msg) (s : State) {nxt : State}
    (ee : (execKxRetire port m s) = .next nxt) : nxt.kept = s.kept := by
  unfold execKxRetire at ee; rw [← next_inj ee]; simp
@[simp] theorem startKx_kept (s : State) (port part slot : Nat) : (startKx s port part slot).kept = s.kept := by simp [startKx]
@[simp] theorem setKeyEstablish_kept (s : State) (by_ : Caller) (p v : Nat) : (setKeyEstablish s by_ p v).s.kept = s.kept := by
    simp [setKeyEstablish]
theorem execKeyEstablish_kept (by_ : Caller) (p : Part) (v : BitVec 16) (s : State) {nxt : State}
    (ee : (execKeyEstablish by_ p v s) = .next nxt) : nxt.kept = s.kept := by
  unfold execKeyEstablish at ee; rw [← next_inj ee]; simp
@[simp] theorem setKeyRetire_kept (s : State) (by_ : Caller) (p v : Nat) : (setKeyRetire s by_ p v).s.kept = s.kept := by simp
    [setKeyRetire]
theorem execKeyRetire_kept (by_ : Caller) (p : Part) (v : BitVec 16) (s : State) {nxt : State}
    (ee : (execKeyRetire by_ p v s) = .next nxt) : nxt.kept = s.kept := by
  unfold execKeyRetire at ee; rw [← next_inj ee]; simp
theorem execReceiveKeyErase_kept (port : Port) (p : Part) (slot : KeySlot) (s : State) {nxt : State}
    (ee : (execReceiveKeyErase port p slot s) = .next nxt) : nxt.kept = s.kept := by
  unfold execReceiveKeyErase at ee; rw [← next_inj ee]; simp
theorem execKeyxTimeout_kept (port : Port) (p : Part) (slot : KeySlot) (s : State) {nxt : State}
    (ee : (execKeyxTimeout port p slot s) = .next nxt) : nxt.kept = s.kept := by
  unfold execKeyxTimeout at ee; rw [← next_inj ee]; simp
@[simp] theorem setPeerAllow_kept (s : State) (by_ : Caller) (p : Nat) (ds : List (BitVec 256)) : (setPeerAllow s by_ p
    ds).s.kept = s.kept := by
  unfold setPeerAllow; (repeat' split) <;> simp
theorem execPeerAllow_kept (by_ : Caller) (p : Part) (digests : List (BitVec 256)) (s : State) {nxt : State}
    (ee : (execPeerAllow by_ p digests s) = .next nxt) : nxt.kept = s.kept := by
  unfold execPeerAllow at ee; rw [← next_inj ee]; simp
@[simp] theorem setPrtCred_kept (s : State) (by_ : Caller) (p : Nat) (cred : BitVec 256) : (setPrtCred s by_ p cred).s.kept =
    s.kept := by simp [setPrtCred]
theorem execPrtCred_kept (by_ : Caller) (p : Part) (cred : BitVec 256) (s : State) {nxt : State}
    (ee : (execPrtCred by_ p cred s) = .next nxt) : nxt.kept = s.kept := by
  unfold execPrtCred at ee; rw [← next_inj ee]; simp
@[simp] theorem setHostRekey_kept (s : State) (by_ : Caller) (p v : Nat) : (setHostRekey s by_ p v).s.kept = s.kept := by simp
    [setHostRekey]
theorem execHostRekey_kept (by_ : Caller) (p : Part) (v : BitVec 8) (s : State) {nxt : State}
    (ee : (execHostRekey by_ p v s) = .next nxt) : nxt.kept = s.kept := by
  unfold execHostRekey at ee; rw [← next_inj ee]; simp
@[simp] theorem startClassHead_kept (s : State) (o c : Nat) (st : OutSt) (h : Held) : (startClassHead s o c st h).kept = s.kept
    := by simp [startClassHead]
@[simp] theorem outputSelect_kept (s : State) (o : Nat) : (outputSelect s o).kept = s.kept := by
  unfold outputSelect; (repeat' split) <;> simp
@[simp] theorem resendHead_kept (s : State) (p : Nat) (r : TxRec) (rs : List TxRec) : (resendHead s p r rs).kept = s.kept := by
    simp [resendHead]
theorem execOutputSelect_kept (o : Output) (s : State) {nxt : State}
    (ee : (execOutputSelect o s) = .next nxt) : nxt.kept = s.kept := by
  unfold execOutputSelect at ee; rw [← next_inj ee]; (repeat' split) <;> simp
theorem execDwrrStarveTimeout_kept (o : Output) (c : BitVec 3) (s : State) {nxt : State}
    (ee : (execDwrrStarveTimeout o c s) = .next nxt) : nxt.kept = s.kept := by
  unfold execDwrrStarveTimeout at ee; rw [← next_inj ee]; simp
@[simp] theorem refillOutput_kept (s : State) (o : Nat) : (refillOutput s o).kept = s.kept := by simp [refillOutput]
@[simp] theorem noteShaper_kept (s : State) (o k : Nat) : (noteShaper s o k).kept = s.kept := by simp [noteShaper]
@[simp] theorem refill_kept (s : State) : (refill s).kept = s.kept := by simp [refill]
theorem execRefillBoundary_kept (s : State) {nxt : State}
    (ee : (execRefillBoundary s) = .next nxt) : nxt.kept = s.kept := by
  unfold execRefillBoundary at ee; rw [← next_inj ee]; simp
@[simp] theorem qosRejected_kept (s : State) (owner key : Nat) : (qosRejected s owner key).kept = s.kept := by simp
    [qosRejected]
@[simp] theorem setStrictMask_kept (s : State) (by_ : Caller) (o v : Nat) : (setStrictMask s by_ o v).s.kept = s.kept := by
  unfold setStrictMask; (repeat' split) <;> simp
theorem execStrictMask_kept (by_ : Caller) (o : Output) (v : BitVec 8) (s : State) {nxt : State}
    (ee : (execStrictMask by_ o v s) = .next nxt) : nxt.kept = s.kept := by
  unfold execStrictMask at ee; rw [← next_inj ee]; simp
@[simp] theorem setDropProfile_kept (s : State) (by_ : Caller) (o : Nat) (c : Colour) (f : ProfField) (v : Nat) :
    (setDropProfile s by_ o c f v).s.kept = s.kept := by
  unfold setDropProfile; dsimp only; (repeat' split) <;> simp
theorem execDropProfileWrite_kept (by_ : Caller) (o : Output) (c : Colour) (f : ProfField) (v : BitVec 32) (s : State) {nxt :
    State}
    (ee : (execDropProfileWrite by_ o c f v s) = .next nxt) : nxt.kept = s.kept := by
  unfold execDropProfileWrite at ee; rw [← next_inj ee]; simp
@[simp] theorem writeMeter_kept (by_ : Caller) (s : State) (r : BitVec 32 × BitVec 192) : (writeMeter by_ s r).2.kept = s.kept
    := by
  unfold writeMeter; dsimp only; (repeat' split) <;> simp
@[simp] theorem setMeters_kept (s : State) (by_ : Caller) (recs : List (BitVec 32 × BitVec 192)) : (setMeters s by_
    recs).s.kept = s.kept := by simp [setMeters]
theorem execMeterWrite_kept (by_ : Caller) (recs : List (BitVec 32 × BitVec 192)) (s : State) {nxt : State}
    (ee : (execMeterWrite by_ recs s) = .next nxt) : nxt.kept = s.kept := by
  unfold execMeterWrite at ee; rw [← next_inj ee]; simp
@[simp] theorem rejectConfig_kept (s : State) (p sub : Nat) : (rejectConfig s p sub).s.kept = s.kept := by simp [rejectConfig]
@[simp] theorem configWrite_kept (s : State) (by_ : Caller) (p sub : Nat) (ok : Bool) (r : State)
    (h : r.kept = s.kept) : (configWrite s by_ p sub ok r).s.kept = s.kept := by
  unfold configWrite; simp [h]; (repeat' split) <;> simp [h]
@[simp] theorem setPorts_kept (s : State) (by_ : Caller) (p v : Nat) : (setPorts s by_ p v).s.kept = s.kept := by simp
    [setPorts]
@[simp] theorem setHosts_kept (s : State) (by_ : Caller) (p v : Nat) : (setHosts s by_ p v).s.kept = s.kept := by simp
    [setHosts]
@[simp] theorem setHfid_kept (s : State) (by_ : Caller) (p h v : Nat) : (setHfid s by_ p h v).s.kept = s.kept := by simp
    [setHfid]
theorem execPorts_kept (by_ : Caller) (p : Part) (v : BitVec 128) (s : State) {nxt : State}
    (ee : (execPorts by_ p v s) = .next nxt) : nxt.kept = s.kept := by
  unfold execPorts at ee; rw [← next_inj ee]; simp
theorem execHosts_kept (by_ : Caller) (p : Part) (v : BitVec 8) (s : State) {nxt : State}
    (ee : (execHosts by_ p v s) = .next nxt) : nxt.kept = s.kept := by
  unfold execHosts at ee; rw [← next_inj ee]; simp
theorem execHfid_kept (by_ : Caller) (p : Part) (h : HostPort) (v : BitVec 32) (s : State) {nxt : State}
    (ee : (execHfid by_ p h v s) = .next nxt) : nxt.kept = s.kept := by
  unfold execHfid at ee; rw [← next_inj ee]; simp
@[simp] theorem setCreate_kept (s : State) (by_ : Caller) (p : Nat) : (setCreate s by_ p).s.kept = s.kept := by simp [setCreate]
theorem execCreate_kept (by_ : Caller) (p : Part) (s : State) {nxt : State}
    (ee : (execCreate by_ p s) = .next nxt) : nxt.kept = s.kept := by
  unfold execCreate at ee; rw [← next_inj ee]; simp
@[simp] theorem setSeal_kept (s : State) (by_ : Caller) (p : Nat) : (setSeal s by_ p).s.kept = s.kept := by simp [setSeal]
theorem execSeal_kept (by_ : Caller) (p : Part) (s : State) {nxt : State}
    (ee : (execSeal by_ p s) = .next nxt) : nxt.kept = s.kept := by
  unfold execSeal at ee; rw [← next_inj ee]; simp
theorem execSealTimeout_kept (p : Part) (s : State) {nxt : State}
    (ee : (execSealTimeout p s) = .next nxt) : nxt.kept = s.kept := by
  unfold execSealTimeout at ee; rw [← next_inj ee]; simp
@[simp] theorem endMsg_kept (st : BitVec 8) (s : State) (m : Msg) : (endMsg st s m).kept = s.kept := by simp [endMsg]
@[simp] theorem endEngines_kept (s : State) (p : Nat) (st : BitVec 8) : (endEngines s p st).kept = s.kept := by
  unfold endEngines; extract_lets mine s1 rs bs s2 s3
  have e3 : s3.kept = s2.kept := by simp only [s3]; apply foldl_kept; intro s d; split <;> simp
  have e2 : s2.kept = s.kept := by simp [s2, s1]
  rw [foldl_kept, e3, e2]; simp
@[simp] theorem endOpeners_kept (s : State) (p : Nat) (st : BitVec 8) : (endOpeners s p st).kept = s.kept := by
  unfold endOpeners; apply foldl_kept; intro s d; (repeat' split) <;> simp
@[simp] theorem endForwarded_kept (s : State) (p : Nat) (st : BitVec 8) : (endForwarded s p st).kept = s.kept := by simp
    [endForwarded]
@[simp] theorem dropPackets_kept (s : State) (gone : Held → Bool) : (dropPackets s gone).kept = s.kept := by simp [dropPackets]
@[simp] theorem scrubFolios_kept (s : State) (p : Nat) : (scrubFolios s p).kept = s.kept := by simp [scrubFolios]
@[simp] theorem clearRecords_kept (s : State) (p : Nat) : (clearRecords s p).kept = s.kept := by simp [clearRecords]
@[simp] theorem clearQuills_kept (s : State) (p : Nat) : (clearQuills s p).kept = s.kept := by simp [clearQuills]
@[simp] theorem fencePackets_kept (s : State) (p : Nat) : (fencePackets s p).kept = s.kept := by simp [fencePackets]
@[simp] theorem purge_kept (s : State) (p : Nat) : (purge s p).kept = s.kept := by simp [purge]
@[simp] theorem eraseKeys_kept (s : State) (p : Nat) : (eraseKeys s p).kept = s.kept := by simp [eraseKeys]
@[simp] theorem endPrt_kept (s : State) (p : Nat) : (endPrt s p).kept = s.kept := by simp [endPrt]
@[simp] theorem macOff_kept (s : State) (p : Nat) : (macOff s p).kept = s.kept := by simp [macOff]
@[simp] theorem portUp_kept (s : State) (p : Nat) : (portUp s p).kept = s.kept := by simp [portUp]
theorem execSignalDetect_kept (p : Port) (s : State) {nxt : State}
    (ee : (execSignalDetect p s) = .next nxt) : nxt.kept = s.kept := by
  unfold execSignalDetect at ee; rw [← next_inj ee]; simp
theorem execTrainComplete_kept (p : Port) (s : State) {nxt : State}
    (ee : (execTrainComplete p s) = .next nxt) : nxt.kept = s.kept := by
  unfold execTrainComplete at ee; rw [← next_inj ee]; (repeat' split) <;> simp
@[simp] theorem trainFail_kept (s : State) (p : Nat) : (trainFail s p).kept = s.kept := by simp [trainFail]
theorem execTrainTimeout_kept (p : Port) (s : State) {nxt : State}
    (ee : (execTrainTimeout p s) = .next nxt) : nxt.kept = s.kept := by
  unfold execTrainTimeout at ee; rw [← next_inj ee]; simp
@[simp] theorem enterActive_kept (s : State) (p : Nat) : (enterActive s p).kept = s.kept := by simp [enterActive]
@[simp] theorem blockLocked_kept (s : State) (p : Nat) : (blockLocked s p).kept = s.kept := by
  unfold blockLocked; (repeat' split) <;> simp
theorem execBlockLock_kept (p : Port) (s : State) {nxt : State}
    (ee : (execBlockLock p s) = .next nxt) : nxt.kept = s.kept := by
  unfold execBlockLock at ee; rw [← next_inj ee]; simp
theorem execCapxSendTick_kept (p : Port) (s : State) {nxt : State}
    (ee : (execCapxSendTick p s) = .next nxt) : nxt.kept = s.kept := by
  unfold execCapxSendTick at ee; rw [← next_inj ee]; (repeat' split) <;> simp
@[simp] theorem ligAcked_kept (s : State) (p : Nat) (r : TxRec) : (ligAcked s p r).kept = s.kept := by
  unfold ligAcked; (repeat' split) <;> simp
@[simp] theorem applyAck_kept (s : State) (p : Nat) (a : BitVec 16) : (applyAck s p a).kept = s.kept := by
  unfold applyAck; dsimp only; (repeat' split) <;> simp
@[simp] theorem applyItem_kept (s : State) (p : Nat) (i : LinkItem) : (applyItem s p i).kept = s.kept := by simp [applyItem]
@[simp] theorem withItem_kept (s : State) (p : Nat) (i : LinkItem) (f : State → State)
    (h : ∀ s, (f s).kept = s.kept) : (withItem s p i f).kept = s.kept := by
  unfold withItem; split <;> simp [h]
@[simp] theorem noteCapx_kept (s : State) (p : Nat) (c : Capx) : (noteCapx s p c).kept = s.kept := by simp [noteCapx]
@[simp] theorem finishExchange_kept (s : State) (p : Nat) (c : Capx) : (finishExchange s p c).kept = s.kept := by simp
    [finishExchange]
@[simp] theorem capxItem_kept (s : State) (p : Nat) (i : LinkItem) (c : Capx) : (capxItem s p i c).kept = s.kept := by simp
    [capxItem]
theorem execCapx_kept (p : Port) (i : LinkItem) (c : Capx) (s : State) {nxt : State}
    (ee : (execCapx p i c s) = .next nxt) : nxt.kept = s.kept := by
  unfold execCapx at ee; rw [← next_inj ee]; simp
theorem execExchangeTimeout_kept (p : Port) (s : State) {nxt : State}
    (ee : (execExchangeTimeout p s) = .next nxt) : nxt.kept = s.kept := by
  unfold execExchangeTimeout at ee; rw [← next_inj ee]; simp
@[simp] theorem enterRetrain_kept (s : State) (p cause : Nat) : (enterRetrain s p cause).kept = s.kept := by simp [enterRetrain]
@[simp] theorem countFec_kept (s : State) (p : Nat) (f : Fec) : (countFec s p f).kept = s.kept := by simp [countFec]
theorem execUncorrectableLimit_kept (p : Port) (s : State) {nxt : State}
    (ee : (execUncorrectableLimit p s) = .next nxt) : nxt.kept = s.kept := by
  unfold execUncorrectableLimit at ee; rw [← next_inj ee]; simp
@[simp] theorem rtrnItem_kept (s : State) (p : Nat) (i : LinkItem) : (rtrnItem s p i).kept = s.kept := by simp [rtrnItem]
theorem execRtrn_kept (p : Port) (i : LinkItem) (s : State) {nxt : State}
    (ee : (execRtrn p i s) = .next nxt) : nxt.kept = s.kept := by
  unfold execRtrn at ee; rw [← next_inj ee]; simp
@[simp] theorem setRetrain_kept (s : State) (by_ : Caller) (p v : Nat) : (setRetrain s by_ p v).s.kept = s.kept := by
  unfold setRetrain; (repeat' split) <;> simp
theorem execRetrain_kept (by_ : Caller) (p : Port) (v : BitVec 8) (s : State) {nxt : State}
    (ee : (execRetrain by_ p v s) = .next nxt) : nxt.kept = s.kept := by
  unfold execRetrain at ee; rw [← next_inj ee]; simp
@[simp] theorem llrStorm_kept (s : State) (p : Nat) (lseq : BitVec 16) (run : Nat) : (llrStorm s p lseq run).kept = s.kept :=
    by simp [llrStorm]
@[simp] theorem refuseLink_kept (s : State) (p : Nat) : (refuseLink s p).kept = s.kept := by simp [refuseLink]
@[simp] theorem framingError_kept (s : State) (p : Nat) : (framingError s p).kept = s.kept := by simp [framingError]
@[simp] theorem advanceRx_kept (s : State) (p part slot : Nat) : (advanceRx s p part slot).kept = s.kept := by simp [advanceRx]
@[simp] theorem authFail_kept (s : State) (p : Nat) (h : Hdr) : (authFail s p h).kept = s.kept := by simp [authFail]
@[simp] theorem sendStomped_kept (s : State) (o : Nat) (h : Held) : (sendStomped s o h).kept = s.kept := by simp [sendStomped]
@[simp] theorem stompCopy_kept (s : State) (p : Nat) (pk : Packet) : (stompCopy s p pk).kept = s.kept := by
  unfold stompCopy; dsimp only; (repeat' split) <;> simp
@[simp] theorem takeLseq_kept (s : State) (p : Nat) : (takeLseq s p).kept = s.kept := by simp [takeLseq]
@[simp] theorem acceptPacket_kept (s : State) (p len : Nat) (pk : Packet) : (acceptPacket s p len pk).kept = s.kept := by simp
    [acceptPacket]
@[simp] theorem checkTag_kept (s : State) (p : Nat) (w : WirePacket) : (checkTag s p w).kept = s.kept := by
  unfold checkTag; dsimp only; (repeat' split) <;> simp
@[simp] theorem xoffViolation_kept (s : State) (p : Nat) (h : Hdr) : (xoffViolation s p h).kept = s.kept := by simp
    [xoffViolation]
@[simp] theorem receivePacket_kept (s : State) (p : Nat) (lseq : BitVec 16) (w : WirePacket) : (receivePacket s p lseq w).kept
    = s.kept := by simp [receivePacket]
@[simp] theorem lstatItem_kept (s : State) (p : Nat) (i : LinkItem) : (lstatItem s p i).kept = s.kept := by simp [lstatItem]
theorem execLstat_kept (p : Port) (i : LinkItem) (s : State) {nxt : State}
    (ee : (execLstat p i s) = .next nxt) : nxt.kept = s.kept := by
  unfold execLstat at ee; rw [← next_inj ee]; simp
@[simp] theorem drainResend_kept (s : State) (p : Nat) (l : List TxRec) : (drainResend s p l).kept = s.kept := by
  induction l generalizing s with
  | nil => simp [drainResend]
  | cons r l ih => unfold drainResend; split <;> simp [ih]
@[simp] theorem nakReceived_kept (s : State) (p : Nat) (q : BitVec 16) : (nakReceived s p q).kept = s.kept := by simp
    [nakReceived]
@[simp] theorem nakItem_kept (s : State) (p : Nat) (i : LinkItem) (q : BitVec 16) : (nakItem s p i q).kept = s.kept := by simp
    [nakItem]
theorem execNak_kept (p : Port) (i : LinkItem) (nakseq : BitVec 16) (s : State) {nxt : State}
    (ee : (execNak p i nakseq s) = .next nxt) : nxt.kept = s.kept := by
  unfold execNak at ee; rw [← next_inj ee]; simp
@[simp] theorem hbeatItem_kept (s : State) (p : Nat) (i : LinkItem) (count : BitVec 32) : (hbeatItem s p i count).kept = s.kept
    := by simp [hbeatItem]
theorem execHbeat_kept (p : Port) (i : LinkItem) (count : BitVec 32) (s : State) {nxt : State}
    (ee : (execHbeat p i count s) = .next nxt) : nxt.kept = s.kept := by
  unfold execHbeat at ee; rw [← next_inj ee]; simp
theorem execHbeatSend_kept (p : Port) (s : State) {nxt : State}
    (ee : (execHbeatSend p s) = .next nxt) : nxt.kept = s.kept := by
  unfold execHbeatSend at ee; rw [← next_inj ee]; simp
theorem execAckSend_kept (p : Port) (s : State) {nxt : State}
    (ee : (execAckSend p s) = .next nxt) : nxt.kept = s.kept := by
  unfold execAckSend at ee; rw [← next_inj ee]; simp
theorem execLinkReplayTimeout_kept (p : Port) (s : State) {nxt : State}
    (ee : (execLinkReplayTimeout p s) = .next nxt) : nxt.kept = s.kept := by
  unfold execLinkReplayTimeout at ee; rw [← next_inj ee]; simp
@[simp] theorem blockSeek_kept (s : State) (p : Nat) (b : LinkBlock) : (blockSeek s p b).kept = s.kept := by simp [blockSeek]
theorem execMsgAssemblyTimeout_kept (k : ReqKey) (s : State) {nxt : State}
    (ee : (execMsgAssemblyTimeout k s) = .next nxt) : nxt.kept = s.kept := by
  unfold execMsgAssemblyTimeout at ee; rw [← next_inj ee]; simp
@[simp] theorem hostAccept_kept (s : State) (h : HostPort) (d : Datagram) : (hostAccept s h d).kept = s.kept := by simp
    [hostAccept]
@[simp] theorem hostDatagram1_kept (s : State) (h : HostPort) (d : Datagram) : (hostDatagram1 s h d).kept = s.kept := by simp
    [hostDatagram1]
@[simp] theorem macDrop_kept (s : State) (h : HostPort) : (macDrop s h).kept = s.kept := by simp [macDrop]
theorem execHostDatagram_kept (h : HostPort) (d : Datagram) (s : State) {nxt : State}
    (ee : (execHostDatagram h d s) = .next nxt) : nxt.kept = s.kept := by
  unfold execHostDatagram at ee; rw [← next_inj ee]; simp
theorem execHostLinkChange_kept (h : HostPort) (up : Bool) (rate : BitVec 2) (s : State) {nxt : State}
    (ee : (execHostLinkChange h up rate s) = .next nxt) : nxt.kept = s.kept := by
  unfold execHostLinkChange at ee; rw [← next_inj ee]; simp
@[simp] theorem setHostEnable_kept (s : State) (by_ : Caller) (h v : Nat) : (setHostEnable s by_ h v).s.kept = s.kept := by
    simp [setHostEnable]
theorem execHostEnable_kept (by_ : Caller) (h : HostPort) (v : BitVec 8) (s : State) {nxt : State}
    (ee : (execHostEnable by_ h v s) = .next nxt) : nxt.kept = s.kept := by
  unfold execHostEnable at ee; rw [← next_inj ee]; simp
@[simp] theorem endPartition_kept (s : State) (p : Nat) : (endPartition s p).kept = s.kept := by simp [endPartition]
@[simp] theorem endPartitions_kept (s : State) : (endPartitions s).kept = s.kept := by simp [endPartitions]
@[simp] theorem fillBuckets_kept (s : State) (o : Nat) : (fillBuckets s o).kept = s.kept := by simp [fillBuckets]
@[simp] theorem portLost_kept (s : State) (p : Nat) : (portLost s p).kept = s.kept := by simp [portLost]
@[simp] theorem noteRevoked_kept (old s : State) : (noteRevoked old s).kept = s.kept := by simp [noteRevoked]
@[simp] theorem wipe_kept (s : State) : (wipe s).kept = s.kept := by simp [wipe]
@[simp] theorem endDataPath_kept (s : State) : (endDataPath s).kept = s.kept := by simp [endDataPath]
@[simp] theorem startTimebase_kept (s : State) : (startTimebase s).kept = s.kept := by simp [startTimebase]
@[simp] theorem refillFolio_kept (s : State) (i : Nat) : (refillFolio s i).kept = s.kept := by simp [refillFolio]
theorem execMacsecOldSaErase_kept (h : HostPort) (s : State) {nxt : State}
    (ee : (execMacsecOldSaErase h s) = .next nxt) : nxt.kept = s.kept := by
  unfold execMacsecOldSaErase at ee; rw [← next_inj ee]; simp
theorem execMsgDiscardEnd_kept (k : ReqKey) (s : State) {nxt : State}
    (ee : (execMsgDiscardEnd k s) = .next nxt) : nxt.kept = s.kept := by
  unfold execMsgDiscardEnd at ee; rw [← next_inj ee]; simp
@[simp] theorem railsDown_kept (s : State) (state : Nat) : (railsDown s state).kept = s.kept := by simp [railsDown]
@[simp] theorem ringAlert_kept (s : State) (rec_ : LogRec) : (ringAlert s rec_).kept = s.kept := by simp [ringAlert]
@[simp] theorem raiseAlert_kept (s : State) (code : Nat) (items : List (Nat × Nat)) : (raiseAlert s code items).kept = s.kept
    := by
  unfold raiseAlert; dsimp only; (repeat' split) <;> simp
@[simp] theorem setDivisor_kept (s : State) : (setDivisor s).kept = s.kept := by simp [setDivisor]
@[simp] theorem tripDown_kept (s : State) : (tripDown s).kept = s.kept := by simp [tripDown]
@[simp] theorem thermalTrip_kept (s : State) (diode : Nat) : (thermalTrip s diode).kept = s.kept := by simp [thermalTrip]
@[simp] theorem takeReadings_kept (s : State) (r : Readings) : (takeReadings s r).kept = s.kept := by simp [takeReadings]
@[simp] theorem countDivisor_kept (s : State) : (countDivisor s).kept = s.kept := by simp [countDivisor]
@[simp] theorem sensorSample_kept (s : State) (r : Readings) : (sensorSample s r).kept = s.kept := by simp [sensorSample]
theorem execSensorSample_kept (r : Readings) (s : State) {nxt : State}
    (ee : (execSensorSample r s) = .next nxt) : nxt.kept = s.kept := by
  unfold execSensorSample at ee; rw [← next_inj ee]; simp
theorem execHwThermalTrip_kept (diode : Fin 64) (s : State) {nxt : State}
    (ee : (execHwThermalTrip diode s) = .next nxt) : nxt.kept = s.kept := by
  unfold execHwThermalTrip at ee; rw [← next_inj ee]; simp
theorem execThrottleReleaseTimer_kept (power : Bool) (s : State) {nxt : State}
    (ee : (execThrottleReleaseTimer power s) = .next nxt) : nxt.kept = s.kept := by
  unfold execThrottleReleaseTimer at ee; rw [← next_inj ee]; simp
theorem execPowerLimitCount_kept (s : State) {nxt : State}
    (ee : (execPowerLimitCount s) = .next nxt) : nxt.kept = s.kept := by
  unfold execPowerLimitCount at ee; rw [← next_inj ee]; simp
@[simp] theorem drive_kept (s : State) (u : Int) : (drive s u).kept = s.kept := by simp [drive]
@[simp] theorem drivePattern_kept (s : State) (u : BitVec 32) : (drivePattern s u).kept = s.kept := by simp [drivePattern]
@[simp] theorem loopAuto_kept (s : State) (p e i : Int) : (loopAuto s p e i).kept = s.kept := by simp [loopAuto]
@[simp] theorem loopUpdate_kept (s : State) : (loopUpdate s).kept = s.kept := by
  unfold loopUpdate; dsimp only; (repeat' split) <;> simp
theorem execLoopUpdate_kept (s : State) {nxt : State}
    (ee : (execLoopUpdate s) = .next nxt) : nxt.kept = s.kept := by
  unfold execLoopUpdate at ee; rw [← next_inj ee]; simp
theorem execCoolantInletTimer_kept (s : State) {nxt : State}
    (ee : (execCoolantInletTimer s) = .next nxt) : nxt.kept = s.kept := by
  unfold execCoolantInletTimer at ee; rw [← next_inj ee]; (repeat' split) <;> simp
theorem execPumpTachTimer_kept (low : Bool) (s : State) {nxt : State}
    (ee : (execPumpTachTimer low s) = .next nxt) : nxt.kept = s.kept := by
  unfold execPumpTachTimer at ee; rw [← next_inj ee]; simp
theorem execLoopSaturationTimer_kept (s : State) {nxt : State}
    (ee : (execLoopSaturationTimer s) = .next nxt) : nxt.kept = s.kept := by
  unfold execLoopSaturationTimer at ee; rw [← next_inj ee]; (repeat' split) <;> simp
@[simp] theorem plogPersist_kept (s : State) (logno : BitVec 32) : (plogPersist s logno).kept = s.kept := by
  unfold plogPersist; dsimp only; (repeat' split) <;> simp
theorem execPlogPersist_kept (logno : BitVec 32) (s : State) {nxt : State}
    (ee : (execPlogPersist logno s) = .next nxt) : nxt.kept = s.kept := by
  unfold execPlogPersist at ee; rw [← next_inj ee]; simp
@[simp] theorem setPlogClear_kept (s : State) (by_ : Caller) (v : Nat) : (setPlogClear s by_ v).s.kept = s.kept := by simp
    [setPlogClear]
theorem execPlogClear_kept (by_ : Caller) (v : BitVec 8) (s : State) {nxt : State}
    (ee : (execPlogClear by_ v s) = .next nxt) : nxt.kept = s.kept := by
  unfold execPlogClear at ee; rw [← next_inj ee]; simp
@[simp] theorem setBypass_kept (s : State) (closed : Bool) : (setBypass s closed).kept = s.kept := by simp [setBypass]
@[simp] theorem enterRecovery_kept (s : State) (code : Nat) : (enterRecovery s code).kept = s.kept := by simp [enterRecovery]
@[simp] theorem runImage_kept (s : State) (cause : Nat) : (runImage s cause).kept = s.kept := by simp [runImage]
@[simp] theorem bootScribe_kept (s : State) (cause : Nat) : (bootScribe s cause).kept = s.kept := by simp [bootScribe]
@[simp] theorem restartScribe_kept (s : State) (cause : Nat) : (restartScribe s cause).kept = s.kept := by simp [restartScribe]
theorem execWatchdogExpire_kept (_core : Fin 4) (s : State) {nxt : State}
    (ee : (execWatchdogExpire _core s) = .next nxt) : nxt.kept = s.kept := by
  unfold execWatchdogExpire at ee; rw [← next_inj ee]; simp
@[simp] theorem raiseFw_kept (s : State) (code : Nat) (items : List (Nat × Nat)) : (raiseFw s code items).kept = s.kept := by
    simp [raiseFw]
@[simp] theorem setFw_kept (s : State) (f : Scribe → Scribe) : (setFw s f).kept = s.kept := by simp [setFw]
@[simp] theorem setFwStage_kept (s : State) (by_ : Caller) (image : List Byte) : (setFwStage s by_ image).s.kept = s.kept := by
    simp [setFwStage]
theorem execFwStage_kept (by_ : Caller) (image : List Byte) (s : State) {nxt : State}
    (ee : (execFwStage by_ image s) = .next nxt) : nxt.kept = s.kept := by
  unfold execFwStage at ee; rw [← next_inj ee]; simp
@[simp] theorem setFwVerify_kept (s : State) (by_ : Caller) : (setFwVerify s by_).s.kept = s.kept := by simp [setFwVerify]
theorem execFwVerify_kept (by_ : Caller) (s : State) {nxt : State}
    (ee : (execFwVerify by_ s) = .next nxt) : nxt.kept = s.kept := by
  unfold execFwVerify at ee; rw [← next_inj ee]; simp
@[simp] theorem fwVerifyDone_kept (s : State) : (fwVerifyDone s).kept = s.kept := by simp [fwVerifyDone]
theorem execFwVerifyDone_kept (s : State) {nxt : State}
    (ee : (execFwVerifyDone s) = .next nxt) : nxt.kept = s.kept := by
  unfold execFwVerifyDone at ee; rw [← next_inj ee]; simp
@[simp] theorem setFwInstall_kept (s : State) (by_ : Caller) : (setFwInstall s by_).s.kept = s.kept := by simp [setFwInstall]
theorem execFwInstall_kept (by_ : Caller) (s : State) {nxt : State}
    (ee : (execFwInstall by_ s) = .next nxt) : nxt.kept = s.kept := by
  unfold execFwInstall at ee; rw [← next_inj ee]; simp
@[simp] theorem fwInstallDone_kept (s : State) (match_ : Bool) : (fwInstallDone s match_).kept = s.kept := by simp
    [fwInstallDone]
theorem execFwInstallDone_kept (match_ : Bool) (s : State) {nxt : State}
    (ee : (execFwInstallDone match_ s) = .next nxt) : nxt.kept = s.kept := by
  unfold execFwInstallDone at ee; rw [← next_inj ee]; simp
@[simp] theorem setFwDiscard_kept (s : State) (by_ : Caller) : (setFwDiscard s by_).s.kept = s.kept := by simp [setFwDiscard]
theorem execFwDiscard_kept (by_ : Caller) (s : State) {nxt : State}
    (ee : (execFwDiscard by_ s) = .next nxt) : nxt.kept = s.kept := by
  unfold execFwDiscard at ee; rw [← next_inj ee]; simp
theorem execRingLinkChange_kept (portB : Bool) (up : Bool) (s : State) {nxt : State}
    (ee : (execRingLinkChange portB up s) = .next nxt) : nxt.kept = s.kept := by
  unfold execRingLinkChange at ee; rw [← next_inj ee]; simp
@[simp] theorem modPower_kept (s : State) (f : Power → Power) : (modPower s f).kept = s.kept := by simp [modPower]
theorem execRailFault_kept (rail : Fin 8) (s : State) {nxt : State}
    (ee : (execRailFault rail s) = .next nxt) : nxt.kept = s.kept := by
  unfold execRailFault at ee; rw [← next_inj ee]; simp
@[simp] theorem pwrLow_kept (s : State) : (pwrLow s).kept = s.kept := by simp [pwrLow]
@[simp] theorem pwrHigh_kept (s : State) : (pwrHigh s).kept = s.kept := by simp [pwrHigh]
@[simp] theorem vinGone_kept (s : State) : (vinGone s).kept = s.kept := by simp [vinGone]
theorem execVinUndervoltage_kept (s : State) {nxt : State}
    (ee : (execVinUndervoltage s) = .next nxt) : nxt.kept = s.kept := by
  unfold execVinUndervoltage at ee; rw [← next_inj ee]; simp
theorem execVinLost_kept (s : State) {nxt : State}
    (ee : (execVinLost s) = .next nxt) : nxt.kept = s.kept := by
  unfold execVinLost at ee; rw [← next_inj ee]; simp
theorem execRefclkLost_kept (standby : Bool) (s : State) {nxt : State}
    (ee : (execRefclkLost standby s) = .next nxt) : nxt.kept = s.kept := by
  unfold execRefclkLost at ee; rw [← next_inj ee]; simp
@[simp] theorem resetLow_kept (s : State) (report : Bool) : (resetLow s report).kept = s.kept := by simp [resetLow]
theorem execResetNAssert_kept (s : State) {nxt : State}
    (ee : (execResetNAssert s) = .next nxt) : nxt.kept = s.kept := by
  unfold execResetNAssert at ee; rw [← next_inj ee]; simp
theorem execPwrEnLow_kept (s : State) {nxt : State}
    (ee : (execPwrEnLow s) = .next nxt) : nxt.kept = s.kept := by
  unfold execPwrEnLow at ee; rw [← next_inj ee]; simp
theorem execPwrEnHigh_kept (s : State) {nxt : State}
    (ee : (execPwrEnHigh s) = .next nxt) : nxt.kept = s.kept := by
  unfold execPwrEnHigh at ee; rw [← next_inj ee]; simp
@[simp] theorem stuckEnds_kept (s : State) (i off : Nat) : (stuckEnds s i off).kept = s.kept := by simp [stuckEnds]
@[simp] theorem throttleTo_kept (s : State) (active : Bool) : (throttleTo s active).kept = s.kept := by simp [throttleTo]
@[simp] theorem divisorNow_kept (s : State) : (divisorNow s).kept = s.kept := by simp [divisorNow]
theorem execThrottleNChange_kept (active : Bool) (s : State) {nxt : State}
    (ee : (execThrottleNChange active s) = .next nxt) : nxt.kept = s.kept := by
  unfold execThrottleNChange at ee; rw [← next_inj ee]; simp
@[simp] theorem faultInTo_kept (s : State) (active : Bool) : (faultInTo s active).kept = s.kept := by simp [faultInTo]
theorem execFaultInNChange_kept (active : Bool) (s : State) {nxt : State}
    (ee : (execFaultInNChange active s) = .next nxt) : nxt.kept = s.kept := by
  unfold execFaultInNChange at ee; rw [← next_inj ee]; simp
@[simp] theorem stuckNow_kept (s : State) (i : Nat) (active : Bool) : (stuckNow s i active).kept = s.kept := by simp [stuckNow]
theorem execStuckTimer_kept (i : Sideband) (s : State) {nxt : State}
    (ee : (execStuckTimer i s) = .next nxt) : nxt.kept = s.kept := by
  unfold execStuckTimer at ee; rw [← next_inj ee]; (repeat' split) <;> simp
@[simp] theorem inputChatter_kept (s : State) (i : Sideband) : (inputChatter s i).kept = s.kept := by
  unfold inputChatter; (repeat' split) <;> simp
theorem execInputChatter_kept (i : Sideband) (s : State) {nxt : State}
    (ee : (execInputChatter i s) = .next nxt) : nxt.kept = s.kept := by
  unfold execInputChatter at ee; rw [← next_inj ee]; simp
@[simp] theorem vioLoss_kept (s : State) : (vioLoss s).kept = s.kept := by simp [vioLoss]
theorem execVioLoss_kept (s : State) {nxt : State}
    (ee : (execVioLoss s) = .next nxt) : nxt.kept = s.kept := by
  unfold execVioLoss at ee; rw [← next_inj ee]; simp
@[simp] theorem vioApply_kept (s : State) (levels : BitVec 4) : (vioApply s levels).kept = s.kept := by simp [vioApply]
theorem execVioApply_kept (levels : BitVec 4) (s : State) {nxt : State}
    (ee : (execVioApply levels s) = .next nxt) : nxt.kept = s.kept := by
  unfold execVioApply at ee; rw [← next_inj ee]; simp
@[simp] theorem tachGate_kept (s : State) (fan : Bool) (edges : Nat) : (tachGate s fan edges).kept = s.kept := by simp
    [tachGate]
theorem execTachGate_kept (fan : Bool) (edges : BitVec 32) (s : State) {nxt : State}
    (ee : (execTachGate fan edges s) = .next nxt) : nxt.kept = s.kept := by
  unfold execTachGate at ee; rw [← next_inj ee]; simp
@[simp] theorem resetApplied_kept (s : State) (epart level ix : Nat) : (resetApplied s epart level ix).kept = s.kept := by simp
    [resetApplied]
@[simp] theorem endJournal_kept (s : State) (j : JRec) : (endJournal s j).kept = s.kept := by simp [endJournal]
@[simp] theorem emptyBuffer_kept (s : State) (t : Nat) (js : List JRec) : (emptyBuffer s t js).kept = s.kept := by simp
    [emptyBuffer]
theorem execTileResetWindowEnd_kept (t : Tile) (s : State) {nxt : State}
    (ee : (execTileResetWindowEnd t s) = .next nxt) : nxt.kept = s.kept := by
  unfold execTileResetWindowEnd at ee; rw [← next_inj ee]; simp
@[simp] theorem issueReport_kept (s : State) (p : Nat) (nonce : List Byte) (op : Option ReqKey) : (issueReport s p nonce
    op).kept = s.kept := by simp [issueReport]
@[simp] theorem finishData_kept (s : State) (m : Msg) (body : List Byte) : (finishData s m body).kept = s.kept := by
  unfold finishData; (repeat' split) <;> simp
@[simp] theorem answerCopy_kept (s : State) (m : Msg) (r : OpRec) : (answerCopy s m r).kept = s.kept := by simp [answerCopy]
@[simp] theorem onceAttest_kept (s : State) (m : Msg) (f : State → State)
    (h : ∀ s, (f s).kept = s.kept) : (onceAttest s m f).kept = s.kept := by
  unfold onceAttest; (repeat' split) <;> simp [h]
@[simp] theorem failAttest_kept (s : State) (m : Msg) (st : BitVec 8) : (failAttest s m st).kept = s.kept := by simp
    [failAttest]
@[simp] theorem atReqNow_kept (s : State) (m : Msg) : (atReqNow s m).kept = s.kept := by simp [atReqNow]
@[simp] theorem finalizeSeal_kept (s : State) (p : Nat) : (finalizeSeal s p).kept = s.kept := by
  unfold finalizeSeal; (repeat' split) <;> simp
@[simp] theorem setAttReq_kept (s : State) (by_ : Caller) (nonce : List Byte) : (setAttReq s by_ nonce).s.kept = s.kept := by
    simp [setAttReq]
theorem execAttReq_kept (by_ : Caller) (nonce : BitVec 256) (s : State) {nxt : State}
    (ee : (execAttReq by_ nonce s) = .next nxt) : nxt.kept = s.kept := by
  unfold execAttReq at ee; rw [← next_inj ee]; simp
@[simp] theorem tgtDeadTimeout_kept (s : State) (k : ReqKey) : (tgtDeadTimeout s k).kept = s.kept := by
  unfold tgtDeadTimeout; (repeat' split) <;> simp
theorem execTgtDeadTimeout_kept (k : ReqKey) (s : State) {nxt : State}
    (ee : (execTgtDeadTimeout k s) = .next nxt) : nxt.kept = s.kept := by
  unfold execTgtDeadTimeout at ee; rw [← next_inj ee]; simp
theorem execReplayTimeExpire_kept (k : ReqKey) (s : State) {nxt : State}
    (ee : (execReplayTimeExpire k s) = .next nxt) : nxt.kept = s.kept := by
  unfold execReplayTimeExpire at ee; rw [← next_inj ee]; (repeat' split) <;> simp
theorem execOrphanTimeExpire_kept (k : ReqKey) (s : State) {nxt : State}
    (ee : (execOrphanTimeExpire k s) = .next nxt) : nxt.kept = s.kept := by
  unfold execOrphanTimeExpire at ee; rw [← next_inj ee]; (repeat' split) <;> simp
theorem execOpRecordExpire_kept (src : Fid) (part : BitVec 5) (opid : Opid) (s : State) {nxt : State}
    (ee : (execOpRecordExpire src part opid s) = .next nxt) : nxt.kept = s.kept := by
  unfold execOpRecordExpire at ee; rw [← next_inj ee]; simp
@[simp] theorem sendHeartbeat_kept (s : State) (f : Fid) : (sendHeartbeat s f).kept = s.kept := by simp [sendHeartbeat]
theorem execHeartbeatTick_kept (s : State) {nxt : State}
    (ee : (execHeartbeatTick s) = .next nxt) : nxt.kept = s.kept := by
  unfold execHeartbeatTick at ee; rw [← next_inj ee]; simp
@[simp] theorem heartbeatHeard_kept (s : State) (src : Fid) : (heartbeatHeard s src).kept = s.kept := by simp [heartbeatHeard]
theorem execHeartbeat_kept (p : Packet) (s : State) {nxt : State}
    (ee : (execHeartbeat p s) = .next nxt) : nxt.kept = s.kept := by
  unfold execHeartbeat at ee; rw [← next_inj ee]; simp
@[simp] theorem setHbWatch_kept (s : State) (by_ : Caller) (recs : List (BitVec 32)) : (setHbWatch s by_ recs).s.kept = s.kept
    := by
  unfold setHbWatch; (repeat' split) <;> simp
theorem execHbWatch_kept (by_ : Caller) (recs : List (BitVec 32)) (s : State) {nxt : State}
    (ee : (execHbWatch by_ recs s) = .next nxt) : nxt.kept = s.kept := by
  unfold execHbWatch at ee; rw [← next_inj ee]; simp
@[simp] theorem setMemberStage_kept (s : State) (by_ : Caller) (bs : List Byte) : (setMemberStage s by_ bs).s.kept = s.kept :=
    by
  unfold setMemberStage; dsimp only; (repeat' split) <;> simp
theorem execMemberStage_kept (by_ : Caller) (bytes : List Byte) (s : State) {nxt : State}
    (ee : (execMemberStage by_ bytes s) = .next nxt) : nxt.kept = s.kept := by
  unfold execMemberStage at ee; rw [← next_inj ee]; simp
@[simp] theorem applyStaged_kept (s : State) : (applyStaged s).kept = s.kept := by
  unfold applyStaged; (repeat' split) <;> simp
@[simp] theorem setMemberNow_kept (s : State) (by_ : Caller) (v : Nat) : (setMemberNow s by_ v).s.kept = s.kept := by simp
    [setMemberNow]
theorem execMemberNow_kept (by_ : Caller) (v : BitVec 8) (s : State) {nxt : State}
    (ee : (execMemberNow by_ v s) = .next nxt) : nxt.kept = s.kept := by
  unfold execMemberNow at ee; rw [← next_inj ee]; simp
@[simp] theorem setMemberNotify_kept (s : State) (by_ : Caller) (v : Nat) : (setMemberNotify s by_ v).s.kept = s.kept := by
  unfold setMemberNotify; (repeat' split) <;> simp
theorem execMemberNotify_kept (by_ : Caller) (v : BitVec 8) (s : State) {nxt : State}
    (ee : (execMemberNotify by_ v s) = .next nxt) : nxt.kept = s.kept := by
  unfold execMemberNotify at ee; rw [← next_inj ee]; simp
@[simp] theorem setStragClear_kept (s : State) (by_ : Caller) (mon v : Nat) : (setStragClear s by_ mon v).s.kept = s.kept := by
    simp [setStragClear]
theorem execStragClear_kept (by_ : Caller) (mon : Fin 16) (v : BitVec 8) (s : State) {nxt : State}
    (ee : (execStragClear by_ mon v s) = .next nxt) : nxt.kept = s.kept := by
  unfold execStragClear at ee; rw [← next_inj ee]; simp
@[simp] theorem unmatched_kept (s : State) : (unmatched s).kept = s.kept := by simp [unmatched]
@[simp] theorem keyxCompletion_kept (s : State) (h : Held) : (keyxCompletion s h).kept = s.kept := by
  unfold keyxCompletion; dsimp only
  split
  · simp
  · split
    · rename_i e; exact assemble_partial_kept _ _ _ _ e
    · rename_i e; simp [assemble_malformed_kept _ _ _ _ e]
    · rename_i e; split <;> simp [assemble_whole_kept _ _ _ _ e]
@[simp] theorem absorbAggregate_kept (s : State) (ing : Nat) (h : Hdr) (r : LigRec) : (absorbAggregate s ing h r).kept = s.kept
    := by simp [absorbAggregate]
@[simp] theorem passBack_kept (s : State) (x : Held) (h : Hdr) : (passBack s x h).kept = s.kept := by
  unfold passBack; dsimp only; (repeat' split) <;> simp
@[simp] theorem countStale_kept (s : State) (ing : Nat) (h : Hdr) : (countStale s ing h).kept = s.kept := by simp [countStale]
@[simp] theorem countHopLimit_kept (s : State) (ing : Nat) (h : Hdr) : (countHopLimit s ing h).kept = s.kept := by simp
    [countHopLimit]
@[simp] theorem countNoLive_kept (s : State) (ing target : Nat) : (countNoLive s ing target).kept = s.kept := by simp
    [countNoLive]
@[simp] theorem refuseMalformed_kept (s : State) (h : Held) : (refuseMalformed s h).kept = s.kept := by simp [refuseMalformed]
@[simp] theorem deliverHere_kept (s : State) (h : Held) : (deliverHere s h).kept = s.kept := by
  unfold deliverHere; dsimp only
  split
  · simp
  · split
    · rename_i e; exact assemble_partial_kept _ _ _ _ e
    · rename_i e; simp [assemble_malformed_kept _ _ _ _ e]
    · rename_i e; simp [assemble_whole_kept _ _ _ _ e]
@[simp] theorem keyxArrive_kept (s : State) (ing : Nat) (h : Held) : (keyxArrive s ing h).kept = s.kept := by
  unfold keyxArrive; dsimp only
  split
  · split <;> simp
  · split
    · rename_i e; exact assemble_partial_kept _ _ _ _ e
    · rename_i e; simp [assemble_malformed_kept _ _ _ _ e]
    · rename_i e; split <;> simp [assemble_whole_kept _ _ _ _ e]
@[simp] theorem takeInput_kept (s : State) (ing : Nat) (h : Held) : (takeInput s ing h).kept = s.kept := by simp [takeInput]
@[simp] theorem cgMajority_kept (s : State) (vs : List Nat) : (cgMajority s vs).2.kept = s.kept := by
  unfold cgMajority; (repeat' split) <;> simp
@[simp] theorem setBatchSign_kept (s : State) (by_ : Caller) (p v : Nat) : (setBatchSign s by_ p v).s.kept = s.kept := by
  unfold setBatchSign; dsimp only; (repeat' split) <;> simp
theorem execBatchSign_kept (by_ : Caller) (p : Part) (v : BitVec 8) (s : State) {nxt : State}
    (ee : (execBatchSign by_ p v s) = .next nxt) : nxt.kept = s.kept := by
  unfold execBatchSign at ee; rw [← next_inj ee]; simp
@[simp] theorem batchSigned_kept (s : State) (p : Nat) : (batchSigned s p).kept = s.kept := by
  unfold batchSigned; dsimp only; (repeat' split) <;> simp
theorem execBatchSigned_kept (p : Part) (s : State) {nxt : State}
    (ee : (execBatchSigned p s) = .next nxt) : nxt.kept = s.kept := by
  unfold execBatchSigned at ee; rw [← next_inj ee]; simp
@[simp] theorem seenState_kept (s : State) (c : Caller) (r : ObjRow) (part : Option Nat) : (seenState s c r part).kept = s.kept
    := by simp [seenState]
@[simp] theorem afterRead_kept (s : State) (r : ObjRow) : (afterRead s r).kept = s.kept := by simp [afterRead]
@[simp] theorem readObject_kept (s : State) (c : Caller) (index sub : Nat) : (readObject s c index sub).s.kept = s.kept := by
  unfold readObject; dsimp only; (repeat' split) <;> simp
@[simp] theorem setOprCred_kept (s : State) (by_ : Caller) (cred : BitVec 256) : (setOprCred s by_ cred).s.kept = s.kept := by
    simp [setOprCred]
@[simp] theorem setCredClear_kept (s : State) (by_ : Caller) (v : Nat) : (setCredClear s by_ v).s.kept = s.kept := by simp
    [setCredClear]
@[simp] theorem setKill_kept (s : State) (by_ : Caller) (sid : Nat) : (setKill s by_ sid).s.kept = s.kept := by simp [setKill]
@[simp] theorem ackEvents_kept (s : State) (v : Session) (n : BitVec 32) : (ackEvents s v n).kept = s.kept := by simp
    [ackEvents]
@[simp] theorem setEvtAck_kept (s : State) (by_ : Caller) (n : BitVec 32) : (setEvtAck s by_ n).s.kept = s.kept := by
  unfold setEvtAck; (repeat' split) <;> simp
@[simp] theorem setIf_kept (s : State) (k v : Nat) (ok : State → Bool) : (setIf s k v ok).s.kept = s.kept := by simp [setIf]
@[simp] theorem setPlain_kept (s : State) (c : Caller) (r : ObjRow) (k : Nat) (bs : List Byte) : (setPlain s c r k bs).s.kept =
    s.kept := by
  unfold setPlain; (repeat' split) <;> simp
@[simp] theorem setMeterBinding_kept (s : State) (c : Caller) (r : ObjRow) (i k : Nat) (bs : List Byte) : (setMeterBinding s c
    r i k bs).s.kept = s.kept := by
  unfold setMeterBinding; dsimp only; (repeat' split) <;> simp
@[simp] theorem reply_kept (s : State) (sid : BitVec 16) (m : DMsg) : (reply s sid m).kept = s.kept := by
  unfold reply; (repeat' split) <;> simp
@[simp] theorem discarded_kept (s : State) : (discarded s).kept = s.kept := by simp [discarded]
@[simp] theorem sendSegs_kept (s : State) (sid : BitVec 16) (x : Transfer) (a b : Nat) : (sendSegs s sid x a b).kept = s.kept
    := by simp [sendSegs]
@[simp] theorem setXfer_kept (s : State) (v : Session) (x : Option Transfer) : (setXfer s v x).kept = s.kept := by simp
    [setXfer]
@[simp] theorem doRead_kept (s : State) (v : Session) (m : DMsg) : (doRead s v m).kept = s.kept := by simp [doRead]
@[simp] theorem doSegAck_kept (s : State) (v : Session) (m : DMsg) : (doSegAck s v m).kept = s.kept := by
  unfold doSegAck; (repeat' split) <;> simp
@[simp] theorem abortEvent_kept (s : State) (sid xid : BitVec 16) : (abortEvent s sid xid).kept = s.kept := by simp [abortEvent]
@[simp] theorem abortTransfer_kept (s : State) (v : Session) (x : Transfer) : (abortTransfer s v x).kept = s.kept := by simp
    [abortTransfer]
@[simp] theorem doAbort_kept (s : State) (v : Session) (m : DMsg) : (doAbort s v m).kept = s.kept := by
  unfold doAbort; (repeat' split) <;> simp
@[simp] theorem request_kept (s : State) (v : Session) (m : DMsg) (t : State)
    (h : t.kept = s.kept) : (request s v m t).kept = s.kept := by
  unfold request; (repeat' split) <;> simp [h]
@[simp] theorem sessOpen_kept (s : State) (a : TAddr) (m : DMsg) : (sessOpen s a m).2.kept = s.kept := by
  unfold sessOpen; dsimp only; (repeat' split) <;> simp
@[simp] theorem authFailed_kept (s : State) (v : Session) (m : DMsg) : (authFailed s v m).kept = s.kept := by simp [authFailed]
@[simp] theorem beforeAuth_kept (s : State) (v : Session) (m : DMsg) : (beforeAuth s v m).kept = s.kept := by
  unfold beforeAuth; (repeat' split) <;> simp
@[simp] theorem withoutSession_kept (s : State) (a : TAddr) (m : DMsg) : (withoutSession s a m).2.kept = s.kept := by
  unfold withoutSession; (repeat' split) <;> simp
@[simp] theorem loaderSend_kept (s : State) (mac : BitVec 48) (m : DMsg) : (loaderSend s mac m).kept = s.kept := by simp
    [loaderSend]
@[simp] theorem loaderAnswer_kept (mac) (x) (a : Ans) : (loaderAnswer mac x a).kept = a.s.kept := by simp [loaderAnswer]
@[simp] theorem loaderControl_kept (s : State) (bs : List Byte) : (loaderControl s bs).s.kept = s.kept := by
  unfold loaderControl; (repeat' split) <;> simp
@[simp] theorem loaderWrite_kept (s : State) (mac : BitVec 48) (m : DMsg) : (loaderWrite s mac m).kept = s.kept := by
  unfold loaderWrite; (repeat' split) <;> simp
@[simp] theorem loaderSegment_kept (s : State) (mac : BitVec 48) (x : Transfer) (m : DMsg) : (loaderSegment s mac x m).kept =
    s.kept := by simp [loaderSegment]
@[simp] theorem loaderAbort_kept (s : State) (mac : BitVec 48) (x : Transfer) : (loaderAbort s mac x).kept = s.kept := by simp
    [loaderAbort]
@[simp] theorem loaderReceive_kept (s : State) (a : TAddr) (m : DMsg) : (loaderReceive s a m).2.kept = s.kept := by
  unfold loaderReceive; (repeat' split) <;> simp
theorem execSessAuthTimeout_kept (sid : BitVec 16) (s : State) {nxt : State}
    (ee : (execSessAuthTimeout sid s) = .next nxt) : nxt.kept = s.kept := by
  unfold execSessAuthTimeout at ee; rw [← next_inj ee]; (repeat' split) <;> simp
theorem execSessionIdleTimeout_kept (sid : BitVec 16) (s : State) {nxt : State}
    (ee : (execSessionIdleTimeout sid s) = .next nxt) : nxt.kept = s.kept := by
  unfold execSessionIdleTimeout at ee; rw [← next_inj ee]; simp
theorem execAuthRefusalEnd_kept (a : TAddr) (s : State) {nxt : State}
    (ee : (execAuthRefusalEnd a s) = .next nxt) : nxt.kept = s.kept := by
  unfold execAuthRefusalEnd at ee; rw [← next_inj ee]; simp
theorem execSegAckTimer_kept (sid : BitVec 16) (s : State) {nxt : State}
    (ee : (execSegAckTimer sid s) = .next nxt) : nxt.kept = s.kept := by
  unfold execSegAckTimer at ee; rw [← next_inj ee]; (repeat' split) <;> simp
theorem execSegmentResendTimer_kept (sid : BitVec 16) (s : State) {nxt : State}
    (ee : (execSegmentResendTimer sid s) = .next nxt) : nxt.kept = s.kept := by
  unfold execSegmentResendTimer at ee; rw [← next_inj ee]; (repeat' split) <;> simp
theorem execTransferTimeout_kept (sid : BitVec 16) (s : State) {nxt : State}
    (ee : (execTransferTimeout sid s) = .next nxt) : nxt.kept = s.kept := by
  unfold execTransferTimeout at ee; rw [← next_inj ee]; (repeat' split) <;> simp
theorem execSessionKill_kept (by_ : Caller) (sid : BitVec 16) (s : State) {nxt : State}
    (ee : (execSessionKill by_ sid s) = .next nxt) : nxt.kept = s.kept := by
  unfold execSessionKill at ee; rw [← next_inj ee]; simp
theorem execEvtAck_kept (by_ : Caller) (n : BitVec 32) (s : State) {nxt : State}
    (ee : (execEvtAck by_ n s) = .next nxt) : nxt.kept = s.kept := by
  unfold execEvtAck at ee; rw [← next_inj ee]; simp
theorem execOprCred_kept (by_ : Caller) (cred : BitVec 256) (s : State) {nxt : State}
    (ee : (execOprCred by_ cred s) = .next nxt) : nxt.kept = s.kept := by
  unfold execOprCred at ee; rw [← next_inj ee]; simp
theorem execOprCredClear_kept (by_ : Caller) (v : BitVec 8) (s : State) {nxt : State}
    (ee : (execOprCredClear by_ v s) = .next nxt) : nxt.kept = s.kept := by
  unfold execOprCredClear at ee; rw [← next_inj ee]; simp
theorem execEvtNotifyRepeat_kept (sid : BitVec 16) (s : State) {nxt : State}
    (ee : (execEvtNotifyRepeat sid s) = .next nxt) : nxt.kept = s.kept := by
  unfold execEvtNotifyRepeat at ee; rw [← next_inj ee]; (repeat' split) <;> simp
theorem execHrbPulseEnd_kept (h : HostPort) (s : State) {nxt : State}
    (ee : (execHrbPulseEnd h s) = .next nxt) : nxt.kept = s.kept := by
  unfold execHrbPulseEnd at ee; rw [← next_inj ee]; simp
theorem execHrbPulseSpacingExpire_kept (h : HostPort) (s : State) {nxt : State}
    (ee : (execHrbPulseSpacingExpire h s) = .next nxt) : nxt.kept = s.kept := by
  unfold execHrbPulseSpacingExpire at ee; rw [← next_inj ee]; simp
@[simp] theorem frameDiscard_kept (s : State) (h : HostPort) : (frameDiscard s h).kept = s.kept := by simp [frameDiscard]
theorem macAccept_kept (s : State) (h : HostPort) (t : SecTag) {u : State} (e : macAccept s h t = some u) : u.kept = s.kept :=
    by
  unfold macAccept at e; dsimp only at e
  (repeat' split at e) <;> first | (injection e with e; rw [← e]; simp) | cases e
@[simp] theorem ringForward_kept (s : State) (portB : Bool) (f : RingFrame) : (ringForward s portB f).kept = s.kept := by simp
    [ringForward]
@[simp] theorem takeSnapshot_kept (s : State) : (takeSnapshot s).kept = s.kept := by simp [takeSnapshot]
end Sys2Proof.Machine
end

