-- ==== Sys2Proof/Laws/MemForm.lean ====
section
/-! SUPPORT. The operations that may store to memory: each keeps memory's canonical form and the queue of waiting commands.
One lemma for each operation, in the order of the model, by unfolding it once and citing those of what it calls. -/

set_option linter.unusedSimpArgs false
set_option linter.unusedVariables false

set_option Elab.async false

namespace Sys2Proof.Machine
/-- Memory in canonical form and a queue `q`. -/
def MemOk (q : List Instr) (k : List Host.Cell × List Instr) : Prop := k.2 = q ∧ Memory.wf k.1 = true
@[simp] theorem memOk_ite (q : List Instr) (c : Prop) [Decidable c] (a b : List Host.Cell × List Instr) (h1 : c → MemOk q a)
    (h2 : ¬c → MemOk q b) : MemOk q (if c then a else b) := by
  split
  · exact h1 ‹_›
  · exact h2 ‹_›
@[simp] theorem foldl_ok {α : Type} {q : List Instr} (f : State → α → State) (l : List α) (s : State) (h0 : MemOk q s.kept)
    (h : ∀ s a, MemOk q s.kept → MemOk q (f s a).kept) : MemOk q (l.foldl f s).kept := by
  induction l generalizing s with
  | nil => exact h0
  | cons a l ih => exact ih _ (h _ _ h0)
@[simp] theorem foldl2_ok {α β : Type} {q : List Instr} (f : β × State → α → β × State) (l : List α) (x : β × State) (h0 :
    MemOk q x.2.kept)
    (h : ∀ x a, MemOk q x.2.kept → MemOk q (f x a).2.kept) : MemOk q (l.foldl f x).2.kept := by
  induction l generalizing x with
  | nil => exact h0
  | cons a l ih => exact ih _ (h _ _ h0)
@[simp] theorem writeN_ok {q : List Instr} {s : State} (a : Nat) (bs : List Byte)
    (h : MemOk q s.kept) : MemOk q (Memory.writeN s.mem a bs, s.pending) := ⟨h.1, Memory.wf_writeN _ _ _ h.2⟩
@[simp] theorem zero_ok {q : List Instr} {s : State} (a n : Nat)
    (h : MemOk q s.kept) : MemOk q (Memory.zero s.mem a n, s.pending) := ⟨h.1, Memory.wf_zero _ _ _ h.2⟩
@[simp] theorem nil_ok {q : List Instr} {s : State} (h : MemOk q s.kept) : MemOk q ([], s.pending) := ⟨h.1, rfl⟩

theorem foldl3_ok {α β γ : Type} {q : List Instr} (f : β × State × γ → α → β × State × γ) (l : List α) (x : β × State × γ) (h0
    : MemOk q x.2.1.kept)
    (h : ∀ x a, MemOk q x.2.1.kept → MemOk q (f x a).2.1.kept) : MemOk q (l.foldl f x).2.1.kept := by
  induction l generalizing x with
  | nil => exact h0
  | cons a l ih => exact ih _ (h _ _ h0)
theorem foldl22_ok {α β γ : Type} {q : List Instr} (f : β × γ × State → α → β × γ × State) (l : List α) (x : β × γ × State) (h0
    : MemOk q x.2.2.kept)
    (h : ∀ x a, MemOk q x.2.2.kept → MemOk q (f x a).2.2.kept) : MemOk q (l.foldl f x).2.2.kept := by
  induction l generalizing x with
  | nil => exact h0
  | cons a l ih => exact ih _ (h _ _ h0)
@[simp] theorem once_ok (s : State) (ing : Nat) (m : Msg) (f : State → State)
    {qq : List Instr} (hh : MemOk qq s.kept) (h : ∀ s, MemOk qq s.kept → MemOk qq (f s).kept) : MemOk qq (once s ing m f).kept
        := by
  unfold once; (repeat' split) <;> simp [hh, h]
theorem applyRecords_ok {α : Type} (f : State → α → Bool × State) (s : State) (l : List α) (i : Nat)
    {qq : List Instr} (hh : MemOk qq s.kept) (h : ∀ s a, MemOk qq s.kept → MemOk qq (f s a).2.kept) : MemOk qq (applyRecords f
        s l i).2.kept := by
  induction l generalizing s i with
  | nil => exact hh
  | cons a l ih => exact ih _ _ (h _ _ hh)
@[simp] theorem writeRecords_ok {α : Type} (f : State → α → Bool × State) (s : State) (l : List α)
    {qq : List Instr} (hh : MemOk qq s.kept) (h : ∀ s a, MemOk qq s.kept → MemOk qq (f s a).2.kept) : MemOk qq (writeRecords f
        s l).s.kept := by
  unfold writeRecords; simpa using applyRecords_ok f s l 0 hh h
@[simp] theorem storeWord_ok (s : State) (a : Nat) (bs : List Byte) (w : Nat)
    {qq : List Instr} (hh : MemOk qq s.kept) : MemOk qq (storeWord s a bs w).2.kept := by
  unfold storeWord; dsimp only; (repeat' split) <;> simp +contextual (maxDischargeDepth := 9) [hh]
@[simp] theorem storePhys_ok (s : State) (a : Nat) (bs : List Byte)
    {qq : List Instr} (hh : MemOk qq s.kept) : MemOk qq (storePhys s a bs).2.kept := by
  simp +contextual (maxDischargeDepth := 9) [storePhys, hh]
@[simp] theorem zeroPhys_ok (s : State) (a n : Nat)
    {qq : List Instr} (hh : MemOk qq s.kept) : MemOk qq (zeroPhys s a n).kept := by
  simp +contextual (maxDischargeDepth := 9) [zeroPhys, hh]
@[simp] theorem writeAt_ok (s : State) (q : Nat) (p : BitVec 5) (g : Seg) (bs : List Byte)
    {qq : List Instr} (hh : MemOk qq s.kept) : MemOk qq (writeAt s q p g bs).2.kept := by
  unfold writeAt; dsimp only; (repeat' split) <;> simp +contextual (maxDischargeDepth := 9) [hh]
@[simp] theorem writeSub_ok (s : State) (m : Msg) (g : Seg) (bs : List Byte)
    {qq : List Instr} (hh : MemOk qq s.kept) : MemOk qq (writeSub s m g bs).2.kept := by
  simp +contextual (maxDischargeDepth := 9) [writeSub, hh]
@[simp] theorem overRuns_ok (f : State → Nat → Seg → Sub × State) (s : State) (gs : List Seg) {qq : List Instr}
    (hh : MemOk qq s.kept) (h : ∀ s n g, MemOk qq s.kept → MemOk qq (f s n g).2.kept) : MemOk qq (overRuns f s gs).2.kept := by
  unfold overRuns; apply foldl3_ok
  · exact hh
  · intro x a; exact h _ _ _
@[simp] theorem writeSubs_ok (s : State) (m : Msg) (gs : List Seg) (bs : List Byte)
    {qq : List Instr} (hh : MemOk qq s.kept) : MemOk qq (writeSubs s m gs bs).2.kept := by
  unfold writeSubs; apply overRuns_ok _ _ _ hh; intro s n g h; exact writeSub_ok _ _ _ _ h
@[simp] theorem inTurn_ok (s : State) (m : Msg) (f : State → State)
    {qq : List Instr} (hh : MemOk qq s.kept) (h : ∀ s, MemOk qq s.kept → MemOk qq (f s).kept) : MemOk qq (inTurn s m f).kept :=
        by
  unfold inTurn; (repeat' split) <;> simp [hh, h]
@[simp] theorem writeRange_ok (s : State) (q p a : Nat) (bs : List Byte)
    {qq : List Instr} (hh : MemOk qq s.kept) : MemOk qq (writeRange s q p a bs).2.kept := by
  unfold writeRange; split
  · apply overRuns_ok _ _ _ hh; intro s n g h; exact writeAt_ok _ _ _ _ _ h
  · exact hh
  · exact hh
@[simp] theorem writeStage_ok (s : State) (j : MemReq) (ws : List Seg)
    {qq : List Instr} (hh : MemOk qq s.kept) : MemOk qq (writeStage s j ws).2.kept := by
  unfold writeStage; (repeat' split) <;> simp +contextual (maxDischargeDepth := 9) [hh]
@[simp] theorem atomicHere_ok (s : State) (ov : Fwd) (m : Msg) (g : Seg) (a : Nat)
    {qq : List Instr} (hh : MemOk qq s.kept) : MemOk qq (atomicHere s ov m g a).2.kept := by
  unfold atomicHere; (repeat' split) <;> simp +contextual (maxDischargeDepth := 9) [hh]
@[simp] theorem atomicSub_ok (s : State) (ov : Fwd) (m : Msg) (g : Seg)
    {qq : List Instr} (hh : MemOk qq s.kept) : MemOk qq (atomicSub s ov m g).2.kept := by
  unfold atomicSub; (repeat' split) <;> simp +contextual (maxDischargeDepth := 9) [hh]
@[simp] theorem fillSub_ok (s : State) (m : Msg) (off : Nat) (g : Seg)
    {qq : List Instr} (hh : MemOk qq s.kept) : MemOk qq (fillSub s m off g).2.kept := by
  unfold fillSub; (repeat' split) <;> simp +contextual (maxDischargeDepth := 9) [hh]
@[simp] theorem startParts_ok (s : State) (ov : Fwd) (j : MemReq) (rs ws : List Seg)
    {qq : List Instr} (hh : MemOk qq s.kept) : MemOk qq (startParts s ov j rs ws).2.kept := by
  unfold startParts; dsimp only; (repeat' split)
  · simp [hh]
  · simp [hh]
  · apply overRuns_ok _ _ _ hh; intro s n g h; exact atomicSub_ok _ _ _ _ h
  · apply overRuns_ok _ _ _ hh; intro s n g h; exact fillSub_ok _ _ _ _ h
  · simp [hh]
@[simp] theorem perform_ok (go : State → Reissue → State) (s : State) (ov : Fwd) (j : MemReq) (rs ws : List Seg)
    {qq : List Instr} (hg : ∀ s r, MemOk qq s.kept → MemOk qq (go s r).kept) (hh : MemOk qq s.kept) : MemOk qq (perform go s ov
        j rs ws).kept := by
  unfold perform; dsimp only; (repeat' split) <;> simp +contextual (maxDischargeDepth := 9) [hh, hg]
@[simp] theorem performHome_ok (s : State) (t : Txn)
    {qq : List Instr} (hh : MemOk qq s.kept) : MemOk qq (performHome s t).kept := by
  unfold performHome; dsimp only; (repeat' split) <;> simp +contextual (maxDischargeDepth := 9) [hh]
@[simp] theorem endC1_ok (s : State) (t : Txn) (a : Nat)
    {qq : List Instr} (hh : MemOk qq s.kept) : MemOk qq (endC1 s t a).kept := by
  unfold endC1; (repeat' split) <;> simp +contextual (maxDischargeDepth := 9) [hh]
@[simp] theorem settleC1_ok (s : State) (t : Txn)
    {qq : List Instr} (hh : MemOk qq s.kept) : MemOk qq (settleC1 s t).kept := by
  unfold settleC1; (repeat' split) <;> simp +contextual (maxDischargeDepth := 9) [hh]
@[simp] theorem endSimple_ok (s : State) (t : Txn) (a : Nat)
    {qq : List Instr} (hh : MemOk qq s.kept) : MemOk qq (endSimple s t a).kept := by
  unfold endSimple; dsimp only; (repeat' split) <;> simp +contextual (maxDischargeDepth := 9) [hh]
@[simp] theorem startC1_ok (s : State) (m : Msg) (d : Part) (a line : Nat) (lineAddr : Addr)
    {qq : List Instr} (hh : MemOk qq s.kept) : MemOk qq (startC1 s m d a line lineAddr).kept := by
  unfold startC1; dsimp only; (repeat' split) <;> simp +contextual (maxDischargeDepth := 9) [hh]
@[simp] theorem endGroup_ok (go : State → Reissue → State) (s : State) (j : MemReq) (ts : List Txn)
    {qq : List Instr} (hg : ∀ s r, MemOk qq s.kept → MemOk qq (go s r).kept) (hh : MemOk qq s.kept) : MemOk qq (endGroup go s j
        ts).kept := by
  unfold endGroup; extract_lets s1 ov
  have e1 : MemOk qq s1.kept := by
    apply foldl_ok _ _ _ hh; intro s t h; dsimp only; (repeat' split) <;> simp [h]
  rw [placeLines_kept]; exact perform_ok _ _ _ _ _ _ hg e1
@[simp] theorem settleGroup_ok (go : State → Reissue → State) (s : State) (j : MemReq)
    {qq : List Instr} (hg : ∀ s r, MemOk qq s.kept → MemOk qq (go s r).kept) (hh : MemOk qq s.kept) : MemOk qq (settleGroup go
        s j).kept := by
  unfold settleGroup; dsimp only; split
  · exact endGroup_ok _ _ _ _ hg (by simp [hh])
  · exact hh
@[simp] theorem runResolved_ok (go : State → Reissue → State) (s : State) (j : MemReq) (rs ws : List Seg)
    {qq : List Instr} (hg : ∀ s r, MemOk qq s.kept → MemOk qq (go s r).kept) (hh : MemOk qq s.kept) : MemOk qq (runResolved go
        s j rs ws).kept := by
  unfold runResolved; dsimp only; (repeat' split)
  all_goals first | (exact settleGroup_ok _ _ _ hg (by simp [hh])) | (exact perform_ok _ _ _ _ _ _ hg hh) | simp [hh]
@[simp] theorem serveWith_ok (go : State → Reissue → State) (s : State) (j : MemReq)
    {qq : List Instr} (hg : ∀ s r, MemOk qq s.kept → MemOk qq (go s r).kept) (hh : MemOk qq s.kept) : MemOk qq (serveWith go s
        j).kept := by
  unfold serveWith; (repeat' split) <;> first | (exact runResolved_ok _ _ _ _ _ hg hh) | simp [hh]
@[simp] theorem advance_ok (s : State) (r : Reissue)
    {qq : List Instr} (hh : MemOk qq s.kept) : MemOk qq (advance s r).kept := by
  unfold advance; (repeat' split) <;> simp +contextual (maxDischargeDepth := 9) [hh]
@[simp] theorem serveJob_ok (s : State) (j : MemReq)
    {qq : List Instr} (hh : MemOk qq s.kept) : MemOk qq (serveJob s j).kept := by
  simp +contextual (maxDischargeDepth := 9) [serveJob, hh]
@[simp] theorem subDone_ok (s : State) (r : Reissue) (k : ReqKey) (st cflg : BitVec 8) (cdat : BitVec 16) (data : List Byte)
    {qq : List Instr} (hh : MemOk qq s.kept) : MemOk qq (subDone s r k st cflg cdat data).kept := by
  unfold subDone; extract_lets x
  have hx : MemOk qq x.2.kept := by
    apply foldl2_ok _ _ _ hh; intro a b h; split <;> simp [h]
  exact advance_ok _ _ (by simpa using hx)
@[simp] theorem startWaiting_ok (s : State) (w : CohReq)
    {qq : List Instr} (hh : MemOk qq s.kept) : MemOk qq (startWaiting s w).kept := by
  unfold startWaiting; (repeat' split) <;> simp +contextual (maxDischargeDepth := 9) [hh]
@[simp] theorem wakeN_ok (n : Nat) (s : State) {qq : List Instr} (hh : MemOk qq s.kept) : MemOk qq (wakeN n s).kept := by
  induction n generalizing s with
  | zero => exact hh
  | succ n ih => unfold wakeN; split <;> simp [ih, hh]
@[simp] theorem wake_ok (s : State)
    {qq : List Instr} (hh : MemOk qq s.kept) : MemOk qq (wake s).kept := by
  simp +contextual (maxDischargeDepth := 9) [wake, hh]
@[simp] theorem serveC1_ok (s : State) (m : Msg)
    {qq : List Instr} (hh : MemOk qq s.kept) : MemOk qq (serveC1 s m).kept := by
  unfold serveC1; dsimp only; (repeat' split) <;> simp +contextual (maxDischargeDepth := 9) [hh]
theorem execRdShared_ok (m : Msg) (s : State)
    {qq : List Instr} (hh : MemOk qq s.kept) {nxt : State} (ee : (execRdShared m s) = .next nxt) : MemOk qq nxt.kept := by
  unfold execRdShared at ee; rw [← next_inj ee]; simp +contextual (maxDischargeDepth := 9) [hh]
theorem execRdOwn_ok (m : Msg) (s : State)
    {qq : List Instr} (hh : MemOk qq s.kept) {nxt : State} (ee : (execRdOwn m s) = .next nxt) : MemOk qq nxt.kept := by
  unfold execRdOwn at ee; rw [← next_inj ee]; simp +contextual (maxDischargeDepth := 9) [hh]
theorem execUpgrade_ok (m : Msg) (s : State)
    {qq : List Instr} (hh : MemOk qq s.kept) {nxt : State} (ee : (execUpgrade m s) = .next nxt) : MemOk qq nxt.kept := by
  unfold execUpgrade at ee; rw [← next_inj ee]; simp +contextual (maxDischargeDepth := 9) [hh]
theorem execWriteback_ok (m : Msg) (s : State)
    {qq : List Instr} (hh : MemOk qq s.kept) {nxt : State} (ee : (execWriteback m s) = .next nxt) : MemOk qq nxt.kept := by
  unfold execWriteback at ee; rw [← next_inj ee]; simp +contextual (maxDischargeDepth := 9) [hh]
theorem execEvict_ok (m : Msg) (s : State)
    {qq : List Instr} (hh : MemOk qq s.kept) {nxt : State} (ee : (execEvict m s) = .next nxt) : MemOk qq nxt.kept := by
  unfold execEvict at ee; rw [← next_inj ee]; simp +contextual (maxDischargeDepth := 9) [hh]
theorem execHomeAtomic_ok (m : Msg) (s : State)
    {qq : List Instr} (hh : MemOk qq s.kept) {nxt : State} (ee : (execHomeAtomic m s) = .next nxt) : MemOk qq nxt.kept := by
  unfold execHomeAtomic at ee; rw [← next_inj ee]; simp +contextual (maxDischargeDepth := 9) [hh]
theorem execCohStore_ok (m : Msg) (s : State)
    {qq : List Instr} (hh : MemOk qq s.kept) {nxt : State} (ee : (execCohStore m s) = .next nxt) : MemOk qq nxt.kept := by
  unfold execCohStore at ee; rw [← next_inj ee]; simp +contextual (maxDischargeDepth := 9) [hh]
@[simp] theorem settle_ok (s : State) (old t : Txn)
    {qq : List Instr} (hh : MemOk qq s.kept) : MemOk qq (settle s old t).kept := by
  unfold settle; (repeat' split) <;> simp +contextual (maxDischargeDepth := 9) [hh]
@[simp] theorem placed_ok (s : State) (t : Txn) (a : Nat) (res : BitVec 4)
    {qq : List Instr} (hh : MemOk qq s.kept) : MemOk qq (placed s t a res).kept := by
  simp +contextual (maxDischargeDepth := 9) [placed, hh]
@[simp] theorem takeSnoopResp_ok (s : State) (p : Packet)
    {qq : List Instr} (hh : MemOk qq s.kept) : MemOk qq (takeSnoopResp s p).kept := by
  unfold takeSnoopResp; dsimp only; (repeat' split) <;> simp +contextual (maxDischargeDepth := 9) [hh]
@[simp] theorem takeDataFwd_ok (s : State) (p : Packet)
    {qq : List Instr} (hh : MemOk qq s.kept) : MemOk qq (takeDataFwd s p).kept := by
  unfold takeDataFwd; dsimp only; (repeat' split) <;> simp +contextual (maxDischargeDepth := 9) [hh]
theorem execSnoopResp_ok (p : Packet) (s : State)
    {qq : List Instr} (hh : MemOk qq s.kept) {nxt : State} (ee : (execSnoopResp p s) = .next nxt) : MemOk qq nxt.kept := by
  unfold execSnoopResp at ee; rw [← next_inj ee]; simp +contextual (maxDischargeDepth := 9) [hh]
theorem execDataFwd_ok (p : Packet) (s : State)
    {qq : List Instr} (hh : MemOk qq s.kept) {nxt : State} (ee : (execDataFwd p s) = .next nxt) : MemOk qq nxt.kept := by
  unfold execDataFwd at ee; rw [← next_inj ee]; simp +contextual (maxDischargeDepth := 9) [hh]
@[simp] theorem failHeld_ok (s : State) (d : Nat)
    {qq : List Instr} (hh : MemOk qq s.kept) : MemOk qq (failHeld s d).kept := by
  simp +contextual (maxDischargeDepth := 9) [failHeld, hh]
@[simp] theorem holdDomain_ok (s : State) (d cause agent : Nat)
    {qq : List Instr} (hh : MemOk qq s.kept) : MemOk qq (holdDomain s d cause agent).kept := by
  simp +contextual (maxDischargeDepth := 9) [holdDomain, hh]
theorem execSnoopWaitTimeout_ok (d : Part) (agent : Fin 16) (s : State)
    {qq : List Instr} (hh : MemOk qq s.kept) {nxt : State} (ee : (execSnoopWaitTimeout d agent s) = .next nxt) : MemOk qq
        nxt.kept := by
  unfold execSnoopWaitTimeout at ee; rw [← next_inj ee]; simp +contextual (maxDischargeDepth := 9) [hh]
@[simp] theorem arriveMem_ok (s : State) (m : Msg)
    {qq : List Instr} (hh : MemOk qq s.kept) : MemOk qq (arriveMem s m).kept := by
  unfold arriveMem; (repeat' split) <;> simp +contextual (maxDischargeDepth := 9) [hh]
@[simp] theorem memRequest_ok (s : State) (m : Msg)
    {qq : List Instr} (hh : MemOk qq s.kept) : MemOk qq (memRequest s m).kept := by
  simp +contextual (maxDischargeDepth := 9) [memRequest, hh]
theorem execLoad_ok (m : Msg) (s : State)
    {qq : List Instr} (hh : MemOk qq s.kept) {nxt : State} (ee : (execLoad m s) = .next nxt) : MemOk qq nxt.kept := by
  unfold execLoad at ee; rw [← next_inj ee]; simp +contextual (maxDischargeDepth := 9) [hh]
theorem execStore_ok (m : Msg) (s : State)
    {qq : List Instr} (hh : MemOk qq s.kept) {nxt : State} (ee : (execStore m s) = .next nxt) : MemOk qq nxt.kept := by
  unfold execStore at ee; rw [← next_inj ee]; simp +contextual (maxDischargeDepth := 9) [hh]
theorem execAtomic_ok (m : Msg) (s : State)
    {qq : List Instr} (hh : MemOk qq s.kept) {nxt : State} (ee : (execAtomic m s) = .next nxt) : MemOk qq nxt.kept := by
  unfold execAtomic at ee; rw [← next_inj ee]; simp +contextual (maxDischargeDepth := 9) [hh]
theorem execBulkLoad_ok (m : Msg) (s : State)
    {qq : List Instr} (hh : MemOk qq s.kept) {nxt : State} (ee : (execBulkLoad m s) = .next nxt) : MemOk qq nxt.kept := by
  unfold execBulkLoad at ee; rw [← next_inj ee]; simp +contextual (maxDischargeDepth := 9) [hh]
theorem execBulkStore_ok (m : Msg) (s : State)
    {qq : List Instr} (hh : MemOk qq s.kept) {nxt : State} (ee : (execBulkStore m s) = .next nxt) : MemOk qq nxt.kept := by
  unfold execBulkStore at ee; rw [← next_inj ee]; simp +contextual (maxDischargeDepth := 9) [hh]
theorem execFill_ok (m : Msg) (s : State)
    {qq : List Instr} (hh : MemOk qq s.kept) {nxt : State} (ee : (execFill m s) = .next nxt) : MemOk qq nxt.kept := by
  unfold execFill at ee; rw [← next_inj ee]; simp +contextual (maxDischargeDepth := 9) [hh]
theorem execCopy_ok (m : Msg) (s : State)
    {qq : List Instr} (hh : MemOk qq s.kept) {nxt : State} (ee : (execCopy m s) = .next nxt) : MemOk qq nxt.kept := by
  unfold execCopy at ee; rw [← next_inj ee]; simp +contextual (maxDischargeDepth := 9) [hh]
theorem execCompare_ok (m : Msg) (s : State)
    {qq : List Instr} (hh : MemOk qq s.kept) {nxt : State} (ee : (execCompare m s) = .next nxt) : MemOk qq nxt.kept := by
  unfold execCompare at ee; rw [← next_inj ee]; simp +contextual (maxDischargeDepth := 9) [hh]
theorem execMemReduce_ok (m : Msg) (s : State)
    {qq : List Instr} (hh : MemOk qq s.kept) {nxt : State} (ee : (execMemReduce m s) = .next nxt) : MemOk qq nxt.kept := by
  unfold execMemReduce at ee; rw [← next_inj ee]; simp +contextual (maxDischargeDepth := 9) [hh]
@[simp] theorem holdAgents_ok (s : State) (c : Nat) (b : State → Nat → Fid → Bool)
    {qq : List Instr} (hh : MemOk qq s.kept) : MemOk qq (holdAgents s c b).kept := by
  unfold holdAgents; apply foldl_ok _ _ _ hh; intro s d h; (repeat' split) <;> simp [h]
@[simp] theorem checkAgentRoutes_ok (s : State)
    {qq : List Instr} (hh : MemOk qq s.kept) : MemOk qq (checkAgentRoutes s).kept := by
  simp +contextual (maxDischargeDepth := 9) [checkAgentRoutes, hh]
@[simp] theorem portDown_ok (s : State) (p : Nat) (to_ : LinkSt) (code : Nat)
    {qq : List Instr} (hh : MemOk qq s.kept) : MemOk qq (portDown s p to_ code).kept := by
  simp +contextual (maxDischargeDepth := 9) [portDown, hh]
@[simp] theorem portTo_ok (s : State) (p : Nat) (to_ : LinkSt) (code : Nat)
    {qq : List Instr} (hh : MemOk qq s.kept) : MemOk qq (portTo s p to_ code).kept := by
  simp +contextual (maxDischargeDepth := 9) [portTo, hh]
@[simp] theorem setActivate_ok (s : State) (by_ : Caller) (d : Nat)
    {qq : List Instr} (hh : MemOk qq s.kept) : MemOk qq (setActivate s by_ d).s.kept := by
  unfold setActivate; (repeat' split) <;> simp +contextual (maxDischargeDepth := 9) [hh]
@[simp] theorem fenceDomain_ok (s : State) (d : Nat)
    {qq : List Instr} (hh : MemOk qq s.kept) : MemOk qq (fenceDomain s d).kept := by
  simp +contextual (maxDischargeDepth := 9) [fenceDomain, hh]
@[simp] theorem setTeardown_ok (s : State) (by_ : Caller) (d : Nat)
    {qq : List Instr} (hh : MemOk qq s.kept) : MemOk qq (setTeardown s by_ d).s.kept := by
  simp +contextual (maxDischargeDepth := 9) [setTeardown, hh]
theorem execDomainActivate_ok (by_ : Caller) (d : Part) (s : State)
    {qq : List Instr} (hh : MemOk qq s.kept) {nxt : State} (ee : (execDomainActivate by_ d s) = .next nxt) : MemOk qq nxt.kept
        := by
  unfold execDomainActivate at ee; rw [← next_inj ee]; simp +contextual (maxDischargeDepth := 9) [hh]
theorem execTeardown_ok (by_ : Caller) (d : Part) (s : State)
    {qq : List Instr} (hh : MemOk qq s.kept) {nxt : State} (ee : (execTeardown by_ d s) = .next nxt) : MemOk qq nxt.kept := by
  unfold execTeardown at ee; rw [← next_inj ee]; simp +contextual (maxDischargeDepth := 9) [hh]
@[simp] theorem endScrub_ok (s : State) (i : Nat) (status : BitVec 8)
    {qq : List Instr} (hh : MemOk qq s.kept) : MemOk qq (endScrub s i status).kept := by
  simp +contextual (maxDischargeDepth := 9) [endScrub, hh]
@[simp] theorem zeroUnits_ok (s : State) (q : Nat) (us : List Nat)
    {qq : List Instr} (hh : MemOk qq s.kept) : MemOk qq (zeroUnits s q us).kept := by
  simp +contextual (maxDischargeDepth := 9) [zeroUnits, hh]
@[simp] theorem writeObject_ok (by_ : Caller) (s : State) (r : BitVec 16 × BitVec 512)
    {qq : List Instr} (hh : MemOk qq s.kept) : MemOk qq (writeObject by_ s r).2.kept := by
  unfold writeObject; dsimp only; (repeat' split) <;> simp +contextual (maxDischargeDepth := 9) [hh]
@[simp] theorem setObjects_ok (s : State) (by_ : Caller) (recs : List (BitVec 16 × BitVec 512))
    {qq : List Instr} (hh : MemOk qq s.kept) : MemOk qq (setObjects s by_ recs).s.kept := by
  simp +contextual (maxDischargeDepth := 9) [setObjects, hh]
theorem execObjWrite_ok (by_ : Caller) (recs : List (BitVec 16 × BitVec 512)) (s : State)
    {qq : List Instr} (hh : MemOk qq s.kept) {nxt : State} (ee : (execObjWrite by_ recs s) = .next nxt) : MemOk qq nxt.kept :=
        by
  unfold execObjWrite at ee; rw [← next_inj ee]; simp +contextual (maxDischargeDepth := 9) [hh]
@[simp] theorem queueMove_ok (s : State) (n : Nat) (o : Obj) (dsta : Nat) (req : Option Msg) (sched : Option (Nat × Nat))
    {qq : List Instr} (hh : MemOk qq s.kept) : MemOk qq (queueMove s n o dsta req sched).kept := by
  simp +contextual (maxDischargeDepth := 9) [queueMove, hh]
@[simp] theorem objMoveNow_ok (s : State) (m : Msg)
    {qq : List Instr} (hh : MemOk qq s.kept) : MemOk qq (objMoveNow s m).kept := by
  unfold objMoveNow; dsimp only; (repeat' split) <;> simp +contextual (maxDischargeDepth := 9) [hh]
theorem execObjMove_ok (m : Msg) (s : State)
    {qq : List Instr} (hh : MemOk qq s.kept) {nxt : State} (ee : (execObjMove m s) = .next nxt) : MemOk qq nxt.kept := by
  unfold execObjMove at ee; rw [← next_inj ee]; simp +contextual (maxDischargeDepth := 9) [hh]
@[simp] theorem sendPiece_ok (s : State) (m : Move) (o : Obj) (g : Seg) (data : List Byte)
    {qq : List Instr} (hh : MemOk qq s.kept) : MemOk qq (sendPiece s m o g data).kept := by
  unfold sendPiece; (repeat' split) <;> simp +contextual (maxDischargeDepth := 9) [hh]
@[simp] theorem beginPiece_ok (s : State) (m : Move)
    {qq : List Instr} (hh : MemOk qq s.kept) : MemOk qq (beginPiece s m).kept := by
  unfold beginPiece; dsimp only; (repeat' split) <;> simp +contextual (maxDischargeDepth := 9) [hh]
theorem execMoveStart_ok (engine : Fin 22) (s : State)
    {qq : List Instr} (hh : MemOk qq s.kept) {nxt : State} (ee : (execMoveStart engine s) = .next nxt) : MemOk qq nxt.kept := by
  unfold execMoveStart at ee; rw [← next_inj ee]; (repeat' split) <;> simp +contextual (maxDischargeDepth := 9) [hh]
@[simp] theorem serveWaiting_ok (s : State) (n tier : Nat)
    {qq : List Instr} (hh : MemOk qq s.kept) : MemOk qq (serveWaiting s n tier).kept := by
  simp +contextual (maxDischargeDepth := 9) [serveWaiting, hh]
@[simp] theorem haltMove_ok (s : State) (m : Move) (st : BitVec 8)
    {qq : List Instr} (hh : MemOk qq s.kept) : MemOk qq (haltMove s m st).kept := by
  simp +contextual (maxDischargeDepth := 9) [haltMove, hh]
@[simp] theorem landPiece_ok (s : State) (m : Move)
    {qq : List Instr} (hh : MemOk qq s.kept) : MemOk qq (landPiece s m).kept := by
  simp +contextual (maxDischargeDepth := 9) [landPiece, hh]
@[simp] theorem landData_ok (s : State) (m : Move) (b : Seg) (d : List Byte)
    {qq : List Instr} (hh : MemOk qq s.kept) : MemOk qq (landData s m b d).kept := by
  unfold landData; dsimp only; (repeat' split) <;> simp +contextual (maxDischargeDepth := 9) [hh]
@[simp] theorem pieceLanded_ok (s : State) (m : Move) (status : BitVec 8)
    {qq : List Instr} (hh : MemOk qq s.kept) : MemOk qq (pieceLanded s m status).kept := by
  unfold pieceLanded; dsimp only; (repeat' split) <;> simp +contextual (maxDischargeDepth := 9) [hh]
theorem execPieceLanded_ok (engine : Fin 22) (status : BitVec 8) (s : State)
    {qq : List Instr} (hh : MemOk qq s.kept) {nxt : State} (ee : (execPieceLanded engine status s) = .next nxt) : MemOk qq
        nxt.kept := by
  unfold execPieceLanded at ee; rw [← next_inj ee]; (repeat' split) <;> simp +contextual (maxDischargeDepth := 9) [hh]
@[simp] theorem moveSubDone_ok (s : State) (m : Move) (isRead : Bool) (st : BitVec 8) (data : List Byte)
    {qq : List Instr} (hh : MemOk qq s.kept) : MemOk qq (moveSubDone s m isRead st data).kept := by
  unfold moveSubDone; dsimp only; (repeat' split) <;> simp +contextual (maxDischargeDepth := 9) [hh]
@[simp] theorem startEntry_ok (n : Nat) (v : Sched) (s : State) (e : BitVec 128)
    {qq : List Instr} (hh : MemOk qq s.kept) : MemOk qq (startEntry n v s e).kept := by
  unfold startEntry; dsimp only; (repeat' split) <;> simp +contextual (maxDischargeDepth := 9) [hh]
@[simp] theorem layerTrigger_ok (s : State) (n layer : Nat)
    {qq : List Instr} (hh : MemOk qq s.kept) : MemOk qq (layerTrigger s n layer).kept := by
  simp +contextual (maxDischargeDepth := 9) [layerTrigger, hh]
@[simp] theorem onTrigger_ok (s : State) (n : Nat) (isStep : Bool) (step : BitVec 32) (layer : Nat)
    {qq : List Instr} (hh : MemOk qq s.kept) : MemOk qq (onTrigger s n isStep step layer).kept := by
  simp +contextual (maxDischargeDepth := 9) [onTrigger, hh]
@[simp] theorem sequencerTrigger_ok (s : State) (m : Msg)
    {qq : List Instr} (hh : MemOk qq s.kept) : MemOk qq (sequencerTrigger s m).kept := by
  simp +contextual (maxDischargeDepth := 9) [sequencerTrigger, hh]
@[simp] theorem forceComplete_ok (s : State) (i : Nat)
    {qq : List Instr} (hh : MemOk qq s.kept) : MemOk qq (forceComplete s i).kept := by
  simp +contextual (maxDischargeDepth := 9) [forceComplete, hh]
theorem execRevokeBoundExpire_ok (i : BitVec 16) (s : State)
    {qq : List Instr} (hh : MemOk qq s.kept) {nxt : State} (ee : (execRevokeBoundExpire i s) = .next nxt) : MemOk qq nxt.kept
        := by
  unfold execRevokeBoundExpire at ee; rw [← next_inj ee]; simp +contextual (maxDischargeDepth := 9) [hh]
@[simp] theorem accessRow_ok (s : State) (q : Nat) (w : BitVec 512) (o : RowOp) (bs : Option (List Byte))
    {qq : List Instr} (hh : MemOk qq s.kept) : MemOk qq (accessRow s q w o bs).2.kept := by
  unfold accessRow; dsimp only; split
  · exact hh
  · exact hh
  · split <;> dsimp only
    · apply overRuns_ok _ _ _ hh; intro s n g h; exact writeAt_ok _ _ _ _ _ h
    · apply overRuns_ok _ _ _ hh; intro s n g h; simp [h]
@[simp] theorem readRows_ok (s : State) (q : Nat) (w : BitVec 512) (os : List RowOp)
    {qq : List Instr} (hh : MemOk qq s.kept) : MemOk qq (readRows s q w os).2.kept := by
  simp +contextual (maxDischargeDepth := 9) [readRows, hh]
theorem startPass_ok (s : State) (q : Nat) (r : Run)
    {qq : List Instr} (hh : MemOk qq s.kept) {t : State} (e : startPass s q r = some t) : MemOk qq t.kept := by
  unfold startPass at e
  extract_lets k x r1 big spills n os area gs s1 s2 os2 s3 id first z r2 at e
  by_cases c : runBlocked s q r ∨ ¬ passFits s q r
  · rw [if_pos c] at e; cases e
  · rw [if_neg c] at e
    have hx : MemOk qq x.2.kept := by simp only [x]; split <;> simp [hh]
    have h1 : MemOk qq s1.kept := by simp only [s1]; split <;> simp [hx]
    have h2 : MemOk qq s2.kept := by simp only [s2]; split <;> simp [h1]
    have h3 : MemOk qq s3.kept := by clear_value area; simp only [s3]; split <;> simp [h2]
    split at e
    · cases e
    · injection e with e; subst e; simp [z, id, h3]
@[simp] theorem nextSubPass_ok (q : Nat) (s : State) (r : Run)
    {qq : List Instr} (hh : MemOk qq s.kept) : MemOk qq (nextSubPass q s r).kept := by
  simp +contextual (maxDischargeDepth := 9) [nextSubPass, hh]
@[simp] theorem tryJob_ok (s : State) (q : Nat) (j : Job) (rest : List Job)
    {qq : List Instr} (hh : MemOk qq s.kept) : MemOk qq (tryJob s q j rest).2.1.kept := by
  simp +contextual (maxDischargeDepth := 9) [tryJob, hh]
@[simp] theorem startHead_ok (s : State) (q : Nat)
    {qq : List Instr} (hh : MemOk qq s.kept) : MemOk qq (startHead s q).kept := by
  unfold startHead; dsimp only; split
  · split
    · rename_i e; simp [startPass_ok _ _ _ hh e]
    · simp [hh]
  · split
    · simp [hh]
    · split
      · exact hh
      · split
        · rename_i e; unfold tryJob at e
          have h1 := startPass_ok _ _ _ (qq := qq) (by simp [hh]) e; simp [h1]
        · simp [hh]
@[simp] theorem kick_ok (n : Nat) (s : State) (q : Nat)
    {qq : List Instr} (hh : MemOk qq s.kept) : MemOk qq (kick n s q).kept := by
  induction n generalizing s with
  | zero => exact hh
  | succ n ih => unfold kick; dsimp only; (repeat' split) <;> simp [ih, hh]
@[simp] theorem kickQuill_ok (s : State) (q : Nat)
    {qq : List Instr} (hh : MemOk qq s.kept) : MemOk qq (kickQuill s q).kept := by
  simp +contextual (maxDischargeDepth := 9) [kickQuill, hh]
theorem execPassStart_ok (q : Quill) (s : State)
    {qq : List Instr} (hh : MemOk qq s.kept) {nxt : State} (ee : (execPassStart q s) = .next nxt) : MemOk qq nxt.kept := by
  unfold execPassStart at ee; rw [← next_inj ee]; simp +contextual (maxDischargeDepth := 9) [hh]
@[simp] theorem addAlone_ok (s : State) (q : Nat) (g : GReq)
    {qq : List Instr} (hh : MemOk qq s.kept) : MemOk qq (addAlone s q g).kept := by
  simp +contextual (maxDischargeDepth := 9) [addAlone, hh]
@[simp] theorem placeReq_ok (s : State) (q : Nat) (g : GReq)
    {qq : List Instr} (hh : MemOk qq s.kept) : MemOk qq (placeReq s q g).kept := by
  unfold placeReq; dsimp only; (repeat' split) <;> simp +contextual (maxDischargeDepth := 9) [hh]
@[simp] theorem gatherArrive_ok (s : State) (m : Msg)
    {qq : List Instr} (hh : MemOk qq s.kept) : MemOk qq (gatherArrive s m).kept := by
  unfold gatherArrive; dsimp only; (repeat' split) <;> simp +contextual (maxDischargeDepth := 9) [hh]
@[simp] theorem gatherTurn_ok (s : State) (m : Msg) (f : State → State)
    {qq : List Instr} (hh : MemOk qq s.kept) (h : ∀ s, MemOk qq s.kept → MemOk qq (f s).kept) : MemOk qq (gatherTurn s m
        f).kept := by
  unfold gatherTurn; (repeat' split) <;> simp [hh, h]
theorem execBag_ok (m : Msg) (s : State)
    {qq : List Instr} (hh : MemOk qq s.kept) {nxt : State} (ee : (execBag m s) = .next nxt) : MemOk qq nxt.kept := by
  unfold execBag at ee; rw [← next_inj ee]; simp +contextual (maxDischargeDepth := 9) [hh]
theorem execFilter_ok (m : Msg) (s : State)
    {qq : List Instr} (hh : MemOk qq s.kept) {nxt : State} (ee : (execFilter m s) = .next nxt) : MemOk qq nxt.kept := by
  unfold execFilter at ee; rw [← next_inj ee]; simp +contextual (maxDischargeDepth := 9) [hh]
theorem execScatterAdd_ok (m : Msg) (s : State)
    {qq : List Instr} (hh : MemOk qq s.kept) {nxt : State} (ee : (execScatterAdd m s) = .next nxt) : MemOk qq nxt.kept := by
  unfold execScatterAdd at ee; rw [← next_inj ee]; simp +contextual (maxDischargeDepth := 9) [hh]
@[simp] theorem afterPass_ok (s : State) (q t : Nat)
    {qq : List Instr} (hh : MemOk qq s.kept) : MemOk qq (afterPass s q t).kept := by
  simp +contextual (maxDischargeDepth := 9) [afterPass, hh]
@[simp] theorem endScatterPass_ok (s : State) (q : Nat) (r : Run)
    {qq : List Instr} (hh : MemOk qq s.kept) : MemOk qq (endScatterPass s q r).kept := by
  simp +contextual (maxDischargeDepth := 9) [endScatterPass, hh]
@[simp] theorem writeBack_ok (q : Nat) (a : Run × List RowOp × State) (o : RowOp)
    {qq : List Instr} (hh : MemOk qq a.2.2.kept) : MemOk qq (writeBack q a o).2.2.kept := by
  unfold writeBack; dsimp only; split <;> simp [hh]
@[simp] theorem scatterReads_ok (s : State) (q : Nat) (r : Run)
    {qq : List Instr} (hh : MemOk qq s.kept) : MemOk qq (scatterReads s q r).kept := by
  have h := foldl22_ok (writeBack q) r.ops (r, [], s) hh (fun x a h => writeBack_ok q x a h)
  unfold scatterReads; dsimp only; split <;> simp [h]
@[simp] theorem endReadPass_ok (s : State) (q : Nat) (r : Run)
    {qq : List Instr} (hh : MemOk qq s.kept) : MemOk qq (endReadPass s q r).kept := by
  simp +contextual (maxDischargeDepth := 9) [endReadPass, hh]
@[simp] theorem retryRun_ok (q : Nat) (s : State) (r : Run)
    {qq : List Instr} (hh : MemOk qq s.kept) : MemOk qq (retryRun q s r).kept := by
  unfold retryRun; split
  · exact hh
  · rw [modRun_kept]; apply foldl2_ok
    · exact hh
    · intro x a h; split
      · exact h
      · dsimp only; split <;> simp [h]
theorem execGatherRequestDone_ok (q : Quill) (s : State)
    {qq : List Instr} (hh : MemOk qq s.kept) {nxt : State} (ee : (execGatherRequestDone q s) = .next nxt) : MemOk qq nxt.kept
        := by
  unfold execGatherRequestDone at ee; rw [← next_inj ee]; (repeat' split) <;> simp +contextual (maxDischargeDepth := 9) [hh]
@[simp] theorem setTableSwitch_ok (s : State) (by_ : Caller) (t : Nat)
    {qq : List Instr} (hh : MemOk qq s.kept) : MemOk qq (setTableSwitch s by_ t).s.kept := by
  unfold setTableSwitch; dsimp only; (repeat' split) <;> simp +contextual (maxDischargeDepth := 9) [hh]
theorem execTableSwitch_ok (by_ : Caller) (t : BitVec 16) (s : State)
    {qq : List Instr} (hh : MemOk qq s.kept) {nxt : State} (ee : (execTableSwitch by_ t s) = .next nxt) : MemOk qq nxt.kept :=
        by
  unfold execTableSwitch at ee; rw [← next_inj ee]; simp +contextual (maxDischargeDepth := 9) [hh]
@[simp] theorem setTableDelete_ok (s : State) (by_ : Caller) (t : Nat)
    {qq : List Instr} (hh : MemOk qq s.kept) : MemOk qq (setTableDelete s by_ t).s.kept := by
  simp +contextual (maxDischargeDepth := 9) [setTableDelete, hh]
theorem execTableDelete_ok (by_ : Caller) (t : BitVec 16) (s : State)
    {qq : List Instr} (hh : MemOk qq s.kept) {nxt : State} (ee : (execTableDelete by_ t s) = .next nxt) : MemOk qq nxt.kept :=
        by
  unfold execTableDelete at ee; rw [← next_inj ee]; simp +contextual (maxDischargeDepth := 9) [hh]
@[simp] theorem basisFill_ok (s : State) (j : BasisJob) (image : List Byte)
    {qq : List Instr} (hh : MemOk qq s.kept) : MemOk qq (basisFill s j image).kept := by
  unfold basisFill; dsimp only; (repeat' split) <;> simp +contextual (maxDischargeDepth := 9) [hh]
@[simp] theorem basisAdvance_ok (s : State) (j : BasisJob)
    {qq : List Instr} (hh : MemOk qq s.kept) : MemOk qq (basisAdvance s j).kept := by
  unfold basisAdvance; dsimp only; (repeat' split) <;> simp +contextual (maxDischargeDepth := 9) [hh]
@[simp] theorem loadAdvance_ok (s : State)
    {qq : List Instr} (hh : MemOk qq s.kept) : MemOk qq (loadAdvance s).kept := by
  simp +contextual (maxDischargeDepth := 9) [loadAdvance, hh]
theorem execBasisWritten_ok (slot : Fin 512) (entry : Fin 4) (s : State)
    {qq : List Instr} (hh : MemOk qq s.kept) {nxt : State} (ee : (execBasisWritten slot entry s) = .next nxt) : MemOk qq
        nxt.kept := by
  unfold execBasisWritten at ee; rw [← next_inj ee]; (repeat' split) <;> simp +contextual (maxDischargeDepth := 9) [hh]
@[simp] theorem encWrite_ok (s : State) (q : Nat) (j : EncJob) (r : BlockRef)
    {qq : List Instr} (hh : MemOk qq s.kept) : MemOk qq (encWrite s q j r).1.kept := by
  unfold encWrite; dsimp only; (repeat' split) <;> simp +contextual (maxDischargeDepth := 9) [hh]
@[simp] theorem indexWrite_ok (s : State) (q : Nat) (j : EncJob)
    {qq : List Instr} (hh : MemOk qq s.kept) : MemOk qq (indexWrite s q j).1.kept := by
  unfold indexWrite; dsimp only; (repeat' split) <;> simp +contextual (maxDischargeDepth := 9) [hh]
@[simp] theorem encRun_ok (n : Nat) (s : State) (j : EncJob) {qq : List Instr} (hh : MemOk qq s.kept) : MemOk qq (encRun n s
    j).kept := by
  induction n generalizing s j with
  | zero => simp [encRun, hh]
  | succ n ih => unfold encRun; dsimp only; (repeat' split) <;> simp [ih, hh]
theorem execEncodeDone_ok (k : ReqKey) (s : State)
    {qq : List Instr} (hh : MemOk qq s.kept) {nxt : State} (ee : (execEncodeDone k s) = .next nxt) : MemOk qq nxt.kept := by
  unfold execEncodeDone at ee; rw [← next_inj ee]; (repeat' split) <;> simp +contextual (maxDischargeDepth := 9) [hh]
@[simp] theorem encNow_ok (s : State) (m : Msg)
    {qq : List Instr} (hh : MemOk qq s.kept) : MemOk qq (encNow s m).kept := by
  unfold encNow; dsimp only; (repeat' split) <;> simp +contextual (maxDischargeDepth := 9) [hh]
@[simp] theorem encRequest_ok (s : State) (m : Msg)
    {qq : List Instr} (hh : MemOk qq s.kept) : MemOk qq (encRequest s m).kept := by
  simp +contextual (maxDischargeDepth := 9) [encRequest, hh]
theorem execBuild_ok (m : Msg) (s : State)
    {qq : List Instr} (hh : MemOk qq s.kept) {nxt : State} (ee : (execBuild m s) = .next nxt) : MemOk qq nxt.kept := by
  unfold execBuild at ee; rw [← next_inj ee]; simp +contextual (maxDischargeDepth := 9) [hh]
theorem execEncode_ok (m : Msg) (s : State)
    {qq : List Instr} (hh : MemOk qq s.kept) {nxt : State} (ee : (execEncode m s) = .next nxt) : MemOk qq nxt.kept := by
  unfold execEncode at ee; rw [← next_inj ee]; simp +contextual (maxDischargeDepth := 9) [hh]
theorem execBasisLoad_ok (m : Msg) (s : State)
    {qq : List Instr} (hh : MemOk qq s.kept) {nxt : State} (ee : (execBasisLoad m s) = .next nxt) : MemOk qq nxt.kept := by
  unfold execBasisLoad at ee; rw [← next_inj ee]; simp +contextual (maxDischargeDepth := 9) [hh]
theorem execBasisRetire_ok (m : Msg) (s : State)
    {qq : List Instr} (hh : MemOk qq s.kept) {nxt : State} (ee : (execBasisRetire m s) = .next nxt) : MemOk qq nxt.kept := by
  unfold execBasisRetire at ee; rw [← next_inj ee]; simp +contextual (maxDischargeDepth := 9) [hh]
@[simp] theorem headAdvance_ok (s : State)
    {qq : List Instr} (hh : MemOk qq s.kept) : MemOk qq (headAdvance s).kept := by
  simp +contextual (maxDischargeDepth := 9) [headAdvance, hh]
theorem execExpandBlockDone_ok (stack : Fin 6) (s : State)
    {qq : List Instr} (hh : MemOk qq s.kept) {nxt : State} (ee : (execExpandBlockDone stack s) = .next nxt) : MemOk qq nxt.kept
        := by
  unfold execExpandBlockDone at ee; rw [← next_inj ee]; (repeat' split) <;> simp +contextual (maxDischargeDepth := 9) [hh]
@[simp] theorem restartRun_ok (s : State) (q : Nat) (r : Run) (ended : List ReqKey)
    {qq : List Instr} (hh : MemOk qq s.kept) : MemOk qq (restartRun s q r ended).kept := by
  simp +contextual (maxDischargeDepth := 9) [restartRun, hh]
@[simp] theorem abandonPasses_ok (s : State) (q : Nat)
    {qq : List Instr} (hh : MemOk qq s.kept) : MemOk qq (abandonPasses s q).kept := by
  simp +contextual (maxDischargeDepth := 9) [abandonPasses, hh]
@[simp] theorem abandonJobs_ok (s : State) (q : Nat)
    {qq : List Instr} (hh : MemOk qq s.kept) : MemOk qq (abandonJobs s q).kept := by
  simp +contextual (maxDischargeDepth := 9) [abandonJobs, hh]
@[simp] theorem failEntry_ok (s : State) (line : Nat) (chk : BitVec 8)
    {qq : List Instr} (hh : MemOk qq s.kept) : MemOk qq (failEntry s line chk).kept := by
  unfold failEntry; (repeat' split) <;> simp +contextual (maxDischargeDepth := 9) [hh]
@[simp] theorem loseOne_ok (place : Nat) (s : State) (x : Lost)
    {qq : List Instr} (hh : MemOk qq s.kept) : MemOk qq (loseOne place s x).kept := by
  unfold loseOne; (repeat' split) <;> simp +contextual (maxDischargeDepth := 9) [hh]
@[simp] theorem retirePort_ok (s : State) (p : Nat)
    {qq : List Instr} (hh : MemOk qq s.kept) : MemOk qq (retirePort s p).kept := by
  simp +contextual (maxDischargeDepth := 9) [retirePort, hh]
@[simp] theorem retirePlaced_ok (s : State) (u : Nat)
    {qq : List Instr} (hh : MemOk qq s.kept) : MemOk qq (retirePlaced s u).kept := by
  unfold retirePlaced; (repeat' split) <;> simp +contextual (maxDischargeDepth := 9) [hh]
@[simp] theorem retireUnit_ok (s : State) (u cause : Nat)
    {qq : List Instr} (hh : MemOk qq s.kept) : MemOk qq (retireUnit s u cause).kept := by
  unfold retireUnit; (repeat' split) <;> simp +contextual (maxDischargeDepth := 9) [hh]
@[simp] theorem abandonQuill_ok (s : State) (q : Nat)
    {qq : List Instr} (hh : MemOk qq s.kept) : MemOk qq (abandonQuill s q).kept := by
  simp +contextual (maxDischargeDepth := 9) [abandonQuill, hh]
@[simp] theorem quarantine_ok (s : State) (u : Nat)
    {qq : List Instr} (hh : MemOk qq s.kept) : MemOk qq (quarantine s u).kept := by
  unfold quarantine; (repeat' split) <;> simp +contextual (maxDischargeDepth := 9) [hh]
@[simp] theorem unitErred_ok (s : State) (u : Nat)
    {qq : List Instr} (hh : MemOk qq s.kept) : MemOk qq (unitErred s u).kept := by
  simp +contextual (maxDischargeDepth := 9) [unitErred, hh]
theorem execUnitError_ok (u : BitVec 32) (lost : List Lost) (s : State)
    {qq : List Instr} (hh : MemOk qq s.kept) {nxt : State} (ee : (execUnitError u lost s) = .next nxt) : MemOk qq nxt.kept := by
  unfold execUnitError at ee; rw [← next_inj ee]; dsimp only; (repeat' split) <;> simp +contextual (maxDischargeDepth := 9) [hh]
@[simp] theorem restoreUnit_ok (s : State) (u : Nat)
    {qq : List Instr} (hh : MemOk qq s.kept) : MemOk qq (restoreUnit s u).kept := by
  simp +contextual (maxDischargeDepth := 9) [restoreUnit, hh]
@[simp] theorem selftestDone_ok (s : State) (u : Nat) (pass repairable : Bool)
    {qq : List Instr} (hh : MemOk qq s.kept) : MemOk qq (selftestDone s u pass repairable).kept := by
  simp +contextual (maxDischargeDepth := 9) [selftestDone, hh]
theorem execSelftestDone_ok (u : BitVec 32) (pass repairable : Bool) (s : State)
    {qq : List Instr} (hh : MemOk qq s.kept) {nxt : State} (ee : (execSelftestDone u pass repairable s) = .next nxt) : MemOk qq
        nxt.kept := by
  unfold execSelftestDone at ee; rw [← next_inj ee]; simp +contextual (maxDischargeDepth := 9) [hh]
@[simp] theorem setSelftestRun_ok (s : State) (by_ : Caller) (u : Nat)
    {qq : List Instr} (hh : MemOk qq s.kept) : MemOk qq (setSelftestRun s by_ u).s.kept := by
  simp +contextual (maxDischargeDepth := 9) [setSelftestRun, hh]
theorem execSelftestRun_ok (by_ : Caller) (u : BitVec 32) (s : State)
    {qq : List Instr} (hh : MemOk qq s.kept) {nxt : State} (ee : (execSelftestRun by_ u s) = .next nxt) : MemOk qq nxt.kept :=
        by
  unfold execSelftestRun at ee; rw [← next_inj ee]; simp +contextual (maxDischargeDepth := 9) [hh]
@[simp] theorem setCommit_ok (s : State) (by_ : Caller) (ep : Bool) (v : Nat)
    {qq : List Instr} (hh : MemOk qq s.kept) : MemOk qq (setCommit s by_ ep v).s.kept := by
  unfold setCommit; dsimp only; (repeat' split) <;> simp +contextual (maxDischargeDepth := 9) [hh]
theorem execCommit_ok (by_ : Caller) (slot : Bool) (v : BitVec 8) (s : State)
    {qq : List Instr} (hh : MemOk qq s.kept) {nxt : State} (ee : (execCommit by_ slot v s) = .next nxt) : MemOk qq nxt.kept :=
        by
  unfold execCommit at ee; rw [← next_inj ee]; simp +contextual (maxDischargeDepth := 9) [hh]
@[simp] theorem setOrigEp_ok (s : State) (by_ : Caller) (v : Nat)
    {qq : List Instr} (hh : MemOk qq s.kept) : MemOk qq (setOrigEp s by_ v).s.kept := by
  simp +contextual (maxDischargeDepth := 9) [setOrigEp, hh]
theorem execOrigEp_ok (by_ : Caller) (v : BitVec 8) (s : State)
    {qq : List Instr} (hh : MemOk qq s.kept) {nxt : State} (ee : (execOrigEp by_ v s) = .next nxt) : MemOk qq nxt.kept := by
  unfold execOrigEp at ee; rw [← next_inj ee]; simp +contextual (maxDischargeDepth := 9) [hh]
@[simp] theorem configWrite_ok (s : State) (by_ : Caller) (p sub : Nat) (ok : Bool) (r : State)
    {qq : List Instr} (hh : MemOk qq s.kept) (h : MemOk qq r.kept) : MemOk qq (configWrite s by_ p sub ok r).s.kept := by
  unfold configWrite guardRole guardValue; (repeat' split) <;> simp [h, hh]
@[simp] theorem zeroStore_ok (s : State) (q : Nat)
    {qq : List Instr} (hh : MemOk qq s.kept) : MemOk qq (zeroStore s q).kept := by
  simp +contextual (maxDischargeDepth := 9) [zeroStore, hh]
@[simp] theorem zeroSlice_ok (s : State) (d : Nat)
    {qq : List Instr} (hh : MemOk qq s.kept) : MemOk qq (zeroSlice s d).kept := by
  simp +contextual (maxDischargeDepth := 9) [zeroSlice, hh]
@[simp] theorem setQuills_ok (s : State) (by_ : Caller) (p v : Nat)
    {qq : List Instr} (hh : MemOk qq s.kept) : MemOk qq (setQuills s by_ p v).s.kept := by
  simp +contextual (maxDischargeDepth := 9) [setQuills, hh]
@[simp] theorem setSliceMap_ok (s : State) (by_ : Caller) (p : Nat) (m : List Byte)
    {qq : List Instr} (hh : MemOk qq s.kept) : MemOk qq (setSliceMap s by_ p m).s.kept := by
  simp +contextual (maxDischargeDepth := 9) [setSliceMap, hh]
theorem execQuills_ok (by_ : Caller) (p : Part) (v : BitVec 64) (s : State)
    {qq : List Instr} (hh : MemOk qq s.kept) {nxt : State} (ee : (execQuills by_ p v s) = .next nxt) : MemOk qq nxt.kept := by
  unfold execQuills at ee; rw [← next_inj ee]; simp +contextual (maxDischargeDepth := 9) [hh]
theorem execSliceMap_ok (by_ : Caller) (p : Part) (v : Vector Byte 128) (s : State)
    {qq : List Instr} (hh : MemOk qq s.kept) {nxt : State} (ee : (execSliceMap by_ p v s) = .next nxt) : MemOk qq nxt.kept := by
  unfold execSliceMap at ee; rw [← next_inj ee]; simp +contextual (maxDischargeDepth := 9) [hh]
@[simp] theorem endMemory_ok (s : State) (mine : Msg → Bool) (st : BitVec 8)
    {qq : List Instr} (hh : MemOk qq s.kept) : MemOk qq (endMemory s mine st).kept := by
  simp +contextual (maxDischargeDepth := 9) [endMemory, hh]
@[simp] theorem cutRun_ok (keys : List ReqKey) (q : Nat) (s : State) (r : Run)
    {qq : List Instr} (hh : MemOk qq s.kept) : MemOk qq (cutRun keys q s r).kept := by
  simp +contextual (maxDischargeDepth := 9) [cutRun, hh]
@[simp] theorem endQuillWork_ok (mine : GReq → Bool) (st : BitVec 8) (s : State) (q : Nat)
    {qq : List Instr} (hh : MemOk qq s.kept) : MemOk qq (endQuillWork mine st s q).kept := by
  simp +contextual (maxDischargeDepth := 9) [endQuillWork, hh]
@[simp] theorem endGather_ok (s : State) (mine : GReq → Bool) (st : BitVec 8)
    {qq : List Instr} (hh : MemOk qq s.kept) : MemOk qq (endGather s mine st).kept := by
  simp +contextual (maxDischargeDepth := 9) [endGather, hh]
@[simp] theorem endMoves_ok (s : State) (p : Nat) (which : Move → Bool) (st : BitVec 8)
    {qq : List Instr} (hh : MemOk qq s.kept) : MemOk qq (endMoves s p which st).kept := by
  simp +contextual (maxDischargeDepth := 9) [endMoves, hh]
@[simp] theorem endWork_ok (s : State) (p : Nat) (st : BitVec 8)
    {qq : List Instr} (hh : MemOk qq s.kept) : MemOk qq (endWork s p st).kept := by
  simp +contextual (maxDischargeDepth := 9) [endWork, hh]
@[simp] theorem flushSealing_ok (s : State) (p : Nat)
    {qq : List Instr} (hh : MemOk qq s.kept) : MemOk qq (flushSealing s p).kept := by
  simp +contextual (maxDischargeDepth := 9) [flushSealing, hh]
@[simp] theorem endReaders_ok (s : State) (p : Nat)
    {qq : List Instr} (hh : MemOk qq s.kept) : MemOk qq (endReaders s p).kept := by
  simp +contextual (maxDischargeDepth := 9) [endReaders, hh]
@[simp] theorem endDomains_ok (s : State) (p : Nat)
    {qq : List Instr} (hh : MemOk qq s.kept) : MemOk qq (endDomains s p).kept := by
  simp +contextual (maxDischargeDepth := 9) [endDomains, hh]
@[simp] theorem scrubLocal_ok (s : State) (p : Nat)
    {qq : List Instr} (hh : MemOk qq s.kept) : MemOk qq (scrubLocal s p).kept := by
  simp +contextual (maxDischargeDepth := 9) [scrubLocal, hh]
@[simp] theorem scrubBasis_ok (s : State) (p : Nat)
    {qq : List Instr} (hh : MemOk qq s.kept) : MemOk qq (scrubBasis s p).kept := by
  simp +contextual (maxDischargeDepth := 9) [scrubBasis, hh]
@[simp] theorem release_ok (s : State) (p : Nat)
    {qq : List Instr} (hh : MemOk qq s.kept) : MemOk qq (release s p).kept := by
  simp +contextual (maxDischargeDepth := 9) [release, hh]
@[simp] theorem beginRemoval_ok (s : State) (p : Nat)
    {qq : List Instr} (hh : MemOk qq s.kept) : MemOk qq (beginRemoval s p).kept := by
  simp +contextual (maxDischargeDepth := 9) [beginRemoval, hh]
@[simp] theorem endRemoval_ok (s : State) (p : Nat)
    {qq : List Instr} (hh : MemOk qq s.kept) : MemOk qq (endRemoval s p).kept := by
  simp +contextual (maxDischargeDepth := 9) [endRemoval, hh]
@[simp] theorem setRemove_ok (s : State) (by_ : Caller) (p : Nat)
    {qq : List Instr} (hh : MemOk qq s.kept) : MemOk qq (setRemove s by_ p).s.kept := by
  simp +contextual (maxDischargeDepth := 9) [setRemove, hh]
theorem execRemove_ok (by_ : Caller) (p : Part) (s : State)
    {qq : List Instr} (hh : MemOk qq s.kept) {nxt : State} (ee : (execRemove by_ p s) = .next nxt) : MemOk qq nxt.kept := by
  unfold execRemove at ee; rw [← next_inj ee]; simp +contextual (maxDischargeDepth := 9) [hh]
@[simp] theorem portOff_ok (s : State) (p : Nat)
    {qq : List Instr} (hh : MemOk qq s.kept) : MemOk qq (portOff s p).kept := by
  simp +contextual (maxDischargeDepth := 9) [portOff, hh]
@[simp] theorem setPortEnable_ok (s : State) (by_ : Caller) (p v : Nat)
    {qq : List Instr} (hh : MemOk qq s.kept) : MemOk qq (setPortEnable s by_ p v).s.kept := by
  simp +contextual (maxDischargeDepth := 9) [setPortEnable, hh]
theorem execPortEnable_ok (by_ : Caller) (p : Port) (v : BitVec 8) (s : State)
    {qq : List Instr} (hh : MemOk qq s.kept) {nxt : State} (ee : (execPortEnable by_ p v s) = .next nxt) : MemOk qq nxt.kept :=
        by
  unfold execPortEnable at ee; rw [← next_inj ee]; simp +contextual (maxDischargeDepth := 9) [hh]
@[simp] theorem realignFail_ok (s : State) (p : Nat)
    {qq : List Instr} (hh : MemOk qq s.kept) : MemOk qq (realignFail s p).kept := by
  simp +contextual (maxDischargeDepth := 9) [realignFail, hh]
theorem execAlignTimeout_ok (p : Port) (s : State)
    {qq : List Instr} (hh : MemOk qq s.kept) {nxt : State} (ee : (execAlignTimeout p s) = .next nxt) : MemOk qq nxt.kept := by
  unfold execAlignTimeout at ee; rw [← next_inj ee]; (repeat' split) <;> simp +contextual (maxDischargeDepth := 9) [hh]
@[simp] theorem withItem_ok (s : State) (p : Nat) (i : LinkItem) (f : State → State) {qq : List Instr} (hh : MemOk qq s.kept)
    (h : ∀ s, MemOk qq s.kept → MemOk qq (f s).kept) : MemOk qq (withItem s p i f).kept := by
  unfold withItem; split <;> simp [h, hh]
theorem execRetrainTimeout_ok (p : Port) (s : State)
    {qq : List Instr} (hh : MemOk qq s.kept) {nxt : State} (ee : (execRetrainTimeout p s) = .next nxt) : MemOk qq nxt.kept := by
  unfold execRetrainTimeout at ee; rw [← next_inj ee]; simp +contextual (maxDischargeDepth := 9) [hh]
@[simp] theorem downItem_ok (s : State) (p : Nat) (i : LinkItem)
    {qq : List Instr} (hh : MemOk qq s.kept) : MemOk qq (downItem s p i).kept := by
  unfold downItem; apply withItem_ok _ _ _ _ hh; intro s h; split <;> simp [h]
theorem execDown_ok (p : Port) (i : LinkItem) (s : State)
    {qq : List Instr} (hh : MemOk qq s.kept) {nxt : State} (ee : (execDown p i s) = .next nxt) : MemOk qq nxt.kept := by
  unfold execDown at ee; rw [← next_inj ee]; simp +contextual (maxDischargeDepth := 9) [hh]
theorem execLossOfSignal_ok (p : Port) (s : State)
    {qq : List Instr} (hh : MemOk qq s.kept) {nxt : State} (ee : (execLossOfSignal p s) = .next nxt) : MemOk qq nxt.kept := by
  unfold execLossOfSignal at ee; rw [← next_inj ee]; simp +contextual (maxDischargeDepth := 9) [hh]
theorem execBlockLockLoss_ok (p : Port) (s : State)
    {qq : List Instr} (hh : MemOk qq s.kept) {nxt : State} (ee : (execBlockLockLoss p s) = .next nxt) : MemOk qq nxt.kept := by
  unfold execBlockLockLoss at ee; rw [← next_inj ee]; simp +contextual (maxDischargeDepth := 9) [hh]
@[simp] theorem itemRead_ok (s : State) (p : Nat) (bs : List Byte)
    {qq : List Instr} (hh : MemOk qq s.kept) : MemOk qq (itemRead s p bs).kept := by
  unfold itemRead; dsimp only; (repeat' split) <;> simp +contextual (maxDischargeDepth := 9) [hh]
@[simp] theorem unitRead_ok (s : State) (p : Nat) (lseq : BitVec 16) (bad : Bool) (bs : List Byte)
    {qq : List Instr} (hh : MemOk qq s.kept) : MemOk qq (unitRead s p lseq bad bs).kept := by
  simp +contextual (maxDischargeDepth := 9) [unitRead, hh]
@[simp] theorem readWords_ok (p : Nat) (ws : List (List Byte × Bool)) (ls : List (BitVec 16)) (s : State) {qq : List Instr} (hh
    : MemOk qq s.kept) : MemOk qq (readWords p ws ls s).kept := by
  induction ws generalizing ls s with
  | nil => simp [readWords, hh]
  | cons w ws ih => unfold readWords; dsimp only; (repeat' split) <;> simp [ih, hh]
@[simp] theorem blockRead_ok (s : State) (p : Nat) (b : LinkBlock)
    {qq : List Instr} (hh : MemOk qq s.kept) : MemOk qq (blockRead s p b).kept := by
  simp +contextual (maxDischargeDepth := 9) [blockRead, hh]
@[simp] theorem receiveBlock_ok (s : State) (p : Nat) (f : Fec) (b : LinkBlock)
    {qq : List Instr} (hh : MemOk qq s.kept) : MemOk qq (receiveBlock s p f b).kept := by
  simp +contextual (maxDischargeDepth := 9) [receiveBlock, hh]
theorem execPacketReceive_ok (p : Port) (r : Rx) (s : State)
    {qq : List Instr} (hh : MemOk qq s.kept) {nxt : State} (ee : (execPacketReceive p r s) = .next nxt) : MemOk qq nxt.kept :=
        by
  unfold execPacketReceive at ee; rw [← next_inj ee]; (repeat' split) <;> simp +contextual (maxDischargeDepth := 9) [hh]
@[simp] theorem retireChannel_ok (s : State) (u : BitVec 32)
    {qq : List Instr} (hh : MemOk qq s.kept) : MemOk qq (retireChannel s u).kept := by
  simp +contextual (maxDischargeDepth := 9) [retireChannel, hh]
@[simp] theorem bringUp_ok (s : State) (ms : BitVec 32) (failed : List (BitVec 32))
    {qq : List Instr} (hh : MemOk qq s.kept) : MemOk qq (bringUp s ms failed).kept := by
  simp +contextual (maxDischargeDepth := 9) [bringUp, hh]
@[simp] theorem bringUpFree_ok (s : State)
    {qq : List Instr} (hh : MemOk qq s.kept) : MemOk qq (bringUpFree s).kept := by
  simp +contextual (maxDischargeDepth := 9) [bringUpFree, hh]
@[simp] theorem bringUpHeld_ok (s : State) (ms : BitVec 32) (failed : List (BitVec 32))
    {qq : List Instr} (hh : MemOk qq s.kept) : MemOk qq (bringUpHeld s ms failed).kept := by
  simp +contextual (maxDischargeDepth := 9) [bringUpHeld, hh]
theorem execResetZeroingDone_ok (s : State)
    {qq : List Instr} (hh : MemOk qq s.kept) {nxt : State} (ee : (execResetZeroingDone s) = .next nxt) : MemOk qq nxt.kept := by
  unfold execResetZeroingDone at ee; rw [← next_inj ee]; simp +contextual (maxDischargeDepth := 9) [hh]
@[simp] theorem withoutVstby_ok (s : State)
    {qq : List Instr} (hh : MemOk qq s.kept) : MemOk qq (withoutVstby s).kept := ⟨hh.1, rfl⟩
theorem execVstbyLoss_ok (s : State)
    {qq : List Instr} (hh : MemOk qq s.kept) {nxt : State} (ee : (execVstbyLoss s) = .next nxt) : MemOk qq nxt.kept := by
  unfold execVstbyLoss at ee; rw [← next_inj ee]; simp +contextual (maxDischargeDepth := 9) [hh]
theorem execVstbyApply_ok (s : State)
    {qq : List Instr} (hh : MemOk qq s.kept) {nxt : State} (ee : (execVstbyApply s) = .next nxt) : MemOk qq nxt.kept := by
  unfold execVstbyApply at ee; rw [← next_inj ee]; simp +contextual (maxDischargeDepth := 9) [hh]
@[simp] theorem resetDataPath_ok (s : State)
    {qq : List Instr} (hh : MemOk qq s.kept) : MemOk qq (resetDataPath s).kept := by
  simp +contextual (maxDischargeDepth := 9) [resetDataPath, hh]
@[simp] theorem setFwActivate_ok (s : State) (by_ : Caller)
    {qq : List Instr} (hh : MemOk qq s.kept) : MemOk qq (setFwActivate s by_).s.kept := by
  simp +contextual (maxDischargeDepth := 9) [setFwActivate, hh]
theorem execFwActivate_ok (by_ : Caller) (s : State)
    {qq : List Instr} (hh : MemOk qq s.kept) {nxt : State} (ee : (execFwActivate by_ s) = .next nxt) : MemOk qq nxt.kept := by
  unfold execFwActivate at ee; rw [← next_inj ee]; simp +contextual (maxDischargeDepth := 9) [hh]
@[simp] theorem powerStageStart_ok (s : State) (ms : BitVec 32) (failed : List (BitVec 32))
    {qq : List Instr} (hh : MemOk qq s.kept) : MemOk qq (powerStageStart s ms failed).kept := by
  simp +contextual (maxDischargeDepth := 9) [powerStageStart, hh]
theorem execPowerStageStart_ok (durationMs : BitVec 32) (failedChannels : List (BitVec 32)) (s : State)
    {qq : List Instr} (hh : MemOk qq s.kept) {nxt : State} (ee : (execPowerStageStart durationMs failedChannels s) = .next nxt)
        : MemOk qq nxt.kept := by
  unfold execPowerStageStart at ee; rw [← next_inj ee]; simp +contextual (maxDischargeDepth := 9) [hh]
@[simp] theorem refclkRestored_ok (s : State) (ms : BitVec 32) (failed : List (BitVec 32))
    {qq : List Instr} (hh : MemOk qq s.kept) : MemOk qq (refclkRestored s ms failed).kept := by
  simp +contextual (maxDischargeDepth := 9) [refclkRestored, hh]
theorem execRefclkRestored_ok (durationMs : BitVec 32) (failedChannels : List (BitVec 32)) (s : State)
    {qq : List Instr} (hh : MemOk qq s.kept) {nxt : State} (ee : (execRefclkRestored durationMs failedChannels s) = .next nxt)
        : MemOk qq nxt.kept := by
  unfold execRefclkRestored at ee; rw [← next_inj ee]; simp +contextual (maxDischargeDepth := 9) [hh]
@[simp] theorem resetHigh_ok (s : State) (ms : BitVec 32) (failed : List (BitVec 32))
    {qq : List Instr} (hh : MemOk qq s.kept) : MemOk qq (resetHigh s ms failed).kept := by
  simp +contextual (maxDischargeDepth := 9) [resetHigh, hh]
theorem execResetNRelease_ok (durationMs : BitVec 32) (failedChannels : List (BitVec 32)) (s : State)
    {qq : List Instr} (hh : MemOk qq s.kept) {nxt : State} (ee : (execResetNRelease durationMs failedChannels s) = .next nxt) :
        MemOk qq nxt.kept := by
  unfold execResetNRelease at ee; rw [← next_inj ee]; simp +contextual (maxDischargeDepth := 9) [hh]
@[simp] theorem inputQuiet_ok (s : State) (i : Sideband) (raw : Bool)
    {qq : List Instr} (hh : MemOk qq s.kept) : MemOk qq (inputQuiet s i raw).kept := by
  unfold inputQuiet; (repeat' split) <;> simp +contextual (maxDischargeDepth := 9) [hh]
theorem execInputQuiet_ok (i : Sideband) (raw : Bool) (s : State)
    {qq : List Instr} (hh : MemOk qq s.kept) {nxt : State} (ee : (execInputQuiet i raw s) = .next nxt) : MemOk qq nxt.kept := by
  unfold execInputQuiet at ee; rw [← next_inj ee]; simp +contextual (maxDischargeDepth := 9) [hh]
@[simp] theorem portResetNow_ok (s : State) (o : Nat)
    {qq : List Instr} (hh : MemOk qq s.kept) : MemOk qq (portResetNow s o).kept := by
  simp +contextual (maxDischargeDepth := 9) [portResetNow, hh]
@[simp] theorem setPortReset_ok (s : State) (by_ : Caller) (o : Nat)
    {qq : List Instr} (hh : MemOk qq s.kept) : MemOk qq (setPortReset s by_ o).s.kept := by
  simp +contextual (maxDischargeDepth := 9) [setPortReset, hh]
theorem execPortReset_ok (by_ : Caller) (o : BitVec 8) (s : State)
    {qq : List Instr} (hh : MemOk qq s.kept) {nxt : State} (ee : (execPortReset by_ o s) = .next nxt) : MemOk qq nxt.kept := by
  unfold execPortReset at ee; rw [← next_inj ee]; simp +contextual (maxDischargeDepth := 9) [hh]
@[simp] theorem abandonWork_ok (s : State) (keys : List ReqKey)
    {qq : List Instr} (hh : MemOk qq s.kept) : MemOk qq (abandonWork s keys).kept := by
  unfold abandonWork; extract_lets mine s1 s2 ids bs s3 s4 s5
  have e1 : MemOk qq s1.kept := by simp [s1, hh]
  have e3 : s3.kept = s1.kept := by simp [s3, s2]
  have e4 : s4.kept = s3.kept := by simp only [s4]; apply foldl_kept; intro s d; split <;> simp
  simp [s5, e4, e3, e1]
@[simp] theorem tileResetNow_ok (s : State) (t : Nat)
    {qq : List Instr} (hh : MemOk qq s.kept) : MemOk qq (tileResetNow s t).kept := by
  simp +contextual (maxDischargeDepth := 9) [tileResetNow, hh]
@[simp] theorem setTileReset_ok (s : State) (by_ : Caller) (t : Nat)
    {qq : List Instr} (hh : MemOk qq s.kept) : MemOk qq (setTileReset s by_ t).s.kept := by
  simp +contextual (maxDischargeDepth := 9) [setTileReset, hh]
theorem execTileReset_ok (by_ : Caller) (t : BitVec 8) (s : State)
    {qq : List Instr} (hh : MemOk qq s.kept) {nxt : State} (ee : (execTileReset by_ t s) = .next nxt) : MemOk qq nxt.kept := by
  unfold execTileReset at ee; rw [← next_inj ee]; simp +contextual (maxDischargeDepth := 9) [hh]
@[simp] theorem setDataPathReset_ok (s : State) (by_ : Caller) (ms : BitVec 32) (failed : List (BitVec 32))
    {qq : List Instr} (hh : MemOk qq s.kept) : MemOk qq (setDataPathReset s by_ ms failed).s.kept := by
  simp +contextual (maxDischargeDepth := 9) [setDataPathReset, hh]
theorem execDataPathReset_ok (by_ : Caller) (durationMs : BitVec 32) (failedChannels : List (BitVec 32)) (s : State)
    {qq : List Instr} (hh : MemOk qq s.kept) {nxt : State} (ee : (execDataPathReset by_ durationMs failedChannels s) = .next
        nxt) : MemOk qq nxt.kept := by
  unfold execDataPathReset at ee; rw [← next_inj ee]; simp +contextual (maxDischargeDepth := 9) [hh]
@[simp] theorem onceAttest_ok (s : State) (m : Msg) (f : State → State)
    {qq : List Instr} (hh : MemOk qq s.kept) (h : ∀ s, MemOk qq s.kept → MemOk qq (f s).kept) : MemOk qq (onceAttest s m
        f).kept := by
  unfold onceAttest; (repeat' split) <;> simp [hh, h]
@[simp] theorem revokeRemote_ok (s : State) (p : Nat)
    {qq : List Instr} (hh : MemOk qq s.kept) : MemOk qq (revokeRemote s p).kept := by
  simp +contextual (maxDischargeDepth := 9) [revokeRemote, hh]
@[simp] theorem acceptFinish_ok (s : State) (p : Nat) (payload : List Byte) (m : Option Msg)
    {qq : List Instr} (hh : MemOk qq s.kept) : MemOk qq (acceptFinish s p payload m).kept := by
  simp +contextual (maxDischargeDepth := 9) [acceptFinish, hh]
@[simp] theorem atFinishNow_ok (s : State) (m : Msg)
    {qq : List Instr} (hh : MemOk qq s.kept) : MemOk qq (atFinishNow s m).kept := by
  simp +contextual (maxDischargeDepth := 9) [atFinishNow, hh]
@[simp] theorem attestNow_ok (s : State) (m : Msg)
    {qq : List Instr} (hh : MemOk qq s.kept) : MemOk qq (attestNow s m).kept := by
  unfold attestNow; (repeat' split) <;> simp +contextual (maxDischargeDepth := 9) [hh]
@[simp] theorem attestMsg_ok (s : State) (m : Msg)
    {qq : List Instr} (hh : MemOk qq s.kept) : MemOk qq (attestMsg s m).kept := by
  simp +contextual (maxDischargeDepth := 9) [attestMsg, hh]
theorem execAtReq_ok (m : Msg) (s : State)
    {qq : List Instr} (hh : MemOk qq s.kept) {nxt : State} (ee : (execAtReq m s) = .next nxt) : MemOk qq nxt.kept := by
  unfold execAtReq at ee; rw [← next_inj ee]; simp +contextual (maxDischargeDepth := 9) [hh]
theorem execAtFinish_ok (m : Msg) (s : State)
    {qq : List Instr} (hh : MemOk qq s.kept) {nxt : State} (ee : (execAtFinish m s) = .next nxt) : MemOk qq nxt.kept := by
  unfold execAtFinish at ee; rw [← next_inj ee]; simp +contextual (maxDischargeDepth := 9) [hh]
@[simp] theorem setAttFinish_ok (s : State) (by_ : Caller) (payload : List Byte)
    {qq : List Instr} (hh : MemOk qq s.kept) : MemOk qq (setAttFinish s by_ payload).s.kept := by
  unfold setAttFinish; (repeat' split) <;> simp +contextual (maxDischargeDepth := 9) [hh]
theorem execAttFinish_ok (by_ : Caller) (payload : List Byte) (s : State)
    {qq : List Instr} (hh : MemOk qq s.kept) {nxt : State} (ee : (execAttFinish by_ payload s) = .next nxt) : MemOk qq nxt.kept
        := by
  unfold execAttFinish at ee; rw [← next_inj ee]; simp +contextual (maxDischargeDepth := 9) [hh]
@[simp] theorem afterScrub_ok (s : State) (i : Nat) (status : BitVec 8)
    {qq : List Instr} (hh : MemOk qq s.kept) : MemOk qq (afterScrub s i status).kept := by
  unfold afterScrub; dsimp only; (repeat' split) <;> simp +contextual (maxDischargeDepth := 9) [hh]
theorem execFolioScrubDone_ok (i : BitVec 16) (status : BitVec 8) (s : State)
    {qq : List Instr} (hh : MemOk qq s.kept) {nxt : State} (ee : (execFolioScrubDone i status s) = .next nxt) : MemOk qq
        nxt.kept := by
  unfold execFolioScrubDone at ee; rw [← next_inj ee]; simp +contextual (maxDischargeDepth := 9) [hh]
@[simp] theorem declareDead_ok (s : State) (w : BitVec 32)
    {qq : List Instr} (hh : MemOk qq s.kept) : MemOk qq (declareDead s w).kept := by
  simp +contextual (maxDischargeDepth := 9) [declareDead, hh]
theorem execPeerSilenceTimeout_ok (f : Fid) (s : State)
    {qq : List Instr} (hh : MemOk qq s.kept) {nxt : State} (ee : (execPeerSilenceTimeout f s) = .next nxt) : MemOk qq nxt.kept
        := by
  unfold execPeerSilenceTimeout at ee; rw [← next_inj ee]; simp +contextual (maxDischargeDepth := 9) [hh]
theorem execHbWatchExpire_ok (w : BitVec 32) (s : State)
    {qq : List Instr} (hh : MemOk qq s.kept) {nxt : State} (ee : (execHbWatchExpire w s) = .next nxt) : MemOk qq nxt.kept := by
  unfold execHbWatchExpire at ee; rw [← next_inj ee]; simp +contextual (maxDischargeDepth := 9) [hh]
@[simp] theorem fenceActs_ok (s : State) (w : BitVec 32)
    {qq : List Instr} (hh : MemOk qq s.kept) : MemOk qq (fenceActs s w).kept := by
  simp +contextual (maxDischargeDepth := 9) [fenceActs, hh]
@[simp] theorem fenceEffect_ok (s : State) (w : BitVec 128)
    {qq : List Instr} (hh : MemOk qq s.kept) : MemOk qq (fenceEffect s w).kept := by
  simp +contextual (maxDischargeDepth := 9) [fenceEffect, hh]
@[simp] theorem fenceRecord_ok (s : State) (w : BitVec 128)
    {qq : List Instr} (hh : MemOk qq s.kept) : MemOk qq (fenceRecord s w).2.kept := by
  unfold fenceRecord; dsimp only; (repeat' split) <;> simp +contextual (maxDischargeDepth := 9) [hh]
@[simp] theorem fenceNow_ok (s : State) (m : Msg)
    {qq : List Instr} (hh : MemOk qq s.kept) : MemOk qq (fenceNow s m).kept := by
  simp +contextual (maxDischargeDepth := 9) [fenceNow, hh]
theorem execFence_ok (m : Msg) (s : State)
    {qq : List Instr} (hh : MemOk qq s.kept) {nxt : State} (ee : (execFence m s) = .next nxt) : MemOk qq nxt.kept := by
  unfold execFence at ee; rw [← next_inj ee]; simp +contextual (maxDischargeDepth := 9) [hh]
@[simp] theorem setFenceWrite_ok (s : State) (by_ : Caller) (recs : List (BitVec 128))
    {qq : List Instr} (hh : MemOk qq s.kept) : MemOk qq (setFenceWrite s by_ recs).s.kept := by
  simp +contextual (maxDischargeDepth := 9) [setFenceWrite, hh]
theorem execFenceWrite_ok (by_ : Caller) (recs : List (BitVec 128)) (s : State)
    {qq : List Instr} (hh : MemOk qq s.kept) {nxt : State} (ee : (execFenceWrite by_ recs s) = .next nxt) : MemOk qq nxt.kept
        := by
  unfold execFenceWrite at ee; rw [← next_inj ee]; simp +contextual (maxDischargeDepth := 9) [hh]
@[simp] theorem triggerNow_ok (s : State) (m : Msg)
    {qq : List Instr} (hh : MemOk qq s.kept) : MemOk qq (triggerNow s m).kept := by
  unfold triggerNow; dsimp only; (repeat' split) <;> simp +contextual (maxDischargeDepth := 9) [hh]
theorem execTrigger_ok (m : Msg) (s : State)
    {qq : List Instr} (hh : MemOk qq s.kept) {nxt : State} (ee : (execTrigger m s) = .next nxt) : MemOk qq nxt.kept := by
  unfold execTrigger at ee; rw [← next_inj ee]; simp +contextual (maxDischargeDepth := 9) [hh]
@[simp] theorem ownCompletion_ok (s : State) (k : ReqKey) (st cflg : BitVec 8) (cdat : BitVec 16) (data : List Byte)
    {qq : List Instr} (hh : MemOk qq s.kept) : MemOk qq (ownCompletion s k st cflg cdat data).kept := by
  unfold ownCompletion; (repeat' split) <;> simp +contextual (maxDischargeDepth := 9) [hh]
@[simp] theorem completionHere_ok (s : State) (h : Held)
    {qq : List Instr} (hh : MemOk qq s.kept) : MemOk qq (completionHere s h).kept := by
  unfold completionHere; dsimp only; split
  · split <;> simp [hh]
  · split
    · rename_i e; rw [assemble_partial_kept _ _ _ _ e]; exact hh
    · rename_i e; simp [assemble_malformed_kept _ _ _ _ e, hh]
    · rename_i e; apply ownCompletion_ok; rw [assemble_whole_kept _ _ _ _ e]; exact hh
@[simp] theorem routeCompletion_ok (s : State) (ing : Nat) (h : Held)
    {qq : List Instr} (hh : MemOk qq s.kept) : MemOk qq (routeCompletion s ing h).kept := by
  unfold routeCompletion; dsimp only; (repeat' split) <;> simp +contextual (maxDischargeDepth := 9) [hh]
@[simp] theorem completionArrive_ok (s : State) (ing : Nat) (h : Held)
    {qq : List Instr} (hh : MemOk qq s.kept) : MemOk qq (completionArrive s ing h).kept := by
  unfold completionArrive; (repeat' split) <;> simp +contextual (maxDischargeDepth := 9) [hh]
@[simp] theorem agentLost_ok (s : State) (h : Hdr)
    {qq : List Instr} (hh : MemOk qq s.kept) : MemOk qq (agentLost s h).kept := by
  simp +contextual (maxDischargeDepth := 9) [agentLost, hh]
@[simp] theorem routePacket_ok (s : State) (ing : Nat) (h : Held)
    {qq : List Instr} (hh : MemOk qq s.kept) : MemOk qq (routePacket s ing h).kept := by
  unfold routePacket; dsimp only; (repeat' split) <;> simp +contextual (maxDischargeDepth := 9) [hh]
theorem requestArrive_ok (s : State) (ing : Nat)
    (h : Held) {t : State} {qq : List Instr} (hh : MemOk qq s.kept) (e : requestArrive s ing h = some t) : MemOk qq t.kept := by
  unfold requestArrive at e; dsimp only at e
  split at e
  · injection e with e; rw [← e]; simp [hh]
  · split at e
    · split at e
      · injection e with e; rw [← e]; simp [hh]
      · cases e
    · split at e
      · rename_i h1; injection e with e; rw [← e]; simp [acceptRequest_kept _ _ _ _ _ (Or.inl h1), hh]
      · rename_i h1; injection e with e; rw [← e]; simp [acceptRequest_kept _ _ _ _ _ (Or.inr h1), hh]
      · split at e
        · injection e with e; rw [← e]; simp [hh]
        · cases e
theorem decidePacket_ok (s : State) (ing : Nat) (h : Held)
    {qq : List Instr} (hh : MemOk qq s.kept) {t : State} (e : decidePacket s ing h = some t) : MemOk qq t.kept := by
  unfold decidePacket at e; dsimp only at e
  split at e
  · cases e
  · split at e
    · injection e with e; subst e; simp [hh]
    · split at e
      · rename_i h1; injection e with e; subst e; rw [ingressReject_kept _ _ _ h1]; exact hh
      · split at e
        · injection e with e; subst e; simp [hh]
        · split at e
          · injection e with e; subst e; simp [hh]
          · exact requestArrive_ok _ _ _ hh e
@[simp] theorem decideFirst_ok (ing : Nat) (s : State) (hs : List Held) (b : List Nat)
    {qq : List Instr} (hh : MemOk qq s.kept) : MemOk qq (decideFirst ing s hs b).kept := by
  induction hs generalizing s b with
  | nil => exact hh
  | cons h hs ih =>
    unfold decideFirst
    split
    · exact ih _ _ hh
    · split
      · rename_i h1; exact decidePacket_ok _ _ _ (by simp [hh]) h1
      · apply ih; split <;> simp [hh]
theorem execForwardingDecision_ok (ingress : BitVec 8) (s : State)
    {qq : List Instr} (hh : MemOk qq s.kept) {nxt : State} (ee : (execForwardingDecision ingress s) = .next nxt) : MemOk qq
        nxt.kept := by
  unfold execForwardingDecision at ee; rw [← next_inj ee]; simp +contextual (maxDischargeDepth := 9) [hh]
theorem execCompletion_ok (ingress : BitVec 8) (p : Packet) (s : State)
    {qq : List Instr} (hh : MemOk qq s.kept) {nxt : State} (ee : (execCompletion ingress p s) = .next nxt) : MemOk qq nxt.kept
        := by
  unfold execCompletion at ee; injection ee with ee; subst ee; dsimp only
  split
  · exact hh
  · split
    · rename_i e
      rw [updateAllXoff_kept]
      split at e
      · exact decidePacket_ok _ _ _ (by simp [hh]) e
      · exact decidePacket_ok _ _ _ (by simp [hh]) e
    · exact hh
@[simp] theorem setCgInput_ok (s : State) (by_ : Caller) (key : BitVec 64) (cw : Vector (BitVec 32) 4) (bad : List (Fin 80 ×
    BitVec 128))
    {qq : List Instr} (hh : MemOk qq s.kept) : MemOk qq (setCgInput s by_ key cw bad).s.kept := by
  unfold setCgInput; dsimp only; (repeat' split) <;> simp +contextual (maxDischargeDepth := 9) [hh]
theorem execCgInput_ok (by_ : Caller) (key : BitVec 64) (cw : Vector (BitVec 32) 4) (bad : List (Fin 80 × BitVec 128)) (s :
    State)
    {qq : List Instr} (hh : MemOk qq s.kept) {nxt : State} (ee : (execCgInput by_ key cw bad s) = .next nxt) : MemOk qq
        nxt.kept := by
  unfold execCgInput at ee; rw [← next_inj ee]; simp +contextual (maxDischargeDepth := 9) [hh]
@[simp] theorem setResetLevel_ok (s : State) (c : Caller) (v : Nat)
    {qq : List Instr} (hh : MemOk qq s.kept) : MemOk qq (setResetLevel s c v).s.kept := by
  unfold setResetLevel; (repeat' split) <;> simp +contextual (maxDischargeDepth := 9) [hh]
@[simp] theorem writeDictionary_ok (s : State) (c : Caller) (r : ObjRow) (i k : Nat) (bs : List Byte)
    {qq : List Instr} (hh : MemOk qq s.kept) : MemOk qq (writeDictionary s c r i k bs).s.kept := by
  unfold writeDictionary; dsimp only; (repeat' split) <;> simp +contextual (maxDischargeDepth := 9) [hh]
@[simp] theorem writePartition_ok (s : State) (c : Caller) (r : ObjRow) (i k : Nat) (bs : List Byte)
    {qq : List Instr} (hh : MemOk qq s.kept) : MemOk qq (writePartition s c r i k bs).s.kept := by
  unfold writePartition; dsimp only; (repeat' split) <;> simp +contextual (maxDischargeDepth := 9) [hh]
@[simp] theorem writePorts_ok (s : State) (c : Caller) (r : ObjRow) (i k : Nat) (bs : List Byte)
    {qq : List Instr} (hh : MemOk qq s.kept) : MemOk qq (writePorts s c r i k bs).s.kept := by
  unfold writePorts; (repeat' split) <;> simp +contextual (maxDischargeDepth := 9) [hh]
@[simp] theorem writeMemory_ok (s : State) (c : Caller) (r : ObjRow) (i k : Nat) (bs : List Byte)
    {qq : List Instr} (hh : MemOk qq s.kept) : MemOk qq (writeMemory s c r i k bs).s.kept := by
  unfold writeMemory; dsimp only; (repeat' split) <;> simp +contextual (maxDischargeDepth := 9) [hh]
@[simp] theorem writeCompute_ok (s : State) (c : Caller) (r : ObjRow) (i k : Nat) (bs : List Byte)
    {qq : List Instr} (hh : MemOk qq s.kept) : MemOk qq (writeCompute s c r i k bs).s.kept := by
  unfold writeCompute; (repeat' split) <;> simp +contextual (maxDischargeDepth := 9) [hh]
@[simp] theorem writeFaults_ok (s : State) (c : Caller) (r : ObjRow) (i k : Nat) (bs : List Byte)
    {qq : List Instr} (hh : MemOk qq s.kept) : MemOk qq (writeFaults s c r i k bs).s.kept := by
  unfold writeFaults; (repeat' split) <;> simp +contextual (maxDischargeDepth := 9) [hh]
@[simp] theorem applyWrite_ok (s : State) (c : Caller) (r : ObjRow) (i k : Nat) (bs : List Byte)
    {qq : List Instr} (hh : MemOk qq s.kept) : MemOk qq (applyWrite s c r i k bs).s.kept := by
  unfold applyWrite; (repeat' split) <;> simp +contextual (maxDischargeDepth := 9) [hh]
@[simp] theorem writeValue_ok (s : State) (c : Caller) (index sub : Nat) (bs : List Byte)
    {qq : List Instr} (hh : MemOk qq s.kept) : MemOk qq (writeValue s c index sub bs).s.kept := by
  unfold writeValue; dsimp only; (repeat' split) <;> simp +contextual (maxDischargeDepth := 9) [hh]
@[simp] theorem performWrite_ok (s : State) (v : Session) (xid index : BitVec 16) (sub : BitVec 8) (bs : List Byte)
    {qq : List Instr} (hh : MemOk qq s.kept) : MemOk qq (performWrite s v xid index sub bs).kept := by
  unfold performWrite; dsimp only; (repeat' split) <;> simp +contextual (maxDischargeDepth := 9) [hh]
@[simp] theorem doWrite_ok (s : State) (v : Session) (m : DMsg)
    {qq : List Instr} (hh : MemOk qq s.kept) : MemOk qq (doWrite s v m).kept := by
  simp +contextual (maxDischargeDepth := 9) [doWrite, hh]
@[simp] theorem doSegment_ok (s : State) (v : Session) (m : DMsg)
    {qq : List Instr} (hh : MemOk qq s.kept) : MemOk qq (doSegment s v m).kept := by
  unfold doSegment; (repeat' split) <;> simp +contextual (maxDischargeDepth := 9) [hh]
@[simp] theorem request_ok (s : State) (v : Session) (m : DMsg) (t : State)
    {qq : List Instr} (hh : MemOk qq s.kept) (h : MemOk qq t.kept) : MemOk qq (request s v m t).kept := by
  unfold request; (repeat' split) <;> simp [h, hh]
@[simp] theorem inSession_ok (s : State) (v : Session) (m : DMsg)
    {qq : List Instr} (hh : MemOk qq s.kept) : MemOk qq (inSession s v m).kept := by
  unfold inSession; (repeat' split) <;> simp +contextual (maxDischargeDepth := 9) [hh]
@[simp] theorem protectedMsg_ok (s : State) (v : Session) (m : DMsg)
    {qq : List Instr} (hh : MemOk qq s.kept) : MemOk qq (protectedMsg s v m).2.kept := by
  unfold protectedMsg; (repeat' split) <;> simp +contextual (maxDischargeDepth := 9) [hh]
@[simp] theorem forSession_ok (s : State) (a : TAddr) (m : DMsg)
    {qq : List Instr} (hh : MemOk qq s.kept) : MemOk qq (forSession s a m).2.kept := by
  unfold forSession; (repeat' split) <;> simp +contextual (maxDischargeDepth := 9) [hh]
@[simp] theorem receive_ok (s : State) (a : TAddr) (m : DMsg)
    {qq : List Instr} (hh : MemOk qq s.kept) : MemOk qq (receive s a m).2.kept := by
  unfold receive; (repeat' split) <;> simp +contextual (maxDischargeDepth := 9) [hh]
@[simp] theorem takeMsg_ok (s : State) (a : TAddr) (m : DMsg)
    {qq : List Instr} (hh : MemOk qq s.kept) : MemOk qq (takeMsg s a m).kept := by
  unfold takeMsg; (repeat' split) <;> simp +contextual (maxDischargeDepth := 9) [hh]
theorem execSessOpen_ok (a : TAddr) (m : DMsg) (s : State)
    {qq : List Instr} (hh : MemOk qq s.kept) {nxt : State} (ee : (execSessOpen a m s) = .next nxt) : MemOk qq nxt.kept := by
  unfold execSessOpen at ee; rw [← next_inj ee]; simp +contextual (maxDischargeDepth := 9) [hh]
theorem execSessAuth_ok (a : TAddr) (m : DMsg) (s : State)
    {qq : List Instr} (hh : MemOk qq s.kept) {nxt : State} (ee : (execSessAuth a m s) = .next nxt) : MemOk qq nxt.kept := by
  unfold execSessAuth at ee; rw [← next_inj ee]; simp +contextual (maxDischargeDepth := 9) [hh]
theorem execSessClose_ok (a : TAddr) (m : DMsg) (s : State)
    {qq : List Instr} (hh : MemOk qq s.kept) {nxt : State} (ee : (execSessClose a m s) = .next nxt) : MemOk qq nxt.kept := by
  unfold execSessClose at ee; rw [← next_inj ee]; simp +contextual (maxDischargeDepth := 9) [hh]
theorem execRead_ok (a : TAddr) (m : DMsg) (s : State)
    {qq : List Instr} (hh : MemOk qq s.kept) {nxt : State} (ee : (execRead a m s) = .next nxt) : MemOk qq nxt.kept := by
  unfold execRead at ee; rw [← next_inj ee]; simp +contextual (maxDischargeDepth := 9) [hh]
theorem execWrite_ok (a : TAddr) (m : DMsg) (s : State)
    {qq : List Instr} (hh : MemOk qq s.kept) {nxt : State} (ee : (execWrite a m s) = .next nxt) : MemOk qq nxt.kept := by
  unfold execWrite at ee; rw [← next_inj ee]; simp +contextual (maxDischargeDepth := 9) [hh]
theorem execSegment_ok (a : TAddr) (m : DMsg) (s : State)
    {qq : List Instr} (hh : MemOk qq s.kept) {nxt : State} (ee : (execSegment a m s) = .next nxt) : MemOk qq nxt.kept := by
  unfold execSegment at ee; rw [← next_inj ee]; simp +contextual (maxDischargeDepth := 9) [hh]
theorem execSegAck_ok (a : TAddr) (m : DMsg) (s : State)
    {qq : List Instr} (hh : MemOk qq s.kept) {nxt : State} (ee : (execSegAck a m s) = .next nxt) : MemOk qq nxt.kept := by
  unfold execSegAck at ee; rw [← next_inj ee]; simp +contextual (maxDischargeDepth := 9) [hh]
theorem execDictAbort_ok (a : TAddr) (m : DMsg) (s : State)
    {qq : List Instr} (hh : MemOk qq s.kept) {nxt : State} (ee : (execDictAbort a m s) = .next nxt) : MemOk qq nxt.kept := by
  unfold execDictAbort at ee; rw [← next_inj ee]; simp +contextual (maxDischargeDepth := 9) [hh]
theorem execKeepalive_ok (a : TAddr) (m : DMsg) (s : State)
    {qq : List Instr} (hh : MemOk qq s.kept) {nxt : State} (ee : (execKeepalive a m s) = .next nxt) : MemOk qq nxt.kept := by
  unfold execKeepalive at ee; rw [← next_inj ee]; simp +contextual (maxDischargeDepth := 9) [hh]
theorem execObjectWrite_ok (by_ : Caller) (index : BitVec 16) (sub : BitVec 8) (value : List Byte) (s : State)
    {qq : List Instr} (hh : MemOk qq s.kept) {nxt : State} (ee : (execObjectWrite by_ index sub value s) = .next nxt) : MemOk
        qq nxt.kept := by
  unfold execObjectWrite at ee; rw [← next_inj ee]; simp +contextual (maxDischargeDepth := 9) [hh]
@[simp] theorem frameBody_ok (s : State) (h : HostPort) (b : FrameBody)
    {qq : List Instr} (hh : MemOk qq s.kept) : MemOk qq (frameBody s h b).kept := by
  unfold frameBody; (repeat' split) <;> simp +contextual (maxDischargeDepth := 9) [hh]
@[simp] theorem clearFrame_ok (s : State) (h : HostPort) (f : HostFrame)
    {qq : List Instr} (hh : MemOk qq s.kept) : MemOk qq (clearFrame s h f).kept := by
  simp +contextual (maxDischargeDepth := 9) [clearFrame, hh]
@[simp] theorem hostFrame_ok (s : State) (h : HostPort) (f : HostFrame)
    {qq : List Instr} (hh : MemOk qq s.kept) : MemOk qq (hostFrame s h f).kept := by
  unfold hostFrame; split
  · exact hh
  · split
    · split
      · split <;> simp [hh]
      · split
        · rename_i e; apply clearFrame_ok; rw [macAccept_kept _ _ _ e]; exact hh
        · simp [hh]
    · split <;> simp [hh]
theorem execHostFrame_ok (h : HostPort) (f : HostFrame) (s : State)
    {qq : List Instr} (hh : MemOk qq s.kept) {nxt : State} (ee : (execHostFrame h f s) = .next nxt) : MemOk qq nxt.kept := by
  unfold execHostFrame at ee; rw [← next_inj ee]; simp +contextual (maxDischargeDepth := 9) [hh]
@[simp] theorem ringConsume_ok (s : State) (f : RingFrame)
    {qq : List Instr} (hh : MemOk qq s.kept) : MemOk qq (ringConsume s f).kept := by
  simp +contextual (maxDischargeDepth := 9) [ringConsume, hh]
@[simp] theorem ringFrame_ok (s : State) (portB : Bool) (f : RingFrame)
    {qq : List Instr} (hh : MemOk qq s.kept) : MemOk qq (ringFrame s portB f).kept := by
  simp +contextual (maxDischargeDepth := 9) [ringFrame, hh]
theorem execRingFrame_ok (portB : Bool) (f : RingFrame) (s : State)
    {qq : List Instr} (hh : MemOk qq s.kept) {nxt : State} (ee : (execRingFrame portB f s) = .next nxt) : MemOk qq nxt.kept :=
        by
  unfold execRingFrame at ee; rw [← next_inj ee]; simp +contextual (maxDischargeDepth := 9) [hh]
@[simp] theorem tick_ok (s : State)
    {qq : List Instr} (hh : MemOk qq s.kept) : MemOk qq (tick s).kept := by
  unfold tick; (repeat' split) <;> simp +contextual (maxDischargeDepth := 9) [hh]
end Sys2Proof.Machine
end

