-- ==== Sys2Proof/Laws/Ports.lean ====
section
/-! SUPPORT. What sending a link item, recomputing XOFF and taking a port down can change of the ports; and that the
operations on signs of life, ligature records, outputs, the Blotter and the waiting memory requests leave the ports, the
objects and the links of the host ports as they were: one lemma for each operation, in the order of the model. -/

set_option linter.unusedSimpArgs false
set_option linter.unusedVariables false

set_option Elab.async false

namespace Sys2Proof.Machine

/-- The ports, the objects and the links of the host ports: what these lemmas follow through an operation. -/
def State.io (s : State) : Sparse PortSt × Sparse Nat × Sparse HostSt := (s.ports, s.obj, s.hostSt)
@[simp] theorem io_mk x0 x1 x2 x3 x4 x5 x6 x7 x8 x9 x10 x11 x12 x13 x14 x15 x16 x17 x18 x19 x20 x21 x22 x23 x24 x25 x26 x27 x28
    x29 x30 x31 x32 x33 x34 x35 x36 x37 x38 x39 x40 x41 x42 x43 x44 x45 x46 x47 x48 x49 x50 x51 x52 x53 x54 x55 x56 x57 x58 x59
    x60 x61 x62 x63 x64 x65 x66 x67 x68 x69 x70 x71 x72 x73 x74 x75 x76 x77 x78 x79 x80 x81 x82 x83 x84 x85 x86 x87 x88 :
(State.mk x0 x1 x2 x3 x4 x5 x6 x7 x8 x9 x10 x11 x12 x13 x14 x15 x16 x17 x18 x19 x20 x21 x22 x23 x24 x25 x26 x27 x28 x29 x30 x31
x32 x33 x34 x35 x36 x37 x38 x39 x40 x41 x42 x43 x44 x45 x46 x47 x48 x49 x50 x51 x52 x53 x54 x55 x56 x57 x58 x59 x60 x61 x62 x63
x64 x65 x66 x67 x68 x69 x70 x71 x72 x73 x74 x75 x76 x77 x78 x79 x80 x81 x82 x83 x84 x85 x86 x87 x88).io = (x11, x3, x84) := rfl
theorem io_of_noTraffic {a b : State} (h : a.noTraffic = b.noTraffic) : a.io = b.io :=
  have g : a.noTraffic.io = b.noTraffic.io := congrArg State.io h; g
@[simp] theorem io_fold (s : State) : (s.ports, s.obj, s.hostSt) = s.io := rfl
@[simp] theorem foldl_io {α : Type} (f : State → α → State)
    (h : ∀ s a, (f s a).io = s.io) (l : List α) (s : State) : (l.foldl f s).io = s.io := by
  induction l generalizing s with
  | nil => rfl
  | cons a l ih => simp [ih, h]
@[simp] theorem foldl2_io {α β : Type} (f : β × State → α → β × State)
    (h : ∀ x a, (f x a).2.io = x.2.io) (l : List α) (x : β × State) : (l.foldl f x).2.io = x.2.io := by
  induction l generalizing x with
  | nil => rfl
  | cons a l ih => simp [ih, h]
theorem foldl3_io {α β γ : Type} (f : β × State × γ → α → β × State × γ)
    (h : ∀ x a, (f x a).2.1.io = x.2.1.io) (l : List α) (x : β × State × γ) : (l.foldl f x).2.1.io = x.2.1.io := by
  induction l generalizing x with
  | nil => rfl
  | cons a l ih => simp [ih, h]
@[simp] theorem ite_io (c : Prop) [Decidable c] (a b : State) : (if c then a else b).io = if c then a.io else b.io := by
  split <;> rfl
@[simp] theorem State.setC_io (s : State) (k v : Nat) : (State.setC s k v).io = s.io := io_of_noTraffic (by simp)
@[simp] theorem State.bump_io (s : State) (k n : Nat) : (State.bump s k n).io = s.io := io_of_noTraffic (by simp)
@[simp] theorem State.setOut_io (s : State) (o : Nat) (v : OutSt) : (State.setOut s o v).io = s.io := by simp [State.setOut]
@[simp] theorem State.setDomain_io (s : State) (d : Nat) (v : Domain) : (State.setDomain s d v).io = s.io := by simp
    [State.setDomain]
@[simp] theorem State.setHrb_io (s : State) (h : Nat) (v : Hrb) : (State.setHrb s h v).io = s.io := io_of_noTraffic (by simp)
@[simp] theorem State.setInputQ_io (s : State) (i : Nat) (v : List Held) : (State.setInputQ s i v).io = s.io := io_of_noTraffic
    (by simp)
@[simp] theorem State.emit_io (s : State) (o : Out) : (State.emit s o).io = s.io := io_of_noTraffic (by simp)
@[simp] theorem State.nextSerial_io (s : State) : (State.nextSerial s).2.io = s.io := io_of_noTraffic (by simp)
@[simp] theorem State.firstIn_io (s : State) (span what unit : Nat) : (State.firstIn s span what unit).2.io = s.io :=
    io_of_noTraffic (by simp)
@[simp] theorem endSession_io (s : State) (sid : BitVec 16) : (endSession s sid).io = s.io := io_of_noTraffic (by simp)
@[simp] theorem State.setSession_io (s : State) (v : Session) : (State.setSession s v).io = s.io := io_of_noTraffic (by simp)
@[simp] theorem dictSend_io (s : State) (v : Session) (m : DMsg) : (dictSend s v m).io = s.io := io_of_noTraffic (by simp)
@[simp] theorem hrbAttention_io (s : State) (h : Nat) : (hrbAttention s h).io = s.io := io_of_noTraffic (by simp)
@[simp] theorem offer_io (e : Event) (s : State) (sid : BitVec 16) : (offer e s sid).io = s.io := io_of_noTraffic (by simp)
@[simp] theorem attend_io (before : Nat) (s : State) (h : Nat) : (attend before s h).io = s.io := io_of_noTraffic (by simp)
@[simp] theorem deliverEvent_io (s : State) (e : Event) (only : Session → Bool) : (deliverEvent s e only).io = s.io :=
    io_of_noTraffic (by simp)
@[simp] theorem logAppend_io (s : State) (e : Event) : (logAppend s e).io = s.io := io_of_noTraffic (by simp)
@[simp] theorem markPersist_io (s : State) (logno : BitVec 32) : (markPersist s logno).2.io = s.io := io_of_noTraffic (by simp)
@[simp] theorem raiseOnce_io (s : State) (code epart : Nat) (items : List (Nat × Nat)) (only : Session → Bool) : (raiseOnce s
    code epart items only).2.io = s.io := io_of_noTraffic (by simp)
@[simp] theorem raiseTo_io (s : State) (code epart : Nat) (items : List (Nat × Nat)) (only : Session → Bool) : (raiseTo s code
    epart items only).io = s.io := io_of_noTraffic (by simp)
@[simp] theorem raise_io (s : State) (code epart : Nat) (items : List (Nat × Nat)) : (raise s code epart items).io = s.io :=
    io_of_noTraffic (by simp)
@[simp] theorem raiseLimited_io (s : State) (span unit code epart : Nat) (items : List (Nat × Nat)) : (raiseLimited s span unit
    code epart items).io = s.io := io_of_noTraffic (by simp)
@[simp] theorem enqueueIn_io (s : State) (ing : Nat) (kind : HeldKind) (ret : Option HostRet) (p : Packet) : (enqueueIn s ing
    kind ret p).io = s.io := io_of_noTraffic (by simp)
@[simp] theorem originate_io (s : State) (ing : Nat) (kind : HeldKind) (ps : List Packet) : (originate s ing kind ps).io = s.io
    := io_of_noTraffic (by simp)
@[simp] theorem noteStatus_io (s : State) (tile : Nat) (st : BitVec 8) : (noteStatus s tile st).io = s.io := io_of_noTraffic
    (by simp)
@[simp] theorem complete_io (s : State) (ing : Nat) (h : Hdr) (st cflg : BitVec 8) (cdat : BitVec 16) : (complete s ing h st
    cflg cdat).io = s.io := io_of_noTraffic (by simp)
@[simp] theorem completeData_io (s : State) (ing : Nat) (h : Hdr) (cflg : BitVec 8) (cdat : BitVec 16) (body : List Byte) :
    (completeData s ing h cflg cdat body).io = s.io := io_of_noTraffic (by simp)
@[simp] theorem setTag_io (s : State) (e : TagEntry) : (setTag s e).io = s.io := by simp [setTag]
@[simp] theorem dropTag_io (s : State) (k : ReqKey) : (dropTag s k).io = s.io := by simp [dropTag]
@[simp] theorem setJournal_io (s : State) (j : JRec) : (setJournal s j).io = s.io := by simp [setJournal]
@[simp] theorem dropJournal_io (s : State) (k : ReqKey) : (dropJournal s k).io = s.io := by simp [dropJournal]
@[simp] theorem releaseRequest_io (s : State) (k : ReqKey) : (releaseRequest s k).io = s.io := by simp [releaseRequest]
@[simp] theorem finishRequest_io (s : State) (h : Hdr) (st : BitVec 8) (cdat : BitVec 16) (ret0 : Option HostRet := none) :
    (finishRequest s h st cdat ret0).io = s.io := by simp [finishRequest]
@[simp] theorem replayHeld_io (s : State) (j : JRec) : (replayHeld s j).io = s.io := by
  unfold replayHeld; dsimp only; (repeat' split) <;> simp
@[simp] theorem replayTrigger_io (s : State) (k : ReqKey) : (replayTrigger s k).io = s.io := by
  unfold replayTrigger; (repeat' split) <;> simp
@[simp] theorem setOp_io (s : State) (r : OpRec) : (setOp s r).io = s.io := by simp [setOp]
@[simp] theorem sendOp_io (s : State) (ing : Nat) (h : Hdr) (r : OpRec) : (sendOp s ing h r).io = s.io := by simp [sendOp]
@[simp] theorem finishOnce_io (s : State) (ing : Nat) (h : Hdr) (st cflg : BitVec 8) (cdat : BitVec 16) (res : Option (BitVec
    64)) : (finishOnce s ing h st cflg cdat res).io = s.io := by
  unfold finishOnce; (repeat' split) <;> simp
@[simp] theorem Ans.ok_io (s : State) : (Ans.ok s).s.io = s.io := by simp [Ans.ok]
@[simp] theorem storeWord_io (s : State) (a : Nat) (bs : List Byte) (w : Nat) : (storeWord s a bs w).2.io = s.io := by
  unfold storeWord; dsimp only; (repeat' split) <;> simp
@[simp] theorem storePhys_io (s : State) (a : Nat) (bs : List Byte) : (storePhys s a bs).2.io = s.io := by simp [storePhys]
@[simp] theorem countStall_io (s : State) (p t c : Nat) : (countStall s p t c).io = s.io := by simp [countStall]
@[simp] theorem finishMem_io (s : State) (m : Msg) (counted : Bool) (r : MemRes) : (finishMem s m counted r).io = s.io := by
  unfold finishMem; (repeat' split) <;> simp
@[simp] theorem raiseUncorr_io (s : State) (p a : Nat) : (raiseUncorr s p a).io = s.io := by simp [raiseUncorr]
@[simp] theorem ownHdr_io (s : State) (op : BitVec 8) (dst : Fid) (part : BitVec 5) (addr aux : Nat) : (ownHdr s op dst part
    addr aux).2.io = s.io := by simp [ownHdr]
@[simp] theorem sendOwn_io (s : State) (q : Nat) (op : BitVec 8) (dst : Fid) (part : BitVec 5) (addr aux : Nat) (body : List
    Byte) : (sendOwn s q op dst part addr aux body).2.io = s.io := by simp [sendOwn]
@[simp] theorem readAt_io (s : State) (ov : Fwd) (q : Nat) (p : BitVec 5) (g : Seg) : (readAt s ov q p g).2.io = s.io := by
  unfold readAt; (repeat' split) <;> simp
@[simp] theorem writeAt_io (s : State) (q : Nat) (p : BitVec 5) (g : Seg) (bs : List Byte) : (writeAt s q p g bs).2.io = s.io
    := by
  unfold writeAt; dsimp only; (repeat' split) <;> simp
@[simp] theorem readSub_io (s : State) (ov : Fwd) (m : Msg) (g : Seg) : (readSub s ov m g).2.io = s.io := by simp [readSub]
@[simp] theorem writeSub_io (s : State) (m : Msg) (g : Seg) (bs : List Byte) : (writeSub s m g bs).2.io = s.io := by simp
    [writeSub]
@[simp] theorem forwardSub_io (s : State) (m : Msg) (g : Seg) (fid : Fid) (ra aux : Nat) (body : List Byte) : (forwardSub s m g
    fid ra aux body).2.io = s.io := by simp [forwardSub]
@[simp] theorem overRuns_io (f : State → Nat → Seg → Sub × State) (s : State) (gs : List Seg)
    (h : ∀ s n g, (f s n g).2.io = s.io) : (overRuns f s gs).2.io = s.io := by
  unfold overRuns; rw [foldl3_io]; intro x a; simp [h]
@[simp] theorem readSubs_io (s : State) (ov : Fwd) (m : Msg) (gs : List Seg) : (readSubs s ov m gs).2.io = s.io := by simp
    [readSubs]
@[simp] theorem writeSubs_io (s : State) (m : Msg) (gs : List Seg) (bs : List Byte) : (writeSubs s m gs bs).2.io = s.io := by
    simp [writeSubs]
@[simp] theorem noteReserve_io (s : State) (q before after : Nat) : (noteReserve s q before after).io = s.io := by simp
    [noteReserve]
@[simp] theorem chargeEsc_io (s : State) (q : Nat) (seq : Option Nat) (n : Nat) : (chargeEsc s q seq n).2.io = s.io := by
  unfold chargeEsc; (repeat' split) <;> simp
@[simp] theorem countVec_io (s : State) (v : VecOut) : (countVec s v).io = s.io := by simp [countVec]
@[simp] theorem countTrunc_io (s : State) (q n : Nat) : (countTrunc s q n).io = s.io := by simp [countTrunc]
@[simp] theorem mrCompute_io (s : State) (m : Msg) (o : MrOp) (memBytes : List Byte) : (mrCompute s m o memBytes).2.2.io = s.io
    := by simp [mrCompute]
@[simp] theorem countSlow_io (s : State) (r : Reissue) : (countSlow s r).2.io = s.io := by
  unfold countSlow; (repeat' split) <;> simp
@[simp] theorem countNear_io (s : State) (m : Msg) : (countNear s m).io = s.io := by simp [countNear]
@[simp] theorem endReissue_io (s : State) (r : Reissue) : (endReissue s r).io = s.io := by simp [endReissue]
@[simp] theorem writeStage_io (s : State) (j : MemReq) (ws : List Seg) : (writeStage s j ws).2.io = s.io := by
  unfold writeStage; (repeat' split) <;> simp
@[simp] theorem atomicHere_io (s : State) (ov : Fwd) (m : Msg) (g : Seg) (a : Nat) : (atomicHere s ov m g a).2.io = s.io := by
  unfold atomicHere; (repeat' split) <;> simp
@[simp] theorem atomicSub_io (s : State) (ov : Fwd) (m : Msg) (g : Seg) : (atomicSub s ov m g).2.io = s.io := by
  unfold atomicSub; (repeat' split) <;> simp
@[simp] theorem fillSub_io (s : State) (m : Msg) (off : Nat) (g : Seg) : (fillSub s m off g).2.io = s.io := by
  unfold fillSub; (repeat' split) <;> simp
@[simp] theorem startParts_io (s : State) (ov : Fwd) (j : MemReq) (rs ws : List Seg) : (startParts s ov j rs ws).2.io = s.io :=
    by
  unfold startParts; dsimp only; (repeat' split) <;> simp
@[simp] theorem perform_io (go : State → Reissue → State) (hg : ∀ s r, (go s r).io = s.io) (s : State) (ov : Fwd) (j : MemReq)
    (rs ws : List Seg) : (perform go s ov j rs ws).io = s.io := by
  unfold perform; dsimp only; (repeat' split) <;> simp [hg]
@[simp] theorem setDir_io (s : State) (line : Nat) (e : DirEntry) : (setDir s line e).io = s.io := by simp [setDir]
@[simp] theorem sendSnoop_io (s : State) (d a skind : Nat) (req : Hdr) (addr : Addr) (fwd : Fid) : (sendSnoop s d a skind req
    addr fwd).io = s.io := by simp [sendSnoop]
@[simp] theorem sendData_io (s : State) (d a grant : Nat) (place : Bool) (req : Hdr) (addr : Addr) (line : List Byte) :
    (sendData s d a grant place req addr line).io = s.io := by simp [sendData]
@[simp] theorem sendSnoops_io (s : State) (t : Txn) (skind : Nat) (fwd : Fid) (inv : List Nat) : (sendSnoops s t skind fwd
    inv).io = s.io := by
  unfold sendSnoops; (repeat' split) <;> simp
@[simp] theorem completeC1_io (s : State) (t : Txn) (st : BitVec 8) (grant : Nat) : (completeC1 s t st grant).io = s.io := by
    simp [completeC1]
@[simp] theorem grantFromMemory_io (s : State) (t : Txn) (grant : Nat) (e : DirEntry) : (grantFromMemory s t grant e).io = s.io
    := by
  unfold grantFromMemory; (repeat' split) <;> simp
@[simp] theorem grantForward_io (s : State) (t : Txn) (grant : Nat) (e : DirEntry) : (grantForward s t grant e).io = s.io := by
    simp [grantForward]
@[simp] theorem placeLine_io (s : State) (t : Txn) (target : Nat) : (placeLine s t target).io = s.io := by
  unfold placeLine; (repeat' split) <;> simp
@[simp] theorem performHome_io (s : State) (t : Txn) : (performHome s t).io = s.io := by
  unfold performHome; dsimp only; (repeat' split) <;> simp
@[simp] theorem endC1_io (s : State) (t : Txn) (a : Nat) : (endC1 s t a).io = s.io := by
  unfold endC1; (repeat' split) <;> simp
@[simp] theorem settleC1_io (s : State) (t : Txn) : (settleC1 s t).io = s.io := by
  unfold settleC1; (repeat' split) <;> simp
@[simp] theorem endSimple_io (s : State) (t : Txn) (a : Nat) : (endSimple s t a).io = s.io := by
  unfold endSimple; dsimp only; (repeat' split) <;> simp
@[simp] theorem startC1_io (s : State) (m : Msg) (d : Part) (a line : Nat) (lineAddr : Addr) : (startC1 s m d a line
    lineAddr).io = s.io := by
  unfold startC1; dsimp only; (repeat' split) <;> simp
@[simp] theorem placeLines_io (s : State) (m : Msg) (ts : List Txn) : (placeLines s m ts).io = s.io := by simp [placeLines]
@[simp] theorem endGroup_io (go : State → Reissue → State) (hg : ∀ s r, (go s r).io = s.io) (s : State) (j : MemReq) (ts : List
    Txn) : (endGroup go s j ts).io = s.io := by
  unfold endGroup; dsimp only; rw [placeLines_io, perform_io _ hg, foldl_io]; intro s t; (repeat' split) <;> simp
@[simp] theorem openLine_io (j : MemReq) (s : State) (u : LineUse) : (openLine j s u).io = s.io := by simp [openLine]
@[simp] theorem settleGroup_io (go : State → Reissue → State) (hg : ∀ s r, (go s r).io = s.io) (s : State) (j : MemReq) :
    (settleGroup go s j).io = s.io := by
  unfold settleGroup; dsimp only; split <;> simp [hg]
@[simp] theorem runResolved_io (go : State → Reissue → State) (hg : ∀ s r, (go s r).io = s.io) (s : State) (j : MemReq) (rs ws
    : List Seg) : (runResolved go s j rs ws).io = s.io := by
  unfold runResolved; dsimp only; (repeat' split) <;> simp [hg]
@[simp] theorem waitPiece_io (s : State) (j : MemReq) (obj tier : Nat) : (waitPiece s j obj tier).io = s.io := by simp
    [waitPiece]
@[simp] theorem serveWith_io (go : State → Reissue → State) (hg : ∀ s r, (go s r).io = s.io) (s : State) (j : MemReq) :
    (serveWith go s j).io = s.io := by
  unfold serveWith; (repeat' split) <;> simp [hg]
@[simp] theorem advanceLast_io (s : State) (r : Reissue) : (advanceLast s r).io = s.io := by simp [advanceLast]
@[simp] theorem advance_io (s : State) (r : Reissue) : (advance s r).io = s.io := by
  unfold advance; (repeat' split) <;> simp
@[simp] theorem serveJob_io (s : State) (j : MemReq) : (serveJob s j).io = s.io := by simp [serveJob]
@[simp] theorem startWaiting_io (s : State) (w : CohReq) : (startWaiting s w).io = s.io := by
  unfold startWaiting; (repeat' split) <;> simp
@[simp] theorem wakeN_io (n : Nat) (s : State) : (wakeN n s).io = s.io := by
  induction n generalizing s with
  | zero => rfl
  | succ n ih => unfold wakeN; split <;> simp [ih]
@[simp] theorem wake_io (s : State) : (wake s).io = s.io := by simp [wake]
@[simp] theorem failHeld_io (s : State) (d : Nat) : (failHeld s d).io = s.io := by simp [failHeld]
@[simp] theorem holdDomain_io (s : State) (d cause agent : Nat) : (holdDomain s d cause agent).io = s.io := by simp [holdDomain]
@[simp] theorem ligDropBranch_io (s : State) (k : ReqKey) (p : Nat) : (ligDropBranch s k p).io = s.io := by simp [ligDropBranch]
@[simp] theorem countRed_io (s : State) (o : Nat) (c : Colour) (r : RedResult) : (countRed s o c r).io = s.io := by
  unfold countRed; (repeat' split) <;> simp
@[simp] theorem redDropped_io (s : State) (o : Nat) (h : Held) (r : RedResult) : (redDropped s o h r).io = s.io := by simp
    [redDropped]
@[simp] theorem countC7_io (s : State) (o : Nat) : (countC7 s o).io = s.io := by simp [countC7]
@[simp] theorem discardDown_io (s : State) (o : Nat) (h : Held) : (discardDown s o h).io = s.io := by simp [discardDown]
@[simp] theorem appendOut_io (s : State) (o : Nat) (h : Held) : (appendOut s o h).io = s.io := by simp [appendOut]
@[simp] theorem enqueueOut_io (s : State) (o : Nat) (h : Held) : (enqueueOut s o h).io = s.io := by simp [enqueueOut]
@[simp] theorem outputDown_io (s : State) (o : Nat) : (outputDown s o).io = s.io := by simp [outputDown]
@[simp] theorem closeLig_io (s : State) (r : LigRec) : (closeLig s r).io = s.io := by simp [closeLig]
@[simp] theorem updateLig_io (s : State) (r : LigRec) : (updateLig s r).io = s.io := by simp [updateLig]
@[simp] theorem showAlive_io (s : State) (w : BitVec 32) : (showAlive s w).io = s.io := by simp [showAlive]
@[simp] theorem portHeard_io (s : State) (p : Nat) : (portHeard s p).io = s.io := by simp [portHeard]
@[simp] theorem holdAgents_io (s : State) (c : Nat) (b : State → Nat → Fid → Bool) : (holdAgents s c b).io = s.io := by
  unfold holdAgents; apply foldl_io; intro s d; (repeat' split) <;> simp
@[simp] theorem checkAgentRoutes_io (s : State) : (checkAgentRoutes s).io = s.io := by simp [checkAgentRoutes]
@[simp] theorem triggerOutput_io (s : State) (o : Nat) : (triggerOutput s o).io = s.io := by simp [triggerOutput]
@[simp] theorem ligAcked_io (s : State) (p : Nat) (r : TxRec) : (ligAcked s p r).io = s.io := by
  unfold ligAcked; (repeat' split) <;> simp
theorem io_port {a b : State} (h : a.io = b.io) (p : Nat) : a.port p = b.port p := by
  have : a.ports = b.ports := congrArg (·.1) h
  simp [State.port, this]

/-- An item sent takes the acknowledgements owed with it, and nothing else of the port. -/
theorem sendItem_port (s : State) (p : Nat) (lt : BitVec 8) (ts : BitVec 64) (q : Nat) :
    (sendItem s p lt ts).port q = if q = p then { s.port p with
      ackOwed := if (s.port p).st = .active ∨ (s.port p).st = .retrain then 0 else (s.port p).ackOwed } else s.port q := by
  unfold sendItem
  by_cases h : (s.port p).st = .active ∨ (s.port p).st = .retrain <;> simp [h, State.port_setPort]

@[simp] theorem sendItem_port_self_st (s : State) (p : Nat) (lt : BitVec 8) (ts : BitVec 64) :
    ((sendItem s p lt ts).port p).st = (s.port p).st := by simp [sendItem_port]

theorem sendItem_port_ne (s : State) {p q : Nat} (lt : BitVec 8) (ts : BitVec 64) (h : q ≠ p) :
    (sendItem s p lt ts).port q = s.port q := by simp [sendItem_port, h]

@[simp] theorem SameLink.refl (v : PortSt) : SameLink v v := ⟨v.xoffBuf, v.xoffTx, v.ackOwed, rfl⟩
theorem SameLink.trans {u v w : PortSt} (h : SameLink u v) (g : SameLink v w) : SameLink u w := by
  obtain ⟨b, x, a, rfl⟩ := h
  obtain ⟨b', x', a', rfl⟩ := g
  exact ⟨b', x', a', rfl⟩
theorem SameLink.st_eq {v w : PortSt} (h : SameLink v w) : w.st = v.st := by obtain ⟨_, _, _, rfl⟩ := h; rfl
theorem SameLink.rate_eq {v w : PortSt} (h : SameLink v w) : w.rate = v.rate := by obtain ⟨_, _, _, rfl⟩ := h; rfl
theorem SameLink.unacked_eq {v w : PortSt} (h : SameLink v w) : w.unacked = v.unacked := by obtain ⟨_, _, _, rfl⟩ := h; rfl
theorem SameLink.resend_eq {v w : PortSt} (h : SameLink v w) : w.resend = v.resend := by obtain ⟨_, _, _, rfl⟩ := h; rfl

/-- Recomputing XOFF writes the port's XOFF bits, and the acknowledgements owed when an item leaves. -/
theorem updateXoff_port (s : State) (p : Nat) : SameLink (s.port p) ((updateXoff s p).port p) := by
  unfold updateXoff; dsimp only
  split
  · split
    · exact ⟨xoffBits s p, xoffBits s p ||| holdBits s p, (s.port p).ackOwed, by simp⟩
    · exact ⟨_, _, _, by rw [sendItem_port, if_pos rfl, State.port_setPort_self]⟩
  · simp

theorem updateXoff_port_ne (s : State) {p q : Nat} (h : q ≠ p) : (updateXoff s p).port q = s.port q := by
  unfold updateXoff; dsimp only
  (repeat' split) <;> simp [sendItem_port_ne, State.port_setPort, h]

theorem updateXoff_port_any (s : State) (p q : Nat) : SameLink (s.port q) ((updateXoff s p).port q) := by
  by_cases h : q = p
  · subst h; exact updateXoff_port s q
  · rw [updateXoff_port_ne s h]; simp

/-- Recomputing XOFF everywhere changes no port but in its XOFF bits and the acknowledgements owed (R64). -/
theorem updateAllXoff_port (s : State) (q : Nat) : SameLink (s.port q) ((updateAllXoff s).port q) := by
  have k : ∀ (l : List Nat) (s : State), SameLink (s.port q) ((l.foldl updateXoff s).port q) := by
    intro l
    induction l with
    | nil => intro s; simp
    | cons a l ih => intro s; exact (updateXoff_port_any s a q).trans (ih _)
  unfold updateAllXoff; dsimp only
  (repeat' split) <;> simpa using k _ s

/-- A port that enters ACTIVE (R39, R96). -/
theorem enterActive_port (s : State) (p : Nat) : SameLink
    { s.port p with st := .active, realign := false, fails := 0, rate := (s.port p).tryRate } ((enterActive s p).port p) := by
  unfold enterActive; extract_lets st s1 s2 s3
  have h : s3.port p = { s.port p with st := .active, realign := false, fails := 0, rate := (s.port p).tryRate } := by
    simp only [s3, s2, s1, st]; split <;> simp
  rw [← h]; exact updateXoff_port s3 p

theorem enterActive_port_ne (s : State) {p q : Nat} (h : q ≠ p) : (enterActive s p).port q = s.port q := by
  unfold enterActive; dsimp only
  rw [updateXoff_port_ne _ h]; split <;> simp [State.port_setPort, h]

/-- A port as it is when it goes down (R60), `rate` the rate it trains at next (R40). -/
abbrev PortSt.lowered (v : PortSt) (to_ : LinkSt) (r : Nat) : PortSt :=
  { v with
    st := to_, rate := 0, realign := false, unacked := [], resend := [], refusing := false
    xoffRx := 0, ackOwed := 0, lastNak := none, nakTxRun := 0, nakRxLast := none, nakRxRun := 0, capxRun := 0
    tryRate := r, fails := 0, rxHeld := [], rxBad := false }

/-- Taking a port down lowers that port; of every other at most the XOFF bits and acknowledgements change. -/
theorem portDown_port (s : State) (p : Nat) (to_ : LinkSt) (c q : Nat) : SameLink
    (if q = p then (s.port p).lowered to_ (firstRate s p) else s.port q) ((portDown s p to_ c).port q) := by
  unfold portDown; extract_lets st s1 s2 s3 s4
  have h : (checkAgentRoutes s4).io = s1.io := by simp [s4, s3, s2]
  have g : (checkAgentRoutes s4).port q = if q = p then (s.port p).lowered to_ (firstRate s p) else s.port q := by
    rw [io_port h]; simp only [s1, st, State.port_setPort]
  rw [← g]; exact updateAllXoff_port _ q

/-- A port taken to a state with no link (R39, R60), and every other port. -/
theorem portTo_port (s : State) (p : Nat) (to_ : LinkSt) (c : Nat) :
    ((portTo s p to_ c).port p).st = to_ ∧ ((portTo s p to_ c).port p).rate = 0 ∧
    (linkCarries s p = true → ((portTo s p to_ c).port p).unacked = [] ∧ ((portTo s p to_ c).port p).resend = []) := by
  unfold portTo
  split
  · have h := portDown_port s p to_ c p
    rw [if_pos rfl] at h
    exact ⟨h.st_eq, h.rate_eq, fun _ => ⟨h.unacked_eq, h.resend_eq⟩⟩
  · refine ⟨?_, ?_, by simp_all⟩ <;> simp [State.modPort]

theorem portTo_port_ne (s : State) (p : Nat) (to_ : LinkSt) (c q : Nat) (hq : q ≠ p) :
    SameLink (s.port q) ((portTo s p to_ c).port q) := by
  unfold portTo
  split
  · have h := portDown_port s p to_ c q
    rwa [if_neg hq] at h
  · simp [State.modPort, State.port_setPort, hq]

/-- A 16-byte item writes its port only: XOFF, and what its ACKSEQ releases (R48, R55). -/
theorem applyItem_port_ne (s : State) (p q : Nat) (i : LinkItem) (h : q ≠ p) : (applyItem s p i).port q = s.port q := by
  have k : ∀ (l : List TxRec) (s : State), (l.foldl (fun s r => ligAcked s p r) s).io = s.io := fun l s => foldl_io
      _ (fun s a => ligAcked_io s p a) l s
  have a1 : ∀ s : State, (if linkCarries s p then portHeard s p else s).port q = s.port q := by
    intro s; split
    · exact io_port (portHeard_io s p) q
    · rfl
  unfold applyItem; dsimp only; rw [a1]
  split
  · unfold applyAck; dsimp only; split
    · simp [State.modPort, State.port_setPort, h]
    · rw [io_port (k _ _)]; simp [State.modPort, State.port_setPort, h]
  · simp [State.modPort, State.port_setPort, h]

theorem applyItem_port (s : State) (p : Nat) (i : LinkItem) : ∃ u r,
    (applyItem s p i).port p = { s.port p with xoffRx := i.xoff, unacked := u, resend := r } := by
  have k : ∀ (l : List TxRec) (s : State), (l.foldl (fun s r => ligAcked s p r) s).io = s.io := fun l s => foldl_io
      _ (fun s a => ligAcked_io s p a) l s
  have a1 : ∀ s : State, (if linkCarries s p then portHeard s p else s).port p = s.port p := by
    intro s; split
    · exact io_port (portHeard_io s p) p
    · rfl
  unfold applyItem; dsimp only; rw [a1]
  split
  · unfold applyAck; dsimp only; split
    · exact ⟨(s.port p).unacked, (s.port p).resend, by simp [State.modPort]⟩
    · rw [io_port (k _ _)]; exact ⟨_, _, by simp [State.modPort]; exact ⟨rfl, rfl⟩⟩
  · exact ⟨(s.port p).unacked, (s.port p).resend, by simp [State.modPort]⟩
end Sys2Proof.Machine
end

