-- ==== Sys2Proof/Tests/Slice0.lean ====
section
/-! SUPPORT. The model's own tests: for every statement with hypotheses a state and operands that meet them, the terms that
`Instr.wf` refuses, values that spec/ prints, and single steps on small states. -/

namespace Sys2Proof.Tests

set_option maxRecDepth 100000
set_option Elab.async false

open Sys2Proof Sys2Proof.Machine

/-! ### Small states -/

def opr : Caller := { sid := 1, role := .opr, part := 0 }
def prt (p : Part) : Caller := { sid := 2, role := .prt, part := p }

/-- A device whose supplies and clock are present, whose Scribe runs and whose data path is up. -/
def up : State :=
  { State.reset with
    power := { State.reset.power with vstby := true, vio := true, vin := true, pwrEn := true, state := 3, refclkOk := true }
    scribe := { State.reset.scribe with st := .running } }

/-- One port of it in a state of the link. -/
def portIn (st : LinkSt) : State := up.modPort 5 fun v => { v with st := st, peerFid := 0x010200, peerRole := 2, xoffTx := 8 }

def goodItem : LinkItem := { lcrcOk := true, ackv := false, xoff := 0, ackseq := 0 }
def aCapx : Capx := { pfid := 0x010200, pport := 7, pver := 2, prate := 1, pccls := 0, penc := true, prole := 2 }

/-- A header of a request from another device to this one, PART 0. -/
def hdr (op : BitVec 8) (cls : BitVec 3) : Hdr :=
  { ver := 1, cls := cls, ep := false, ks := 0, op := op, flg := 0, plen := 0, dst := 0, src := 0x010200, part := 0, val := false,
    hop := 5, tag := 9, mid := 3, opid := 77, addr := 0, aux := 0 }

/-- An unacknowledged packet. -/
def sentPacket : TxRec :=
  { lseq := 0, pkt := { hdr := hdr Op.store 3, payload := [], tag := [], crc := 0, codewordsOk := true } }

def aKey : ReqKey := { src := 0x010200, part := 0, tag := 9, opid := 77 }
/-- A route entry: VALID, PLS, PREFIX, PART_MASK all partitions, one place. -/
def routeEntry (pls prefix_ place : Nat) : BitVec 128 :=
  BitVec.ofNat 128 (2 ^ 127 + pls * 2 ^ 125 + prefix_ * 2 ^ 96 + 0xFFFFFFFF * 2 ^ 64 + place * 2 ^ 56 + 0xFFFFFF * 2 ^ 32)

/-- A STORE in transit that FP_5 accepted. -/
def heldStore (dst : Fid) : Held :=
  { pkt := { hdr := { hdr Op.store 3 with dst := dst }, payload := [] }, ingress := 5, tile := 0, input := 5, vc := 3, age := 4, len := 48 }

def slotIn (st : SlotSt) (x : Bool) : State :=
  up.setRouteSlot true { st := st, expired := x, entries := [(5, routeEntry 3 0x020304 100)], ilist := [(2, 1)] }
/-- A LOADING slot whose entry names a place that does not exist. -/
def slotBad : State := up.setRouteSlot true { st := .loading, entries := [(5, routeEntry 3 0x020304 200)] }
def slotBusy (x : Bool) : State :=
  let h := heldStore 0x020304
  { slotIn .draining x with inq := [(5, [{ h with pkt := { h.pkt with hdr := { h.pkt.hdr with ep := true } } }])] }

def aNotice : Notice := { port := 5, fid := 9, tag := 1, opid := 2, kind := 0 }
def noticed : State := { portIn .active with notices := [aNotice, { aNotice with kind := 1 }, { aNotice with port := 6 }] }

def aLig : LigRec :=
  { tile := 0, key := aKey, lig := 3, cls := 3, ep := false, retry := false, hop := 3, ingress := 5, deliv := 0, fencd := 0,
    open_ := [.endpoint 7, .local_] }
def ligHeld : State := { up with ligRecs := [aLig, { aLig with key := { aKey with tag := 3 } }] }

/-- A request in transit at FP_5, with a route to FP_100 on another tile. -/
def inTransit : State :=
  { (((portIn .active).modPort 100 fun v => { v with st := .active }).setRouteSlot false
      { st := .serving, entries := [(1, routeEntry 2 0x020300 101), (7, routeEntry 3 0x020304 100)] }) with
    inq := [(5, [heldStore 0x020304])] }

/-- The same request waiting for the spine. -/
def onSpine : State :=
  { inTransit with inq := [], spine := [{ src := 0, dst := 12, out := 100, held := heldStore 0x020304 }] }

/-- An output with a C3 and a C5 packet waiting. -/
def queued (o : Nat) : State :=
  let v := { (inTransit.setHostP 0 { up := true, rate := 1 }) with inq := [] }
  v.setOut o { v.outSt o with q := [heldStore 0x020304, { heldStore 0x020305 with age := 5, pkt := { hdr := { hdr Op.bulkStore 5 with dst := 0x020305 }, payload := [] } }] }
def strictQueued (o : Nat) : State := { queued o with qos := [(outObj o 0 1, 33)] }
/-- Partition 0 with two Inkwell slices, a granted folio and some bytes in memory. -/
def withMem : State :=
  let v := up.modPart 0 fun p => { p with slices := [4#8, 9] ++ List.replicate 126 0xFF#8 }
  let w := Memory.writeN v.mem (physSlice 4) ((List.range 200).map (BitVec.ofNat 8))
  { v with mem := Memory.writeN w (physSlice 9 + 64) [1, 2, 3, 4, 5, 6, 7, 8] }

/-- A message of a kind, to an address, with a body. -/
def msg (op : BitVec 8) (cls : BitVec 3) (addr : Addr) (aux : BitVec 32) (body : List Byte) : Msg :=
  { hdr := { hdr op cls with addr := addr, aux := aux, plen := BitVec.ofNat 8 (body.length / 16) }, body := body }

def body16 (b : Byte) : List Byte := List.replicate 16 b
/-- Two waiting requests of other devices, C3 and C7. -/
def aTag : TagEntry :=
  { key := aKey, op := Op.store, cls := 3, dst := 0x020304, ingress := 5, quill := false, ret := none, held := [] }
def outstanding (cls : BitVec 3) : State := { inTransit with inq := [], tags := [{ aTag with cls := cls }, { aTag with key := { aKey with tag := 1 } }] }
/-- A completion that passes from FP_5 to FP_100. -/
def passing : Packet :=
  { hdr := { hdr Op.cmpl 4 with src := 0x030405, dst := 0x010200, part := 0 }, payload := [] }
def withRouteBack : State :=
  let v := outstanding 3
  v.setRouteSlot false { v.routeSlot false with entries := [(7, routeEntry 3 0x010200 100)] }

/-- Domain 0 of partition 0 over its slice 0, with agents 0, 1 and 2. -/
def domS (st : DomainSt) : State :=
  (((((withMem.setO (domObj 0 2 1) 0).setO (domObj 0 0 4) 7).setO (domObj 0 1 1) 0x010200).setO (domObj 0 1 2) 0x010201).setO (domObj 0 1 3) 0x010202).setDomain 0 { st := st }
def c1 (op : BitVec 8) (body : List Byte) : Msg := msg op 1 0x80 0 body
def lineNo : Nat := physSlice 4 / 128 + 1
def owned (e : DirEntry) : State := setDir (domS .active) lineNo e

/-- An RD_SHARED of agent 0 that waits for the answer of agent 1, the owner. -/
def aTxn (wantData : Bool) : Txn :=
  { domain := 0, line := lineNo, addr := 0x80, req := c1 Op.rdShared [], agent := some 0, write := false, await := [1], owner := some 1,
    res := none, wantData := wantData, data := none, place := none, since := 0, job := none }
def snooping (wantData : Bool) : State := { owned (ownedBy 1) with txns := [aTxn wantData] }
def snoopAnswer (op : BitVec 8) (aux : BitVec 32) (body : List Byte) : Packet :=
  { hdr := { hdr op 2 with src := 0x010201, aux := aux, plen := BitVec.ofNat 8 (body.length / 16) }, payload := body }
/-- A folio record: VALID, HOMEK, OWNER 0, logical folio 3, and the FID and address of a lender. -/
def folWord (homek : Nat) : BitVec 256 :=
  BitVec.ofNat 256 (2 ^ 255 + homek * 2 ^ 253 + 0x020304 * 2 ^ 168 + 0x40000000 * 2 ^ 104 + 3 * 2 ^ 64)
def folioS (st : FolioSt) (homek : Nat) : State := { withMem with folios := [(3, { word := folWord homek, st := st })] }
def folioFull : State := { folioS .scrubbing 0 with mem := Memory.writeN withMem.mem (physStack 3 + 100) [1, 2, 3] }
/-- A LOAD in progress, part of which reads the lender of folio 3. -/
def folioRead : State :=
  let g : Seg := { loc := .remote 3 0x020304 0, len := 16, addr := 0, tier := 3 }
  let r : Reissue := { orig := msg Op.load 3 (2 ^ 48) 3 [], subs := [{ key := aKey, seg := g }], writes := none, start := 0, counted := false }
  { folioS .draining 1 with reissues := [r] }

/-- A region record word: region 5, OWNER 0, VALID, READERS. -/
def regWord (valid : Bool) : BitVec 64 := BitVec.ofNat 64 (5 + b2n valid * 2 ^ 23 + 0xF0 * 2 ^ 32)
def aRegion : Region := { owner := 0, readers := 3, version := 6, base := 0, len := 0, fid := 0 }
def regioned : State := withMem.setRegion 5 (some aRegion)
/-- A PUBLISH of 0x40 bytes at 0x80 of slice 0 as region 5. -/
def publishMsg (expect : Nat) : Msg :=
  msg Op.publish 3 (BitVec.ofNat 56 (3 * 2 ^ 48 + 5 * 2 ^ 36)) 0 (leBytes 32 (expect + 0x80 * 2 ^ 64 + 0x40 * 2 ^ 128))
/-- A versioned load of region 5 whose completion has not left. -/
def reading (s : State) : State :=
  let h := heldStore 0x010200
  { s with vloads := [{ region := 5, version := 6, key := aKey }],
           inq := [(5, [{ h with pkt := { h.pkt with hdr := { h.pkt.hdr with op := Op.cmpl } } }])] }
def aWait : WaitPub := { region := 5, old := 6, req := publishMsg 6, cdat := 7 }
def waitingPub : State :=
  { regioned with waitPubs := [aWait],
                  opRecs := [{ tile := 0, src := 0x010200, part := 0, opid := 77, done := true, ndup := 0, status := 0, cflg := 0, cdat := 7, res := none, tdone := 0 }] }
/-- Partition 0 with all quills. -/
def withQuills : State := withMem.modPart 0 fun p => { p with quills := BitVec.allOnes 64 }
/-- A descriptor: context 5, REDUCE_TO_ROOT, sum of FP32, `n` contributors, 3 chunks, window 2, root 0x030405. -/
def descr (n partner : Nat) : BitVec 512 :=
  BitVec.ofNat 512 (5 + (n - 1) * 2 ^ 40 + 3 * 2 ^ 64 + 2 * 2 ^ 96 + 0x030405 * 2 ^ 128 + partner * 2 ^ 256)
def openMsg (w : BitVec 512) (hcgen : Nat) : Msg :=
  let m := msg Op.collCtl 5 0 (BitVec.ofNat 32 (1 + hcgen * 256)) (leBytes 64 w.toNat)
  { m with hdr := { m.hdr with src := 0x010200 } }
/-- JOIN, CLOSE and ABORT of context 5 under CGEN 4 by contributor `x`. -/
def ctlMsg (cmd x : Nat) : Msg := msg Op.collCtl 5 0 (BitVec.ofNat 32 cmd) (leBytes 16 (5 + 4 * 2 ^ 16 + x * 2 ^ 24))
def ctxS (v : Ctx) : State := withQuills.setCtx 5 v
def runningCtx : Ctx := { st := .running, cgen := 4, desc := descr 2 0, joined := [(0, 0x010200)], limit := 2, used := true }
def aChunk (bits_ : List Nat) : Chunk :=
  { ctx := 5, idx := 0, seq := 1, bits := bits_, elems := List.replicate 4 {}, raw := [], first := 0, storing := none }
def running (bits_ : List Nat) : State := { ctxS runningCtx with chunks := [aChunk bits_] }
def contribMsg (chunk : Nat) (body : List Byte) : Msg := msg Op.contrib 5 (BitVec.ofNat 56 (5 * 2 ^ 40 + chunk * 2 ^ 20 + 4 * 2 ^ 12)) 0 body
def mirrorCtx : Ctx := { runningCtx with st := .mirror, mirror := 4, partner := 0x010200, recLimit := 2, recLow := 1, joined := [] }
def creditMsg : Msg := msg Op.credit 5 0 3 (leBytes 16 (5 + 4 * 2 ^ 16 + 7 * 2 ^ 32 + 6 * 2 ^ 64))
def opening (opener : Option Msg) : State :=
  let v := ctxS { runningCtx with mirror := 1, partner := 0x020300, opener := opener, mirrorKey := some aKey }
  { v with opRecs := [{ tile := 0, src := 0x010200, part := 0, opid := 77, done := true, ndup := 0, status := 0, cflg := 0, cdat := 0, res := none, tdone := 0 }] }
/-- A table record: OWNER 0, quill 2, 16 elements a row, 64 local rows, directory at 0 and default row at 0x1000. -/
def tableWord : BitVec 512 :=
  BitVec.ofNat 512 (2 ^ 511 + 2 * 2 ^ 500 + 16 * 2 ^ 480 + 64 * 2 ^ 360 + 0x1000 * 2 ^ 248)
def tableIn (st : TableSt) : State :=
  withQuills.setTable 7 { st := st, word := tableWord, staged := some (tableWord + 1), wstaged := some 9, wdigest := 3 }
def served : State := tableIn .serving
/-- A BAG of table 7: four indices, a window and its count. -/
def bagMsg (win wcnt : Nat) : Msg :=
  msg Op.bag 3 (BitVec.ofNat 56 (7 * 2 ^ 44)) 0
    (leBytes 32 (4 * 2 ^ 16 + win * 2 ^ 32 + wcnt * 2 ^ 48) ++ leBytes 16 (1 + 2 * 2 ^ 32 + 3 * 2 ^ 64 + 4 * 2 ^ 96))
def bagReq : GReq := { msg := bagMsg 0 0, table := 7 }
def winKey : WinKey := { op := Op.bag, table := 7, part := 0, win := 6 }
def quillS (v : QuillSt) : State := served.setQuill 2 v
/-- A run whose table's service has not begun a pass. -/
def idleRun : Run := { id := 1, reqs := [{ bagReq with table := 8 }], table := 8, word := tableWord, tgen := 0, wdigest := 0 }
def bagWaiting : State := quillS { jobs := [{ win := false, reqs := [bagReq] }] }
/-- A pass over one BAG whose four rows are all missing from the table, with the default row read. -/
def bagRead : Run :=
  { id := 1, reqs := [bagReq], table := 7, word := tableWord, tgen := 0, wdigest := 3, stage := .reading, cur := 1, esc := some 0,
    res := [(1, .missing), (2, .missing), (3, .missing), (4, .missing)],
    ops := [{ index := none, wcls := 0, addr := 0x1000,
              subs := [{ key := aKey, seg := { loc := .phys (physSlice 4 + 0x1000), len := 64, addr := 0x1000, tier := 1 }, done := true, data := List.replicate 64 0 }] }] }
def bagDone : State := quillS { runs := [bagRead] }
def winOpen : State := quillS { wins := [{ key := winKey, wcnt := 2, reqs := [{ bagReq with msg := bagMsg 6 2 }] }], served := [{ winKey with win := 5 }] }
/-- A descriptor: VALID, OWNER 0, OKIND 0, one piece, at HOMEA, to DSTA. -/
def objDesc (homea dsta : Nat) : BitVec 512 := BitVec.ofNat 512 (2 ^ 511 + 2 ^ 448 + homea * 2 ^ 392 + dsta * 2 ^ 336)
/-- A T0 home in quill 2. -/
def t0Home : Nat := 0x80 * 2 ^ 48 + 2
def objAt (st : ObjSt) (dsta : Nat) : State :=
  withQuills.setObject 9 { st := st, size := 1, homea := 0x100000, dsta := BitVec.ofNat 56 dsta }
def moveMsg9 (dsta : Nat) : Msg := msg Op.objMove 5 (BitVec.ofNat 56 (2 * 2 ^ 48 + 9 * 2 ^ 34)) 0 (leBytes 64 (objDesc 0 dsta).toNat)
/-- The piece at its source and at its destination. -/
def pieceFrom : Seg := { loc := .phys 269484032, len := 65536, addr := 0x100000, tier := 1 }
def pieceTo : Seg := { loc := .phys 270532608, len := 65536, addr := 0x200000, tier := 1 }
def aMove (transit : Bool) (req : Option Msg) : Move :=
  { obj := 9, engine := 3, req := req, piece := 0, count := 0, transit := transit, ends := if transit then some (pieceFrom, pieceTo) else none }
def moveQueued : State := { objAt .moving 0x200000 with moveQ := [aMove false (some (moveMsg9 0x200000))] }
def moveRuns (req : Option Msg) : State :=
  { objAt .moving 0x200000 with
    moves := [aMove true req]
    opRecs := [{ tile := 0, src := 0x010200, part := 0, opid := 77, done := true, ndup := 0, status := 0, cflg := 0, cdat := 0, res := none, tdone := 0 }] }

/-- A schedule record: schedule 4, OWNER 0, VALID, two entries from 10. -/
def schedWord : BitVec 64 := BitVec.ofNat 64 (4 + 2 ^ 15 + 2 * 2 ^ 16 + 10 * 2 ^ 32)
def schedS (v : Sched) : State := (objAt .home 0).setSched 4 v
def aSched : Sched := { valid := true, base := 10, nent := 0, step := 5, layer := 2 }
/-- A TRIGGER of schedule 4. -/
def triggerMsg (kind layer step : Nat) : Msg := msg Op.trigger 0 0 0 (leBytes 16 (kind + 4 * 2 ^ 8 + layer * 2 ^ 32 + step * 2 ^ 64))
/-- The header of a RAW block of one row of four FP32 elements. -/
def rawHdr : List Byte := blockHeader true 0 0 0 0 1 4 48 0 0 0
/-- Partition 0 with basis slot 1, a basis image at 0x3000 and a RAW block at 0x4000. -/
def basisS (entries : List GenEntry) : State :=
  let v := withQuills.setSlot 1 { valid := true, entries := entries, last := 6 }
  let w := Memory.writeN [] (physSlice 4 + 0x3000) (leBytes 8 (7 + 2 ^ 8 + 544 * 2 ^ 32))
  { v with mem := Memory.writeN w (physSlice 4 + 0x4000) (rawHdr ++ leBytes 16 0x3F800000400000003F80000040000000) }
def readyEntry : GenEntry := { st := .ready, gen := 6, rank := 1 }
def slotEmpty : State := basisS [{}, readyEntry, {}, {}]
def slotFull : State := basisS [readyEntry, { readyEntry with gen := 3, refs := 2 }, { readyEntry with gen := 4 }, { readyEntry with gen := 5 }]
/-- An ENCODE message: CMD, GEN, slot 1, one tensor of one row of four FP32 elements for BUILD and ENCODE. -/
def encMsg (cmd gen : Nat) : Msg :=
  let n := if cmd ≤ 2 then 1 else 0
  msg Op.encode 5 0 0 (leBytes 64 (cmd + n * 2 ^ 8 + 2 ^ 16 + gen * 2 ^ 24 + 2 ^ 32 + 0x3000 * 2 ^ 256 + 0x6000 * 2 ^ 320 + 0x1000 * 2 ^ 384) ++
    leBytes (32 * n) (0x4020 + 2 ^ 64 + 4 * 2 ^ 96))
def doneRec : OpRec :=
  { tile := 0, src := 0x010200, part := 0, opid := 77, done := true, ndup := 0, status := 0, cflg := 0, cdat := 0, res := none, tdone := 0 }
def buildJob (stage : BasisStage) : BasisJob := { msg := encMsg 1 0, stage := stage, slot := 1, entry := 0, gen := 7, rank := 1 }
def building (stage : BasisStage) : State :=
  { basisS [{ readyEntry with st := .loading, gen := 7 }, readyEntry, readyEntry, readyEntry] with basisJobs := [buildJob stage], opRecs := [doneRec] }
def encJob : EncJob := { msg := encMsg 2 6, slot := 1, entry := 1, wrote := true, indexed := true, raw := true, size := 48 }
def encoding : State := { basisS [{}, { readyEntry with refs := 1 }, {}, {}] with encJobs := [encJob], opRecs := [doneRec] }
/-- An EXPAND of one block, to FP32. -/
def expMsg (baddr : Nat) : Msg := msg Op.expand 5 0 0 (leBytes 16 (1 * 2 ^ 8) ++ leBytes 16 baddr)
def expSeg (addr len : Nat) : Seg := { loc := .phys (physSlice 4 + addr), len := len, addr := addr, tier := 1 }
def expBlock : ExpBlock := { id := 3, part := 0, n := 0, baddr := 0x4000, hdr := rawHdr, slot := 0, entry := none }
def expanding : State :=
  { slotEmpty with expanders := [(2, [expBlock])], expResps := [{ id := 3, msg := expMsg 0x4000, heads := [], accepted := true, blocks := [{}] }] }
def word4 : Vector (BitVec 32) 4 := #v[1, 2, 3, 4]
def batchS (closed : Option (List (List Byte))) : State := up.setBatch 0 { open_ := [[1, 2]], closed := closed, number := 4 }
/-- A stack channel, and a bank of tile 0. -/
def channelUnit : BitVec 32 := 0x05000021
def bankUnit : BitVec 32 := 0x02000003
def unitS (u : BitVec 32) (v : UnitSt) : State := up.setUnit u.toNat v
def partS (st : PartSt) : State :=
  { withMem.setPart 3 { st := st, slices := [20#8] ++ List.replicate 127 0xFF#8, ports := 6, report := [1, 2, 3], kemKey := some 1 } with
    mem := Memory.writeN withMem.mem (physSlice 20 + 5) [9, 8, 7] }
def mapTo (d : List Byte) : Vector Byte 128 := Vector.ofFn fun i => d.getD i.val 0xFF#8
def attMsg (opx : Nat) (body : List Byte) : Msg :=
  let m := msg Op.attest 3 0 (BitVec.ofNat 32 opx) body
  { m with hdr := { m.hdr with part := 3 } }
def keySlotS (v : KeySt) : State := (portIn .active).setKey 5 0 1 v
/-- A KEYX message on FP_5 about slot 1 of partition 0. -/
def keyxMsg (opx : Nat) (body : List Byte) : Msg := msg Op.keyx 0 0 (BitVec.ofNat 32 opx) body
def slotNote (opx : Nat) : Msg := keyxMsg opx ([1#8] ++ List.replicate 15 0#8)
def aKx : Kx := { port := 5, part := 0, slot := 1, payload := [], kem := 2, tag := 9, opid := 77 }
def exchanging : State := { keySlotS { st := 4 } with kx := [aKx] }
def macS (old : Option (BitVec 256 × BitVec 96)) (txAn rxAn : BitVec 2) : State :=
  (up.modPart 0 fun p => { p with hosts := 1 }).setMac 0 { on := true, sakNo := 3, key := 5, oldKey := old, txAn := txAn, rxAn := rxAn }
def jrec (held : Bool) (rkind att : Nat) : JRec :=
  { tile := 0, key := aKey, hdr := hdr Op.bulkStore 5, body := body16 1, rkind := rkind, held := held, att := att, egress := 100, tacc := 0, tlast := 0, ingr := 160 }
def journalS (j : JRec) : State := { outstanding 5 with journal := [j] }
def devRec : BitVec 32 := BitVec.ofNat 32 (2 ^ 31 + 2 * 2 ^ 29 + 0x020300)
def watching (missed : Nat) : State := { outstanding 3 with watches := [{ word := devRec, missed := missed, fresh := false }, { word := fidRec 0x040500, missed := 1, fresh := true }] }
def deadS : State := { watching 0 with dead := [devRec, fidRec 0x040500], hbHeard := [devRec] }
def heartbeatPkt : Packet := { hdr := { hdr Op.heartbeat 0 with src := 0x020305 }, payload := [] }
/-- A fence record: EPOCH, ACT, PLS 2, PREFIX of 0x0203xx. -/
def fenceWord (epoch act : Nat) : BitVec 128 := BitVec.ofNat 128 (epoch + act * 2 ^ 32 + 2 * 2 ^ 36 + 0x020300 * 2 ^ 40)
def fencedS : State := { outstanding 3 with fepoch := 5, fences := [fnRec (fenceWord 0 2), fidRec 0x040500] }
/-- The same, with a FENCE_AUTH list that names 0x0102xx. -/
def authS : State := fencedS.setB (okey 0xA400 4) (leBytes 4 0xC0010200)
def fenceMsg (w : BitVec 128) : Msg := msg Op.fence 0 0 0 (leBytes 16 w.toNat)
/-- A staged member list of MEPOCH `e` with the given records. -/
def memberBytes (e : Nat) (l : List (BitVec 32)) : List Byte :=
  leBytes 16 (e + 9 * 2 ^ 32 + l.length * 2 ^ 80) ++ l.flatMap fun w => leBytes 4 w.toNat
def ownArea : BitVec 32 := 0xA0000000
def stagedS : State := { portIn .active with staged := some { mepoch := 6, step := 9, sched := 4, list := [ownArea, 0] } }
def ring : TAddr := .ring 0x112233445566
def sess (r : Role) (authed : Bool) (x : Option Transfer) : Session :=
  { sid := 7, role := r, part := 0, addr := ring, nc := 0, nd := 0, authed := authed, zeroCred := false, ckey := 1, csalt := 2, dkey := 3, dsalt := 4,
    rxHi := 5, rxSeen := [], txSeq := 8, sel := [], xfer := x, kept := [], events := [], eseq := 0, lost := 0, lostNew := 0, mask := 0, notify := false }
def withSess (v : Session) : State := { up with sessions := [v], oprCred := some 77 }
def dmsg (mtype : BitVec 4) (sid index : BitVec 16) (sub : BitVec 8) (payload : List Byte) : DMsg :=
  { mver := 1, mtype := mtype, resp := false, more := false, prot := false, dstat := 0, sid := sid, seq := 0, xid := 3, index := index, sub := sub, segno := 0,
    total := BitVec.ofNat 32 payload.length, auxr := 0, payload := payload, tag := [] }
def openReq (role part : Nat) : DMsg := dmsg 0 0 0 0 ([BitVec.ofNat 8 role, BitVec.ofNat 8 part] ++ List.replicate 46 0#8)
def readXfer : Transfer := { write := false, xid := 3, index := 0x1600, sub := 2, total := 1500, segs := [], value := List.replicate 1500 1, auxr := 1, sent := 2 }
def writeXfer (segs : List (Nat × List Byte)) : Transfer :=
  { write := true, xid := 3, index := 0x3500, sub := 1, total := 2060, segs := segs, value := [], auxr := 0, sent := 0 }

/-! ### Helpers -/

/-- A check that a range of an Inkwell meets no uncorrectable word, whichever channel its lines lie in. -/
def healthyB (s : State) (a n : Nat) : Bool :=
  decide (s.dumap.inkch = 0) && (wordsOf a n).all fun w => decide (32 * w < 2 ^ 33) && !decide (w ∈ s.poison)

theorem firstDead_of {s : State} {a n : Nat} (h : healthyB s a n = true) : firstDead s a n = none := by
  unfold healthyB at h
  simp only [Bool.and_eq_true, decide_eq_true_eq, List.all_eq_true, Bool.not_eq_true', decide_eq_false_iff_not] at h
  unfold firstDead
  rw [List.find?_eq_none]
  intro w hw
  obtain ⟨h1, h2⟩ := h.2 w hw
  unfold deadWord channelRetired
  rw [if_pos h1]
  simp [h2, h.1]

theorem readPhys_of {s : State} {a n : Nat} (h : healthyB s a n = true) : readPhys s a n = some (Memory.readN s.mem a n) := by
  simp [readPhys, firstDead_of h]

theorem readPhys_is {s : State} {a n : Nat} {d : List Byte} (h : healthyB s a n = true) (e : Memory.readN s.mem a n = d) :
    readPhys s a n = some d := by
  rw [readPhys_of h, e]

/-- A check that a range is a plain run. -/
def plainRunB (s : State) (p a len x : Nat) (write : Bool) : Bool :=
  decide (spaceOf a < 2) && healthyB s x len &&
    match resolveOwn s p a len write with
    | .segs [g] => g.loc == .phys x && g.dom == none && g.len == len
    | _ => false

theorem plainRun_of {s : State} {p a len x : Nat} {w : Bool} (h : plainRunB s p a len x w = true) : PlainRun s p a len x w := by
  unfold plainRunB at h
  simp only [Bool.and_eq_true, decide_eq_true_eq] at h
  obtain ⟨⟨h1, h2⟩, h3⟩ := h
  split at h3
  · rename_i g hg
    simp only [Bool.and_eq_true, beq_iff_eq] at h3
    exact ⟨h1, firstDead_of h2, g, hg, h3.1.1, h3.1.2, h3.2⟩
  · cases h3

/-- A check that a packet is routed to an output. -/
def routedB (s : State) (h : Hdr) (o : Nat) : Bool :=
  decide (h.mcast = false ∧ h.val = false ∧ h.hop ≠ 0 ∧ h.dst ≠ devFid s ∧ (s.routeSlot h.ep).st = .serving ∧ fenced s h.dst.toNat = false) &&
    match longestMatch (s.routeSlot h.ep) h.dst.toNat 3 with
    | some e => decide (bit (rePmask e) h.part.toNat = true ∧ h.hop.toNat < s.o (okey 0x3800 3) ∧ choosePort s h e = some o)
    | none => false

theorem routed_of {s : State} {h : Hdr} {o : Nat} (w : routedB s h o = true) : RoutedTo s h o := by
  unfold routedB at w
  simp only [Bool.and_eq_true, decide_eq_true_eq] at w
  obtain ⟨⟨h1, h2, h3, h4, h5, h6⟩, h7⟩ := w
  split at h7
  · rename_i e he
    exact ⟨h1, h2, h3, h4, h5, h6, e, he, of_decide_eq_true h7⟩
  · cases h7

theorem ok_of {ε α : Type} {x : Except ε α} {a : α} (h : x.toOption = some a) : x = .ok a := by
  cases x with
  | ok b => cases h; rfl
  | error e => cases h

theorem segs_of {r : Resolved} (h : (match r with | .segs _ => true | _ => false) = true) : ∃ gs, r = .segs gs := by
  cases r with
  | segs gs => exact ⟨gs, rfl⟩
  | _ => cases h

theorem all_of {α : Type} {l : List α} {p : α → Prop} [DecidablePred p] (h : l.all (fun x => decide (p x)) = true) : ∀ x ∈ l, p x := by
  intro x hx
  exact of_decide_eq_true (List.all_eq_true.mp h x hx)

theorem any_of {α : Type} {l : List α} {p : α → Prop} [DecidablePred p] (h : l.any (fun x => decide (p x)) = true) : ∃ x ∈ l, p x := by
  obtain ⟨x, hx, h⟩ := List.any_eq_true.mp h
  exact ⟨x, hx, of_decide_eq_true h⟩

/-- The state a command leads to. -/
def after (c : Instr) (s : State) : State := match exec c s with | .next t => t | _ => s

/-- What holds of the default and of every value a sparse map lists holds of every entry of it. -/
theorem get_of {α : Type} {d : α} {P : Nat → α → Prop} [∀ k, DecidablePred (P k)] {m : Sparse α} (hd : ∀ k, P k d)
    (h : m.all (fun e => decide (P e.1 e.2)) = true) (k : Nat) : P k (Sparse.get d m k) := by
  induction m with
  | nil => exact hd k
  | cons e m ih =>
    simp only [List.all_cons, Bool.and_eq_true, decide_eq_true_eq] at h
    unfold Sparse.get
    split
    · exact hd k
    · split
      · rename_i hk; exact hk ▸ h.1
      · exact ih h.2

/-! ### Witnesses: the hypotheses of each statement are met, clause by clause -/

/-- FP_5 in EXCHANGE with two equal CAPX received. -/

def exchanged (ver : BitVec 4) : State := (portIn .exchange).modPort 5 fun v => { v with capxLast := some { aCapx with pver := ver }, capxRun := 2 }

/-- LinkTraining. -/
theorem witness_LinkTraining :
    (((portIn .detect).port (5 : Port)).st = .detect ∧ laneInTest (portIn .detect) (5 : Port) = false) ∧
    (((portIn .train).port (5 : Port)).st = .train) ∧
    (((portIn .align).port (5 : Port)).st = .align) ∧
    (((portIn .exchange).port (5 : Port)).st = .exchange) ∧
    ((((.trainTimeout 5 : Instr) = .trainTimeout (5 : Port) ∧ ((portIn .train).port (5 : Port)).st = .train) ∨ ((.trainTimeout 5 : Instr) = .alignTimeout (5 : Port) ∧ ((portIn .train).port (5 : Port)).st = .align))) ∧
    ((((.alignTimeout 5 : Instr) = .trainTimeout (5 : Port) ∧ ((portIn .align).port (5 : Port)).st = .train) ∨ ((.alignTimeout 5 : Instr) = .alignTimeout (5 : Port) ∧ ((portIn .align).port (5 : Port)).st = .align))) ∧
    (((portIn .retrain).port (5 : Port)).st = .retrain) ∧
    ((((portIn .retrain).modPort 5 fun v => { v with realign := true }).port (5 : Port)).st = .retrain ∧ (((portIn .retrain).modPort 5 fun v => { v with realign := true }).port (5 : Port)).realign = true) ∧
    (((exchanged 2).port (5 : Port)).st = .exchange ∧ goodItem.lcrcOk = true ∧ ((exchanged 2).port (5 : Port)).capxLast = some ({ aCapx with pver := 2 } : Capx) ∧ 2 ≤ ((exchanged 2).port (5 : Port)).capxRun) ∧
    (((exchanged 4).port (5 : Port)).st = .exchange ∧ goodItem.lcrcOk = true ∧ ((exchanged 4).port (5 : Port)).capxLast = some ({ aCapx with pver := 4 } : Capx) ∧ 2 ≤ ((exchanged 4).port (5 : Port)).capxRun) ∧
    ((((portIn .halted).port (5 : Port)).st = .exchange ∨ ((portIn .halted).port (5 : Port)).st = .halted)) ∧
    ((((portIn .exchange).port (5 : Port)).st = .exchange ∨ ((portIn .exchange).port (5 : Port)).st = .halted)) := by and_intros <;> decide +kernel

def hostOn : State := (up.setHostP 0 { up := true, rate := 1 }).setO (hostObj 0 0 1) 1

/-- PortsAndHostLinks. -/
theorem witness_PortsAndHostLinks :
    (((.uncorrectableLimit 5 : Instr) = .uncorrectableLimit (5 : Port) ∨ ((.uncorrectableLimit 5 : Instr) = .rtrn (5 : Port) goodItem ∧ goodItem.lcrcOk = true) ∨ ((.uncorrectableLimit 5 : Instr) = .retrain opr (5 : Port) 1 ∧ portOk (portIn .active) (5 : Port) = true ∧ oprOver (portIn .active) opr (portOwner (portIn .active) (5 : Port)) = true)) ∧ ((portIn .active).port (5 : Port)).st = .active) ∧
    (((.rtrn 5 goodItem : Instr) = .uncorrectableLimit (5 : Port) ∨ ((.rtrn 5 goodItem : Instr) = .rtrn (5 : Port) goodItem ∧ goodItem.lcrcOk = true) ∨ ((.rtrn 5 goodItem : Instr) = .retrain opr (5 : Port) 1 ∧ portOk (portIn .active) (5 : Port) = true ∧ oprOver (portIn .active) opr (portOwner (portIn .active) (5 : Port)) = true)) ∧ ((portIn .active).port (5 : Port)).st = .active) ∧
    (((.retrain opr 5 1 : Instr) = .uncorrectableLimit (5 : Port) ∨ ((.retrain opr 5 1 : Instr) = .rtrn (5 : Port) goodItem ∧ goodItem.lcrcOk = true) ∨ ((.retrain opr 5 1 : Instr) = .retrain opr (5 : Port) 1 ∧ portOk (portIn .active) (5 : Port) = true ∧ oprOver (portIn .active) opr (portOwner (portIn .active) (5 : Port)) = true)) ∧ ((portIn .active).port (5 : Port)).st = .active) ∧
    ((((.retrainTimeout 5 : Instr) = .retrainTimeout (5 : Port) ∧ ((portIn .retrain).port (5 : Port)).st = .retrain) ∨ ((.retrainTimeout 5 : Instr) = .down (5 : Port) goodItem ∧ goodItem.lcrcOk = true ∧ linkCarries (portIn .retrain) (5 : Port) = true) ∨ (((.retrainTimeout 5 : Instr) = .lossOfSignal (5 : Port) ∨ (.retrainTimeout 5 : Instr) = .blockLockLoss (5 : Port)) ∧ ((portIn .retrain).port (5 : Port)).st = .active))) ∧
    ((((.down 5 goodItem : Instr) = .retrainTimeout (5 : Port) ∧ ((portIn .active).port (5 : Port)).st = .retrain) ∨ ((.down 5 goodItem : Instr) = .down (5 : Port) goodItem ∧ goodItem.lcrcOk = true ∧ linkCarries (portIn .active) (5 : Port) = true) ∨ (((.down 5 goodItem : Instr) = .lossOfSignal (5 : Port) ∨ (.down 5 goodItem : Instr) = .blockLockLoss (5 : Port)) ∧ ((portIn .active).port (5 : Port)).st = .active))) ∧
    ((((.lossOfSignal 5 : Instr) = .retrainTimeout (5 : Port) ∧ ((portIn .active).port (5 : Port)).st = .retrain) ∨ ((.lossOfSignal 5 : Instr) = .down (5 : Port) goodItem ∧ goodItem.lcrcOk = true ∧ linkCarries (portIn .active) (5 : Port) = true) ∨ (((.lossOfSignal 5 : Instr) = .lossOfSignal (5 : Port) ∨ (.lossOfSignal 5 : Instr) = .blockLockLoss (5 : Port)) ∧ ((portIn .active).port (5 : Port)).st = .active))) ∧
    ((((.blockLockLoss 5 : Instr) = .retrainTimeout (5 : Port) ∧ ((portIn .active).port (5 : Port)).st = .retrain) ∨ ((.blockLockLoss 5 : Instr) = .down (5 : Port) goodItem ∧ goodItem.lcrcOk = true ∧ linkCarries (portIn .active) (5 : Port) = true) ∨ (((.blockLockLoss 5 : Instr) = .lossOfSignal (5 : Port) ∨ (.blockLockLoss 5 : Instr) = .blockLockLoss (5 : Port)) ∧ ((portIn .active).port (5 : Port)).st = .active))) ∧
    (portOk (portIn .disabled) (127 : Port) = true ∧ oprOver (portIn .disabled) opr (portOwner (portIn .disabled) (127 : Port)) = true ∧ ((portIn .disabled).port (127 : Port)).st = .disabled ∧ (portIn .disabled).power.state = 3) ∧
    (portOk (portIn .active) (5 : Port) = true ∧ oprOver (portIn .active) opr (portOwner (portIn .active) (5 : Port)) = true) ∧
    (oprOver up opr (hostOwner up (0 : HostPort)) = true) ∧
    (hostOn.power.state = 3 ∧ hostOn.o (hostObj (0 : HostPort) 0 1) = 1 ∧ ((1 : BitVec 2) = 1 ∨ (1 : BitVec 2) = 2) ∧ bit (hostOn.o (hostObj (0 : HostPort) 0 2)) ((1 : BitVec 2).toNat - 1) = true) ∧
    (hostOn.power.state = 3 ∧ hostOn.o (hostObj (0 : HostPort) 0 1) = 1 ∧ ((2 : BitVec 2) = 1 ∨ (2 : BitVec 2) = 2) ∧ bit (hostOn.o (hostObj (0 : HostPort) 0 2)) ((2 : BitVec 2).toNat - 1) = true) := by and_intros <;> decide +kernel

def inService : State := (portIn .active).modPort 5 fun v => { v with unacked := [sentPacket, { sentPacket with lseq := 1 }], ackOwed := 3, txLseq := 2, rxLseq := 9 }

/-- LinkItemsInService. -/
theorem witness_LinkItemsInService :
    (((∀ r ∈ fromLseq ((applyItem inService (5 : Port) goodItem).port (5 : Port)).unacked (1 : BitVec 16), goodItem.xoff.getLsbD (vcOf r.pkt.hdr) = false)) ∧ (inService.port (5 : Port)).st = .active ∧ goodItem.lcrcOk = true) ∧
    (((∀ r ∈ (inService.port (5 : Port)).unacked, (inService.port (5 : Port)).xoffRx.getLsbD (vcOf r.pkt.hdr) = false)) ∧ (inService.port (5 : Port)).st = .active) ∧
    (goodItem.lcrcOk = true ∧ linkReads inService (5 : Port) = true) ∧
    ((inService.port (5 : Port)).st = .active ∧ 0 < (inService.port (5 : Port)).ackOwed) ∧
    ((inService.port (5 : Port)).st = .active) ∧
    ((63 : BitVec 8).toNat < 64) := ⟨⟨all_of (by decide +kernel), by and_intros <;> decide +kernel⟩,
    ⟨all_of (by decide +kernel), by decide +kernel⟩,
    by and_intros <;> decide +kernel⟩

/-- A STORE without payload as it stands on a link. -/

def onWire : WirePacket :=

  let w : WirePacket := { hdr := hdr Op.store 3, payload := [], tag := [], crc := 0, codewordsOk := true }

  { w with crc := w.goodCrc }

/-- A packet with a payload under a key slot. -/

def keyedWire : WirePacket :=

  { hdr := { hdr Op.store 3 with ks := 2, plen := 2 }, rsv := 5, payload := List.replicate 32 7, tag := List.replicate 16 3, crc := 9, codewordsOk := true }

/-- A block without a unit, under a BCNT, and one whose HCHK fails. -/

def idleBlock (n : Nat) : LinkBlock := { bytes := linkBlock n [], bad := 0, lseqs := [] }

def badBlock : LinkBlock := { bytes := [0, 1], bad := 0, lseqs := [] }

def aligning : State := (portIn .align).modPort 5 fun v => { v with rxBcnt := some 15, lockRun := 63 }

/-- PacketReception. -/
theorem witness_PacketReception :
    (((portIn .active).port (5 : Port)).st = .active ∧ onWire.hdr.ver = 1 ∧ onWire.hdr.plen.toNat ≤ 128 ∧ onWire.payload.length = 16 * onWire.hdr.plen.toNat ∧ (0 : BitVec 16) = ((portIn .active).port (5 : Port)).rxLseq ∧ onWire.codewordsOk = true ∧ onWire.crc = onWire.goodCrc ∧ onWire.hdr.ks = 0 ∧ onWire.hdr.wireLen ≤ freeSpace (portIn .active) ((5 : Port) / 8) ((5 : Port) % 8) (vcOf onWire.hdr) ∧ (((portIn .active).o (portObj (5 : Port) 0 4) = 1 → keyExempt onWire.hdr = true)) ∧ mustEncrypt (portIn .active) onWire.hdr = false) ∧
    (((portIn .active).port (5 : Port)).st = .active ∧ onWire.hdr.ver = 1 ∧ onWire.hdr.plen.toNat ≤ 128 ∧ onWire.payload.length = 16 * onWire.hdr.plen.toNat ∧ ((1 : BitVec 16) ≠ ((portIn .active).port (5 : Port)).rxLseq ∨ (onWire.crc ≠ onWire.goodCrc ∧ onWire.crc ≠ ~~~ onWire.goodCrc))) ∧
    (((portIn .active).port (5 : Port)).st = .active ∧ ({ onWire with crc := 0 } : WirePacket).hdr.ver = 1 ∧ ({ onWire with crc := 0 } : WirePacket).hdr.plen.toNat ≤ 128 ∧ ({ onWire with crc := 0 } : WirePacket).payload.length = 16 * ({ onWire with crc := 0 } : WirePacket).hdr.plen.toNat ∧ ((0 : BitVec 16) ≠ ((portIn .active).port (5 : Port)).rxLseq ∨ (({ onWire with crc := 0 } : WirePacket).crc ≠ ({ onWire with crc := 0 } : WirePacket).goodCrc ∧ ({ onWire with crc := 0 } : WirePacket).crc ≠ ~~~ ({ onWire with crc := 0 } : WirePacket).goodCrc))) ∧
    (((portIn .active).port (5 : Port)).st = .active ∧ ({ onWire with crc := ~~~ onWire.goodCrc } : WirePacket).hdr.ver = 1 ∧ ({ onWire with crc := ~~~ onWire.goodCrc } : WirePacket).hdr.plen.toNat ≤ 128 ∧ ({ onWire with crc := ~~~ onWire.goodCrc } : WirePacket).payload.length = 16 * ({ onWire with crc := ~~~ onWire.goodCrc } : WirePacket).hdr.plen.toNat ∧ (0 : BitVec 16) = ((portIn .active).port (5 : Port)).rxLseq ∧ ({ onWire with crc := ~~~ onWire.goodCrc } : WirePacket).codewordsOk = true ∧ ({ onWire with crc := ~~~ onWire.goodCrc } : WirePacket).crc = ~~~ ({ onWire with crc := ~~~ onWire.goodCrc } : WirePacket).goodCrc) ∧
    (onWire.payload.length = 16 * onWire.hdr.plen.toNat ∧ onWire.tag.length = (if onWire.hdr.ks = 0 then 0 else 16)) ∧
    (keyedWire.payload.length = 16 * keyedWire.hdr.plen.toNat ∧ keyedWire.tag.length = (if keyedWire.hdr.ks = 0 then 0 else 16)) ∧
    (((portIn .active).port (5 : Port)).st = .active ∧ (readBlockHeader badBlock.bytes).2.2 = false) ∧
    ((aligning.port (5 : Port)).st = .align ∧ (readBlockHeader (idleBlock 0).bytes).2.2 = true ∧ (aligning.port (5 : Port)).rxBcnt = some ((readBlockHeader (idleBlock 0).bytes).2.1 - 1) ∧ 63 ≤ (aligning.port (5 : Port)).lockRun) := by and_intros <;> decide +kernel

def datagram (op : BitVec 8) (cls : BitVec 3) : Datagram := { ip := 4, udp := 8, pkt := { hdr := { hdr op cls with src := hostFid up 0 }, payload := [] } }

def assembling : State := { up with asm := [{ key := aKey, hdr := hdr Op.store 3, pcnt := 2, parts := [], ingress := 5 }] }

/-- HOST_0 with 4,096 requests under way. -/

def hostFull : State :=

  { hostOn with tags := (List.range 4096).map fun n => { aTag with key := { aKey with tag := BitVec.ofNat 16 n }, ingress := 128, ret := some { h := 0, ip := 4, udp := 8 } } }

/-- AssemblyAndHostBridge. -/
theorem witness_AssemblyAndHostBridge :
    (assembling.asm.any (fun a => a.key == aKey) = true) ∧
    ((hostOn.hostP (0 : HostPort)).up = true ∧ (hostOn.mac (0 : HostPort)).on = false ∧ hostMaySend (datagram Op.store 7) = true ∧ (datagram Op.store 7).pkt.hdr.src = hostFid hostOn (0 : HostPort) ∧ hdrKey (datagram Op.store 7).pkt.hdr ∉ hostOn.badMsgs ∧ (hostNew hostOn (0 : HostPort) (datagram Op.store 7).pkt.hdr = false ∨ hostOutstanding hostOn (0 : HostPort) < 4096)) ∧
    ((hostOn.hostP (0 : HostPort)).up = true ∧ (hostOn.mac (0 : HostPort)).on = false ∧ hostMaySend (datagram Op.trigger 0) = true ∧ (datagram Op.trigger 0).pkt.hdr.src = hostFid hostOn (0 : HostPort) ∧ hdrKey (datagram Op.trigger 0).pkt.hdr ∉ hostOn.badMsgs ∧ (hostNew hostOn (0 : HostPort) (datagram Op.trigger 0).pkt.hdr = false ∨ hostOutstanding hostOn (0 : HostPort) < 4096)) ∧
    ((hostFull.hostP (0 : HostPort)).up = true ∧ (hostFull.mac (0 : HostPort)).on = false ∧ hostMaySend (datagram Op.store 7) = true ∧ (datagram Op.store 7).pkt.hdr.src = hostFid hostFull (0 : HostPort) ∧ hdrKey (datagram Op.store 7).pkt.hdr ∉ hostFull.badMsgs ∧ hostNew hostFull (0 : HostPort) (datagram Op.store 7).pkt.hdr = true ∧ 4096 ≤ hostOutstanding hostFull (0 : HostPort)) ∧
    ((hostOn.hostP (0 : HostPort)).up = true ∧ (hostOn.mac (0 : HostPort)).on = false ∧ hostMaySend (datagram Op.cmpl 3) = false) ∧
    (((hostOn.setMac 0 { on := true }).hostP (0 : HostPort)).up = true ∧ ((hostOn.setMac 0 { on := true }).mac (0 : HostPort)).on = true) := by and_intros <;> decide +kernel

/-- RouteSlotStates. -/
theorem witness_RouteSlotStates :
    (((∀ r ∈ ([(0, 7), (65535, 0)] : List (BitVec 32 × BitVec 128)), r.1.toNat < 65536)) ∧ isOpr (slotIn .loading false) opr = true ∧ ([(0, 7), (65535, 0)] : List (BitVec 32 × BitVec 128)) ≠ [] ∧ slotWritable ((slotIn .loading false).routeSlot true) = true) ∧
    (((∀ r ∈ ([(4095, 7)] : List (BitVec 32 × BitVec 32)), r.1.toNat < 4096)) ∧ isOpr (slotIn .empty false) opr = true ∧ ([(4095, 7)] : List (BitVec 32 × BitVec 32)) ≠ [] ∧ slotWritable ((slotIn .empty false).routeSlot true) = true) ∧
    (((∀ d, d < 32 → ((slotIn .loading false).domain d).st ≠ .active)) ∧ isOpr (slotIn .loading false) opr = true ∧ ((slotIn .loading false).routeSlot true).st = .loading ∧ commitFailure (slotIn .loading false) ((slotIn .loading false).routeSlot true) = none) ∧
    (isOpr (slotIn .loading false) opr = true ∧ ((slotIn .loading false).routeSlot true).st = .loading ∧ commitFailure (slotIn .loading false) ((slotIn .loading false).routeSlot true) = none) ∧
    (isOpr slotBad opr = true ∧ (slotBad.routeSlot true).st = .loading ∧ commitFailure slotBad (slotBad.routeSlot true) ≠ none) ∧
    (isOpr slotBad opr = true ∧ (slotBad.routeSlot true).st = .loading) ∧
    (isOpr (slotIn .serving false) opr = true ∧ ((slotIn .serving false).routeSlot true).st = .serving ∧ (slotIn .serving false).o (okey 0x3800 2) ≠ slotNo true) ∧
    (isOpr (slotIn .serving false) opr = true ∧ ((slotIn .serving false).routeSlot true).st = .serving) ∧
    (isOpr (slotIn .serving false) opr = true ∧ ((slotIn .serving false).routeSlot true).st = .serving ∧ ((∀ d, d < 32 → ((slotIn .serving false).domain d).st ≠ .active))) ∧
    (((slotBusy false).routeSlot true).st = .draining ∧ ((slotBusy false).routeSlot true).expired = false ∧ inflight (slotBusy false) true ≠ 0) ∧
    (((slotIn .draining false).routeSlot true).st = .draining ∧ (((.drainTimerExpire true : Instr) = .drainTimerExpire true ∧ ((slotIn .draining false).routeSlot true).expired = false) ∨ ((.drainTimerExpire true : Instr) = .slotDrained true ∧ ((slotIn .draining false).routeSlot true).expired = true)) ∧ inflight (slotIn .draining false) true = 0) ∧
    (((slotIn .draining true).routeSlot true).st = .draining ∧ (((.slotDrained true : Instr) = .drainTimerExpire true ∧ ((slotIn .draining true).routeSlot true).expired = false) ∨ ((.slotDrained true : Instr) = .slotDrained true ∧ ((slotIn .draining true).routeSlot true).expired = true)) ∧ inflight (slotIn .draining true) true = 0) := ⟨⟨all_of (by decide +kernel), by and_intros <;> decide +kernel⟩,
    ⟨all_of (by decide +kernel), by and_intros <;> decide +kernel⟩,
    ⟨(by intro d _; simp only [slotIn, State.domain]; decide +revert +kernel), by and_intros <;> decide +kernel⟩,
    by and_intros <;> decide +kernel⟩

/-- EpochNotices. -/
theorem witness_EpochNotices :
    (isOpr noticed opr = true) ∧
    ((noticed.notices.find? fun y => y.port == (5 : Port) && y.kind == 0) = some aNotice) ∧
    ((noticed.notices.find? fun y => y.port == (7 : Port) && y.kind == 0) = none) := by and_intros <;> decide +kernel

def onSpineItem : SpineItem := { src := 0, dst := 12, out := 100, held := heldStore 0x020304 }

/-- SpineAndLigatures. -/
theorem witness_SpineAndLigatures :
    (RoutedTo inTransit (heldStore 0x020304).pkt.hdr (100 : Nat) ∧ (5 : BitVec 8).toNat < 128 ∧ (heldStore 0x020304).tile.val = (5 : BitVec 8).toNat / 8 ∧ inTransit.inputQ (5 : BitVec 8).toNat = [(heldStore 0x020304)] ∧ (heldStore 0x020304).kind = .wire ∧ isRequest (heldStore 0x020304).pkt.hdr.op = true ∧ (heldStore 0x020304).pkt.hdr.op ≠ Op.keyx ∧ ingressReject (takeInput inTransit (5 : BitVec 8).toNat (heldStore 0x020304)) (5 : BitVec 8).toNat (heldStore 0x020304) = none ∧ boundMeter inTransit (5 : BitVec 8).toNat (heldStore 0x020304).pkt.hdr.cls.toNat = none ∧ tileOfOutput (100 : Nat) (heldStore 0x020304).tile ≠ (heldStore 0x020304).tile) ∧
    (((∀ c', c' < (2 : Nat) → ((fun c => c == 2 || c == 5)) c' = false)) ∧ (7 : Nat) ≤ 7 ∧ 3 ≤ (7 : Nat) ∧ (2 : Nat) < 3 ∧ ((fun c => c == 2 || c == 5)) (2 : Nat) = true) ∧
    (((∀ c', 3 ≤ c' → c' ≤ 7 → (c' + 4 - (7 : Nat)) % 5 < ((3 : Nat) + 4 - (7 : Nat)) % 5 → ((fun c => c == 3 || c == 5)) c' = false)) ∧ (7 : Nat) ≤ 7 ∧ 3 ≤ (7 : Nat) ∧ ((∀ c', c' < 3 → ((fun c => c == 3 || c == 5)) c' = false)) ∧ 3 ≤ (3 : Nat) ∧ (3 : Nat) ≤ 7 ∧ ((fun c => c == 3 || c == 5)) (3 : Nat) = true) ∧
    (((∀ c', 3 ≤ c' → c' ≤ 7 → (c' + 4 - (3 : Nat)) % 5 < ((3 : Nat) + 4 - (3 : Nat)) % 5 → ((fun c => c == 3)) c' = false)) ∧ (3 : Nat) ≤ 7 ∧ 3 ≤ (3 : Nat) ∧ ((∀ c', c' < 3 → ((fun c => c == 3)) c' = false)) ∧ 3 ≤ (3 : Nat) ∧ (3 : Nat) ≤ 7 ∧ ((fun c => c == 3)) (3 : Nat) = true) ∧
    (((∀ r ∈ ([(5, 3), (4095, 0)] : List (BitVec 32 × BitVec 256)), r.1.toNat < 4096)) ∧ isOpr ligHeld opr = true) ∧
    (spineNext onSpine (12 : Tile).val = some ((3 : Nat), onSpineItem) ∧ onSpineItem.src = (0 : Tile) ∧ onSpineItem.out < 130 ∧ outputUp onSpine onSpineItem.out = true ∧ onSpineItem.held.pkt.hdr.cls ≠ 7) ∧
    (spineNext onSpine (12 : Tile).val = some ((3 : Nat), onSpineItem) ∧ onSpineItem.src ≠ (3 : Tile)) ∧
    ((3 : Nat) ≤ 7 ∧ 3 ≤ (3 : Nat) ∧ ((∀ c', c' < 8 → ((fun _ => false)) c' = false))) ∧
    ((4 : Nat) < 16 ∧ (4 : Nat) ∈ ([2, 4, 9] : List Nat) ∧ ((∀ t' ∈ ([2, 4, 9] : List Nat), t' < 16 → ((4 : Nat) + 15 - (3 : Nat) % 16) % 16 ≤ (t' + 15 - (3 : Nat) % 16) % 16))) ∧
    ((2 : Nat) < 16 ∧ (2 : Nat) ∈ ([2, 9, 15] : List Nat) ∧ ((∀ t' ∈ ([2, 9, 15] : List Nat), t' < 16 → ((2 : Nat) + 15 - (15 : Nat) % 16) % 16 ≤ (t' + 15 - (15 : Nat) % 16) % 16))) ∧
    (findLig ligHeld aKey = some aLig) ∧
    (findLig up aKey = none) := ⟨⟨routed_of (by decide +kernel), by and_intros <;> decide +kernel⟩,
    ⟨by decide +kernel, by and_intros <;> decide +kernel⟩,
    ⟨(by intro c' h1 h2; obtain h | h | h | h | h : c' = 3 ∨ c' = 4 ∨ c' = 5 ∨ c' = 6 ∨ c' = 7 := (by omega) <;> subst h <;> decide), by and_intros <;> decide +kernel⟩,
    ⟨(by intro c' h1 h2; obtain h | h | h | h | h : c' = 3 ∨ c' = 4 ∨ c' = 5 ∨ c' = 6 ∨ c' = 7 := (by omega) <;> subst h <;> decide), by and_intros <;> decide +kernel⟩,
    ⟨all_of (by decide +kernel), by decide +kernel⟩,
    by and_intros <;> decide +kernel⟩

def resending (xoff : BitVec 16) : State := (queued 100).modPort 100 fun v => { v with resend := [sentPacket], unacked := [sentPacket], xoffRx := xoff }

/-- OutputService. -/
theorem witness_OutputService :
    (((∀ c', outEligible up (100 : Output) c' = false)) ∧ (((100 : Output).val < 128 → (up.port (100 : Output)).resend = []))) ∧
    ((5 : Nat) < 8 ∧ isStrict (strictQueued 100) (100 : Output) (5 : Nat) = true ∧ outEligible (strictQueued 100) (100 : Output) (5 : Nat) = true ∧ ((∀ c', c' < (5 : Nat) → isStrict (strictQueued 100) (100 : Output) c' = true → outEligible (strictQueued 100) (100 : Output) c' = false))) ∧
    (selectClass (queued 128) (128 : Output) = (some (3 : Nat), ((selectClass (queued 128) 128).2)) ∧ queueHead (queued 128) (128 : Output) (3 : Nat) = some (heldStore 0x020304) ∧ 128 ≤ (128 : Output).val ∧ ((queued 128).hostP ((128 : Output).val - 128)).up = true) ∧
    (selectClass (queued 100) (100 : Output) = (some (3 : Nat), ((selectClass (queued 100) 100).2)) ∧ queueHead (queued 100) (100 : Output) (3 : Nat) = some (heldStore 0x020304) ∧ (100 : Output).val < 128 ∧ ((queued 100).port (100 : Output)).st = .active ∧ ((queued 100).port (100 : Output)).resend = [] ∧ replayAdmits ((queued 100).port (100 : Output)) (egressLen (queued 100) (100 : Output) (heldStore 0x020304)) = true) ∧
    ((100 : Output).val < 128 ∧ ((resending 0).port (100 : Output)).st = .active ∧ ((resending 0).port (100 : Output)).resend = sentPacket :: ([]) ∧ vcClear (resending 0) (100 : Output) (vcOf sentPacket.pkt.hdr) = true) ∧
    ((100 : Output).val < 128 ∧ ((resending 0xFFFF).port (100 : Output)).st = .active ∧ ((resending 0xFFFF).port (100 : Output)).resend = sentPacket :: ([]) ∧ vcClear (resending 0xFFFF) (100 : Output) (vcOf sentPacket.pkt.hdr) = false) := ⟨⟨(by intro c'; rfl), by decide +kernel⟩,
    by and_intros <;> decide +kernel⟩

/-- DwrrAlwaysServes. -/
theorem witness_DwrrAlwaysServes :
    (((∃ c ∈ dwrrRing (queued 100) (100 : Nat), outEligible (queued 100) (100 : Nat) c = true)) ∧ ((queued 100).outSt (100 : Nat)).deficit.length = 8 ∧ ((queued 100).outSt (100 : Nat)).fresh.length = 8 ∧ ((∀ c, c < 8 → 512 ≤ quantum (queued 100) (100 : Nat) c ∧ headLen (queued 100) (100 : Nat) c ≤ 2100))) ∧
    (isStrict (queued 100) (100 : Output) ((5 : BitVec 3)).toNat = false ∧ outEligible (queued 100) (100 : Output) ((5 : BitVec 3)).toNat = true) ∧
    (isStrict (queued 100) (100 : Output) ((5 : BitVec 3)).toNat = false ∧ outEligible (queued 100) (100 : Output) ((5 : BitVec 3)).toNat = true ∧ Sparse.get 0 (queued 100).limits (0x020D * 2 ^ 40 + (100 : Output).val) = 0) ∧
    ((isStrict (queued 100) (100 : Output) ((0 : BitVec 3)).toNat = true ∨ outEligible (queued 100) (100 : Output) ((0 : BitVec 3)).toNat = false)) ∧
    ((isStrict (queued 100) (100 : Output) ((6 : BitVec 3)).toNat = true ∨ outEligible (queued 100) (100 : Output) ((6 : BitVec 3)).toNat = false)) := ⟨⟨any_of (by decide +kernel), by and_intros <;> decide +kernel⟩,
    by and_intros <;> decide +kernel⟩

def metered : State := { (strictQueued 100).setMeter 7 { staged := some 5, tp := 3 } with holds := [{ port := 5, cls := 3, meter := 7 }, { port := 5, cls := 3, meter := 8 }] }

/-- BucketsAndQueueConfiguration. -/
theorem witness_BucketsAndQueueConfiguration :
    (((∀ e ∈ metered.outs, ∀ x ∈ e.2.wrote, x.2.2 ≠ metered.timebase)) ∧ (metered.meters.map (·.1)).Nodup) ∧
    ((metered.meters.map (·.1)).Nodup) ∧
    ((0 : Nat) = 0) ∧
    (0 < (100 : Nat) ∧ (8092 : Int) + (100 : Nat) ≤ (max (8192 : Nat) ((100 : Nat) + 2100) : Nat)) ∧
    (mayWriteOutput up opr (100 : Output) = true ∧ (0x45 : BitVec 8).toNat % 2 = 1 ∧ ((List.range 8).filter (bit (0x45 : BitVec 8).toNat)).length ≤ 3) ∧
    (mayWriteOutput up opr (100 : Output) = true ∧ ((0x44 : BitVec 8).toNat % 2 = 0 ∨ 3 < ((List.range 8).filter (bit (0x44 : BitVec 8).toNat)).length)) ∧
    (mayWriteOutput up opr (100 : Output) = true ∧ ((0x4B : BitVec 8).toNat % 2 = 0 ∨ 3 < ((List.range 8).filter (bit (0x4B : BitVec 8).toNat)).length)) ∧
    (mayWriteOutput up opr (100 : Output) = true ∧ (5 : BitVec 32).toNat < up.o (outObj (100 : Output) 1 (profileSub (.yellow : Colour) .max))) ∧
    (mayWriteOutput up opr (100 : Output) = true ∧ up.o (outObj (100 : Output) 1 (profileSub (.yellow : Colour) .min)) < (100000 : BitVec 32).toNat) ∧
    (mayWriteOutput up opr (100 : Output) = true ∧ up.o (outObj (100 : Output) 1 (profileSub (.yellow : Colour) .max)) ≤ (100000 : BitVec 32).toNat) ∧
    ((0) = meterOwner ((up.meter (0 : BitVec 32).toNat).staged.getD (up.meter (0 : BitVec 32).toNat).word) ∧ (0) = meterOwner (canonMeter (0 : BitVec 192)) ∧ oprOver up opr (0) = true ∧ (((0) = (0) ∨ (resourcesOpen up (0) = true ∧ resourcesOpen up (0) = true))) ∧ meterExists up (0 : BitVec 32).toNat = true ∧ meterCir (canonMeter (0 : BitVec 192)) ≤ meterPir (canonMeter (0 : BitVec 192)) ∧ meterPir (canonMeter (0 : BitVec 192)) ≤ 100000 ∧ partConfigured up (0) = true) := ⟨⟨all_of (by decide +kernel), by decide +kernel⟩,
    by and_intros <;> decide +kernel⟩

def loadM (op : BitVec 8) : Msg := msg op 3 0x20 3 []

def storeM (op : BitVec 8) : Msg := msg op 3 0x20 0 (body16 7 ++ body16 8)

/-- LoadsAndStores. -/
theorem witness_LoadsAndStores :
    (PlainRun withMem (loadM Op.load).hdr.part.toNat (loadM Op.load).hdr.addr.toNat (loadLen (loadM Op.load).hdr) (physSlice 4 + 0x20) false ∧ ((loadM Op.load).hdr.op = Op.load ∨ (loadM Op.load).hdr.op = Op.bulkLoad) ∧ (loadM Op.load).hdr.addr.toNat % 16 = 0 ∧ loadVrec (loadM Op.load).hdr = false ∧ mustWait withMem (loadM Op.load) = false ∧ ((.load (loadM Op.load) : Instr) = .load (loadM Op.load) ∨ (.load (loadM Op.load) : Instr) = .bulkLoad (loadM Op.load))) ∧
    (PlainRun withMem (loadM Op.bulkLoad).hdr.part.toNat (loadM Op.bulkLoad).hdr.addr.toNat (loadLen (loadM Op.bulkLoad).hdr) (physSlice 4 + 0x20) false ∧ ((loadM Op.bulkLoad).hdr.op = Op.load ∨ (loadM Op.bulkLoad).hdr.op = Op.bulkLoad) ∧ (loadM Op.bulkLoad).hdr.addr.toNat % 16 = 0 ∧ loadVrec (loadM Op.bulkLoad).hdr = false ∧ mustWait withMem (loadM Op.bulkLoad) = false ∧ ((.bulkLoad (loadM Op.bulkLoad) : Instr) = .load (loadM Op.bulkLoad) ∨ (.bulkLoad (loadM Op.bulkLoad) : Instr) = .bulkLoad (loadM Op.bulkLoad))) ∧
    (FirstTime withMem (storeM Op.store).hdr ∧ PlainRun withMem (storeM Op.store).hdr.part.toNat (storeM Op.store).hdr.addr.toNat (storeM Op.store).body.length (physSlice 4 + 0x20) true ∧ ((storeM Op.store).hdr.op = Op.store ∨ (storeM Op.store).hdr.op = Op.bulkStore) ∧ (storeM Op.store).hdr.addr.toNat % 16 = 0 ∧ mustWait withMem (storeM Op.store) = false ∧ ((.store (storeM Op.store) : Instr) = .store (storeM Op.store) ∨ (.store (storeM Op.store) : Instr) = .bulkStore (storeM Op.store))) ∧
    (FirstTime withMem (storeM Op.bulkStore).hdr ∧ PlainRun withMem (storeM Op.bulkStore).hdr.part.toNat (storeM Op.bulkStore).hdr.addr.toNat (storeM Op.bulkStore).body.length (physSlice 4 + 0x20) true ∧ ((storeM Op.bulkStore).hdr.op = Op.store ∨ (storeM Op.bulkStore).hdr.op = Op.bulkStore) ∧ (storeM Op.bulkStore).hdr.addr.toNat % 16 = 0 ∧ mustWait withMem (storeM Op.bulkStore) = false ∧ ((.bulkStore (storeM Op.bulkStore) : Instr) = .store (storeM Op.bulkStore) ∨ (.bulkStore (storeM Op.bulkStore) : Instr) = .bulkStore (storeM Op.bulkStore))) := ⟨⟨plainRun_of (by decide +kernel), by and_intros <;> decide +kernel⟩,
    ⟨plainRun_of (by decide +kernel), by and_intros <;> decide +kernel⟩,
    ⟨(by unfold FirstTime; decide +kernel), plainRun_of (by decide +kernel), by and_intros <;> decide +kernel⟩,
    ⟨(by unfold FirstTime; decide +kernel), plainRun_of (by decide +kernel), by and_intros <;> decide +kernel⟩⟩

def atomicM (op : BitVec 8) (cls : BitVec 3) (a : Addr) (aop aty : Nat) : Msg := msg op cls a (BitVec.ofNat 32 (aop + 16 * aty)) (leBytes 16 (0x4041424344 + 5 * 2 ^ 64))

def fillM : Msg := msg Op.fill 3 0x20 3 (body16 9)

def copyM (src len : Nat) : Msg := msg Op.copy 3 0x1000 0 (leBytes 16 (src + len * 2 ^ 64))

/-- AtomicsFillAndCopy. -/
theorem witness_AtomicsFillAndCopy :
    (FirstTime withMem (atomicM Op.atomic 3 0x48 1 1).hdr ∧ PlainRun withMem (atomicM Op.atomic 3 0x48 1 1).hdr.part.toNat (atomicM Op.atomic 3 0x48 1 1).hdr.addr.toNat (atomicWidth (atomicM Op.atomic 3 0x48 1 1).hdr) (physSlice 4 + 0x48) true ∧ (atomicM Op.atomic 3 0x48 1 1).hdr.op = Op.atomic ∧ atomicDefined (atomicM Op.atomic 3 0x48 1 1).hdr = true ∧ (atomicM Op.atomic 3 0x48 1 1).body.length = 16 ∧ (atomicM Op.atomic 3 0x48 1 1).hdr.addr.toNat % atomicWidth (atomicM Op.atomic 3 0x48 1 1).hdr = 0 ∧ mustWait withMem (atomicM Op.atomic 3 0x48 1 1) = false ∧ (atomicM Op.atomic 3 0x48 1 1).hdr.mcast = false ∧ atomicResult (aopOf (atomicM Op.atomic 3 0x48 1 1).hdr) (atypeOf (atomicM Op.atomic 3 0x48 1 1).hdr) (leNat (Memory.readN withMem.mem (physSlice 4 + 0x48) (atomicWidth (atomicM Op.atomic 3 0x48 1 1).hdr))) (atomicOpa (atomicM Op.atomic 3 0x48 1 1).body) (atomicOpb (atomicM Op.atomic 3 0x48 1 1).body) = some ((5714590243228519564 : Nat), false)) ∧
    (FirstTime withMem fillM.hdr ∧ PlainRun withMem fillM.hdr.part.toNat fillM.hdr.addr.toNat (fillLen fillM.hdr) (physSlice 4 + 0x20) true ∧ fillM.body.length = 16 ∧ mustWait withMem fillM = false ∧ fillM.hdr.mcast = false ∧ fillM.hdr.op = Op.fill) ∧
    (FirstTime withMem (copyM 0x20 64).hdr ∧ PlainRun withMem (copyM 0x20 64).hdr.part.toNat (copyM 0x20 64).hdr.addr.toNat (copyLen (copyM 0x20 64).body) (physSlice 4 + 0x1000) true ∧ PlainRun withMem (copyM 0x20 64).hdr.part.toNat (copySrc (copyM 0x20 64).body) (copyLen (copyM 0x20 64).body) (physSlice 4 + 0x20) false ∧ (copyM 0x20 64).body.length = 16 ∧ mustWait withMem (copyM 0x20 64) = false ∧ (copyM 0x20 64).hdr.mcast = false ∧ (copyM 0x20 64).hdr.op = Op.copy ∧ copyLenOk (copyLen (copyM 0x20 64).body) = true) := ⟨⟨(by unfold FirstTime; decide +kernel), plainRun_of (by decide +kernel), by and_intros <;> decide +kernel⟩,
    ⟨(by unfold FirstTime; decide +kernel), plainRun_of (by decide +kernel), by and_intros <;> decide +kernel⟩,
    ⟨(by unfold FirstTime; decide +kernel), plainRun_of (by decide +kernel), plainRun_of (by decide +kernel), by and_intros <;> decide +kernel⟩⟩

def compareM : Msg := msg Op.compare 3 0 0 (leBytes 16 (0x20 + 64 * 2 ^ 64) ++ body16 0)

/-- MEM_REDUCE of 512 FP32 elements by sum, at the last address of a 64 KiB block it may have. -/

def reduceM : Msg := msg Op.memReduce 3 0xF800 0 (leBytes 16 (512 * 2 ^ 32) ++ List.replicate 2048 0x40)

/-- CompareAndReduce. -/
theorem witness_CompareAndReduce :
    (PlainRun withMem compareM.hdr.part.toNat compareM.hdr.addr.toNat (copyLen compareM.body) (physSlice 4) false ∧ PlainRun withMem compareM.hdr.part.toNat (copySrc compareM.body) (copyLen compareM.body) (physSlice 4 + 0x20) false ∧ mustWait withMem compareM = false ∧ compareM.hdr.op = Op.compare ∧ compareM.body.length = 32 ∧ copyLenOk (copyLen compareM.body) = true ∧ cmpMode compareM.body = false) ∧
    (FirstTime withMem reduceM.hdr ∧ PlainRun withMem reduceM.hdr.part.toNat reduceM.hdr.addr.toNat (mrLen (({ rop := .sum, ifmt := .fp32, mfmt := .fp32, sat := false, nel := 512 } : MrOp))) (physSlice 4 + 0xF800) true ∧ PlainRun withMem reduceM.hdr.part.toNat reduceM.hdr.addr.toNat (mrLen (({ rop := .sum, ifmt := .fp32, mfmt := .fp32, sat := false, nel := 512 } : MrOp))) (physSlice 4 + 0xF800) false ∧ mustWait withMem reduceM = false ∧ reduceM.hdr.op = Op.memReduce ∧ reduceM.hdr.mcast = false ∧ mrOp reduceM = some (({ rop := .sum, ifmt := .fp32, mfmt := .fp32, sat := false, nel := 512 } : MrOp)) ∧ reduceM.hdr.addr.toNat % 65536 + mrLen (({ rop := .sum, ifmt := .fp32, mfmt := .fp32, sat := false, nel := 512 } : MrOp)) ≤ 65536) := ⟨⟨plainRun_of (by decide +kernel), plainRun_of (by decide +kernel), by and_intros <;> decide +kernel⟩,
    ⟨(by unfold FirstTime; decide +kernel), plainRun_of (by decide +kernel), plainRun_of (by decide +kernel), by and_intros <;> decide +kernel⟩⟩

/-- OnceIsOnce. -/
theorem witness_OnceIsOnce :
    ((storeM Op.store).hdr.op ∈ onceOps ∧ findOp (({ withMem with opRecs := [doneRec] } : State)) (storeM Op.store).hdr = some doneRec ∧ doneRec.done = true ∧ mustWait (({ withMem with opRecs := [doneRec] } : State)) (storeM Op.store) = false ∧ ((.store (storeM Op.store) : Instr) = .store (storeM Op.store) ∨ (.store (storeM Op.store) : Instr) = .bulkStore (storeM Op.store) ∨ (.store (storeM Op.store) : Instr) = .atomic (storeM Op.store) ∨ (.store (storeM Op.store) : Instr) = .fill (storeM Op.store) ∨ (.store (storeM Op.store) : Instr) = .copy (storeM Op.store) ∨ (.store (storeM Op.store) : Instr) = .memReduce (storeM Op.store) ∨ (.store (storeM Op.store) : Instr) = .publish (storeM Op.store))) ∧
    ((storeM Op.publish).hdr.op ∈ onceOps ∧ findOp (({ withMem with opRecs := [{ doneRec with ndup := 255 }] } : State)) (storeM Op.publish).hdr = some (({ doneRec with ndup := 255 } : OpRec)) ∧ (({ doneRec with ndup := 255 } : OpRec)).done = true ∧ mustWait (({ withMem with opRecs := [{ doneRec with ndup := 255 }] } : State)) (storeM Op.publish) = false ∧ ((.publish (storeM Op.publish) : Instr) = .store (storeM Op.publish) ∨ (.publish (storeM Op.publish) : Instr) = .bulkStore (storeM Op.publish) ∨ (.publish (storeM Op.publish) : Instr) = .atomic (storeM Op.publish) ∨ (.publish (storeM Op.publish) : Instr) = .fill (storeM Op.publish) ∨ (.publish (storeM Op.publish) : Instr) = .copy (storeM Op.publish) ∨ (.publish (storeM Op.publish) : Instr) = .memReduce (storeM Op.publish) ∨ (.publish (storeM Op.publish) : Instr) = .publish (storeM Op.publish))) ∧
    ((storeM Op.atomic).hdr.op ∈ onceOps ∧ findOp (({ withMem with opRecs := [doneRec] } : State)) (storeM Op.atomic).hdr = some doneRec ∧ doneRec.done = true ∧ mustWait (({ withMem with opRecs := [doneRec] } : State)) (storeM Op.atomic) = false ∧ ((.atomic (storeM Op.atomic) : Instr) = .store (storeM Op.atomic) ∨ (.atomic (storeM Op.atomic) : Instr) = .bulkStore (storeM Op.atomic) ∨ (.atomic (storeM Op.atomic) : Instr) = .atomic (storeM Op.atomic) ∨ (.atomic (storeM Op.atomic) : Instr) = .fill (storeM Op.atomic) ∨ (.atomic (storeM Op.atomic) : Instr) = .copy (storeM Op.atomic) ∨ (.atomic (storeM Op.atomic) : Instr) = .memReduce (storeM Op.atomic) ∨ (.atomic (storeM Op.atomic) : Instr) = .publish (storeM Op.atomic))) ∧
    ((storeM Op.memReduce).hdr.op ∈ onceOps ∧ findOp (({ withMem with opRecs := [doneRec] } : State)) (storeM Op.memReduce).hdr = some doneRec ∧ doneRec.done = true ∧ mustWait (({ withMem with opRecs := [doneRec] } : State)) (storeM Op.memReduce) = false ∧ ((.memReduce (storeM Op.memReduce) : Instr) = .store (storeM Op.memReduce) ∨ (.memReduce (storeM Op.memReduce) : Instr) = .bulkStore (storeM Op.memReduce) ∨ (.memReduce (storeM Op.memReduce) : Instr) = .atomic (storeM Op.memReduce) ∨ (.memReduce (storeM Op.memReduce) : Instr) = .fill (storeM Op.memReduce) ∨ (.memReduce (storeM Op.memReduce) : Instr) = .copy (storeM Op.memReduce) ∨ (.memReduce (storeM Op.memReduce) : Instr) = .memReduce (storeM Op.memReduce) ∨ (.memReduce (storeM Op.memReduce) : Instr) = .publish (storeM Op.memReduce))) := by and_intros <;> decide +kernel

/-- AddressDecodingAndRefusals. -/
theorem witness_AddressDecodingAndRefusals :
    (resolveFlat (objAt .home 0) (0 : Nat) (0x100000 : Nat) (16 : Nat) false = .ok (({ loc := .phys (physSlice 4 + 0x100000), len := 16, addr := 0x100000, tier := 1 } : Seg)) ∧ spaceOf (0x100000 : Nat) < 2 ∧ touchesObject (objAt .home 0) (0 : Nat) (0x100000 : Nat) (16 : Nat) = true) ∧
    (planOf withMem (msg Op.load 3 (BitVec.ofNat 56 (2 ^ 26 * 5)) 0 []) = .err (St.accessDenied) ∧ (((msg Op.load 3 (BitVec.ofNat 56 (2 ^ 26 * 5)) 0 []).hdr.op ∈ onceOps → FirstTime withMem (msg Op.load 3 (BitVec.ofNat 56 (2 ^ 26 * 5)) 0 []).hdr ∧ (msg Op.load 3 (BitVec.ofNat 56 (2 ^ 26 * 5)) 0 []).hdr.mcast = false)) ∧ mustWait withMem (msg Op.load 3 (BitVec.ofNat 56 (2 ^ 26 * 5)) 0 []) = false ∧ ((.load (msg Op.load 3 (BitVec.ofNat 56 (2 ^ 26 * 5)) 0 []) : Instr) = .load (msg Op.load 3 (BitVec.ofNat 56 (2 ^ 26 * 5)) 0 []) ∨ (.load (msg Op.load 3 (BitVec.ofNat 56 (2 ^ 26 * 5)) 0 []) : Instr) = .bulkLoad (msg Op.load 3 (BitVec.ofNat 56 (2 ^ 26 * 5)) 0 []) ∨ (.load (msg Op.load 3 (BitVec.ofNat 56 (2 ^ 26 * 5)) 0 []) : Instr) = .store (msg Op.load 3 (BitVec.ofNat 56 (2 ^ 26 * 5)) 0 []) ∨ (.load (msg Op.load 3 (BitVec.ofNat 56 (2 ^ 26 * 5)) 0 []) : Instr) = .bulkStore (msg Op.load 3 (BitVec.ofNat 56 (2 ^ 26 * 5)) 0 []) ∨ (.load (msg Op.load 3 (BitVec.ofNat 56 (2 ^ 26 * 5)) 0 []) : Instr) = .atomic (msg Op.load 3 (BitVec.ofNat 56 (2 ^ 26 * 5)) 0 []) ∨ (.load (msg Op.load 3 (BitVec.ofNat 56 (2 ^ 26 * 5)) 0 []) : Instr) = .fill (msg Op.load 3 (BitVec.ofNat 56 (2 ^ 26 * 5)) 0 []) ∨ (.load (msg Op.load 3 (BitVec.ofNat 56 (2 ^ 26 * 5)) 0 []) : Instr) = .copy (msg Op.load 3 (BitVec.ofNat 56 (2 ^ 26 * 5)) 0 []) ∨ (.load (msg Op.load 3 (BitVec.ofNat 56 (2 ^ 26 * 5)) 0 []) : Instr) = .compare (msg Op.load 3 (BitVec.ofNat 56 (2 ^ 26 * 5)) 0 []) ∨ (.load (msg Op.load 3 (BitVec.ofNat 56 (2 ^ 26 * 5)) 0 []) : Instr) = .memReduce (msg Op.load 3 (BitVec.ofNat 56 (2 ^ 26 * 5)) 0 []))) ∧
    (planOf withMem (msg Op.store 3 (BitVec.ofNat 56 (2 ^ 26 - 16)) 0 (body16 7 ++ body16 8)) = .err (St.boundExceeded) ∧ (((msg Op.store 3 (BitVec.ofNat 56 (2 ^ 26 - 16)) 0 (body16 7 ++ body16 8)).hdr.op ∈ onceOps → FirstTime withMem (msg Op.store 3 (BitVec.ofNat 56 (2 ^ 26 - 16)) 0 (body16 7 ++ body16 8)).hdr ∧ (msg Op.store 3 (BitVec.ofNat 56 (2 ^ 26 - 16)) 0 (body16 7 ++ body16 8)).hdr.mcast = false)) ∧ mustWait withMem (msg Op.store 3 (BitVec.ofNat 56 (2 ^ 26 - 16)) 0 (body16 7 ++ body16 8)) = false ∧ ((.store (msg Op.store 3 (BitVec.ofNat 56 (2 ^ 26 - 16)) 0 (body16 7 ++ body16 8)) : Instr) = .load (msg Op.store 3 (BitVec.ofNat 56 (2 ^ 26 - 16)) 0 (body16 7 ++ body16 8)) ∨ (.store (msg Op.store 3 (BitVec.ofNat 56 (2 ^ 26 - 16)) 0 (body16 7 ++ body16 8)) : Instr) = .bulkLoad (msg Op.store 3 (BitVec.ofNat 56 (2 ^ 26 - 16)) 0 (body16 7 ++ body16 8)) ∨ (.store (msg Op.store 3 (BitVec.ofNat 56 (2 ^ 26 - 16)) 0 (body16 7 ++ body16 8)) : Instr) = .store (msg Op.store 3 (BitVec.ofNat 56 (2 ^ 26 - 16)) 0 (body16 7 ++ body16 8)) ∨ (.store (msg Op.store 3 (BitVec.ofNat 56 (2 ^ 26 - 16)) 0 (body16 7 ++ body16 8)) : Instr) = .bulkStore (msg Op.store 3 (BitVec.ofNat 56 (2 ^ 26 - 16)) 0 (body16 7 ++ body16 8)) ∨ (.store (msg Op.store 3 (BitVec.ofNat 56 (2 ^ 26 - 16)) 0 (body16 7 ++ body16 8)) : Instr) = .atomic (msg Op.store 3 (BitVec.ofNat 56 (2 ^ 26 - 16)) 0 (body16 7 ++ body16 8)) ∨ (.store (msg Op.store 3 (BitVec.ofNat 56 (2 ^ 26 - 16)) 0 (body16 7 ++ body16 8)) : Instr) = .fill (msg Op.store 3 (BitVec.ofNat 56 (2 ^ 26 - 16)) 0 (body16 7 ++ body16 8)) ∨ (.store (msg Op.store 3 (BitVec.ofNat 56 (2 ^ 26 - 16)) 0 (body16 7 ++ body16 8)) : Instr) = .copy (msg Op.store 3 (BitVec.ofNat 56 (2 ^ 26 - 16)) 0 (body16 7 ++ body16 8)) ∨ (.store (msg Op.store 3 (BitVec.ofNat 56 (2 ^ 26 - 16)) 0 (body16 7 ++ body16 8)) : Instr) = .compare (msg Op.store 3 (BitVec.ofNat 56 (2 ^ 26 - 16)) 0 (body16 7 ++ body16 8)) ∨ (.store (msg Op.store 3 (BitVec.ofNat 56 (2 ^ 26 - 16)) 0 (body16 7 ++ body16 8)) : Instr) = .memReduce (msg Op.store 3 (BitVec.ofNat 56 (2 ^ 26 - 16)) 0 (body16 7 ++ body16 8)))) ∧
    (spaceOf (2 ^ 33 - 16 : Nat) = 0 ∧ bits (2 ^ 33 - 16 : Nat) 47 33 = 0 ∧ sliceOf withMem (0 : Nat) (bits (2 ^ 33 - 16 : Nat) 32 26) = none) ∧
    (spaceOf (2 ^ 26 - 16 : Nat) = 0 ∧ bits (2 ^ 26 - 16 : Nat) 47 33 = 0 ∧ sliceOf withMem (0 : Nat) (bits (2 ^ 26 - 16 : Nat) 32 26) = some (4) ∧ 2 ^ 26 < (2 ^ 26 - 16 : Nat) % 2 ^ 26 + (17 : Nat)) ∧
    (spaceOf (2 ^ 26 - 16 : Nat) = 0 ∧ bits (2 ^ 26 - 16 : Nat) 47 33 = 0 ∧ sliceOf withMem (0 : Nat) (bits (2 ^ 26 - 16 : Nat) 32 26) = some (4) ∧ (2 ^ 26 - 16 : Nat) % 2 ^ 26 + (16 : Nat) ≤ 2 ^ 26) ∧
    (spaceOf (2 ^ 48 : Nat) = 1 ∧ bits (2 ^ 48 : Nat) 47 44 = 0 ∧ findFolio withMem (0 : Nat) (bits (2 ^ 48 : Nat) 43 28) = none) ∧
    (spaceOf (2 ^ 48 : Nat) = 1 ∧ bits (2 ^ 48 : Nat) 47 44 = 0 ∧ findFolio (folioS .draining 0) (0 : Nat) (bits (2 ^ 48 : Nat) 43 28) = some ((3), ((folioS .draining 0).folio 3)) ∧ ((folioS .draining 0).folio 3).st ≠ .granted) ∧
    (spaceOf (2 ^ 48 : Nat) = 1 ∧ bits (2 ^ 48 : Nat) 47 44 = 0 ∧ findFolio (folioS .granted 0 |>.setFolio 3 { st := .granted, word := folWord 0 + 2 ^ 252 }) (0 : Nat) (bits (2 ^ 48 : Nat) 43 28) = some ((3), (({ st := .granted, word := folWord 0 + 2 ^ 252 } : Folio))) ∧ (({ st := .granted, word := folWord 0 + 2 ^ 252 } : Folio)).st = .granted ∧ folRo (({ st := .granted, word := folWord 0 + 2 ^ 252 } : Folio)).word = true ∧ true = true) ∧
    (spaceOf (2 ^ 48 + 2 ^ 28 - 16 : Nat) = 1 ∧ bits (2 ^ 48 + 2 ^ 28 - 16 : Nat) 47 44 = 0 ∧ findFolio (folioS .granted 0) (0 : Nat) (bits (2 ^ 48 + 2 ^ 28 - 16 : Nat) 43 28) = some ((3), ((folioS .granted 0).folio 3)) ∧ ((folioS .granted 0).folio 3).st = .granted ∧ ((folRo ((folioS .granted 0).folio 3).word = false ∨ true = false)) ∧ folHomek ((folioS .granted 0).folio 3).word = 0 ∧ (2 ^ 48 + 2 ^ 28 - 16 : Nat) % 2 ^ 28 + (16 : Nat) ≤ 2 ^ 28) := ⟨⟨by rfl, by and_intros <;> decide +kernel⟩,
    ⟨by rfl, fun _ => by unfold FirstTime; decide +kernel, by and_intros <;> decide +kernel⟩,
    ⟨by rfl, fun _ => by unfold FirstTime; decide +kernel, by and_intros <;> decide +kernel⟩,
    by and_intros <;> decide +kernel⟩

/-- Completions. -/
theorem witness_Completions :
    ((body16 3).length % 16 = 0 ∧ 0 < (body16 3).length ∧ (body16 3).length ≤ 2 ^ 23) ∧
    ((List.replicate 2064 3).length % 16 = 0 ∧ 0 < (List.replicate 2064 3).length ∧ (List.replicate 2064 (3 : Byte)).length ≤ 2 ^ 23 ∧ (mkCmplData up (hdr Op.load 3) ((0 : BitVec 8)) ((9 : BitVec 16)) (List.replicate 2064 3))[(1)]? = some (((mkCmplData up (hdr Op.load 3) 0 9 (List.replicate 2064 3))[1]?).getD ⟨hdr Op.load 3, []⟩)) := by and_intros <;> decide +kernel

/-- RequestEndsAndReplay. -/
theorem witness_RequestEndsAndReplay :
    (((∀ x, x.pkt = passing → x.kind = .wire → ingressReject { withRouteBack with serial := withRouteBack.serial + 1 } (5 : BitVec 8).toNat x = none)) ∧ RoutedTo withRouteBack passing.hdr (100 : Nat) ∧ findTag withRouteBack aKey = some aTag ∧ (5 : BitVec 8).toNat < 128 ∧ withRouteBack.inputQ (5 : BitVec 8).toNat = [] ∧ passing.hdr.op = Op.cmpl ∧ cmplKey passing.hdr = aKey ∧ isOwnKeyx withRouteBack (5 : BitVec 8).toNat passing.hdr = false ∧ opAllowed passing.hdr.op passing.hdr.cls = true ∧ boundMeter withRouteBack (5 : BitVec 8).toNat passing.hdr.cls.toNat = none ∧ aggregateOf withRouteBack (5 : BitVec 8).toNat passing.hdr = none ∧ (100 : Nat) < 128 ∧ (100 : Nat) / 8 ≠ (5 : BitVec 8).toNat / 8) ∧
    (findTag (outstanding 3) aKey = some aTag ∧ aTag.cls = 3) ∧
    (findTag (outstanding 7) aKey = some (({ aTag with cls := 7 } : TagEntry)) ∧ (({ aTag with cls := 7 } : TagEntry)).cls = 7) ∧
    (findJournal (journalS (jrec true 0 2)) aKey = some (jrec true 0 2) ∧ (jrec true 0 2).held = true ∧ (jrec true 0 2).rkind ≠ 2 ∧ (jrec true 0 2).hdr.cls ≠ 1 ∧ (jrec true 0 2).hdr.cls ≠ 2 ∧ (jrec true 0 2).att < 3) ∧
    (findJournal (journalS (jrec true 0 3)) aKey = some (jrec true 0 3) ∧ (jrec true 0 3).held = true ∧ (jrec true 0 3).rkind ≠ 2 ∧ (jrec true 0 3).hdr.cls ≠ 1 ∧ (jrec true 0 3).hdr.cls ≠ 2 ∧ 3 ≤ (jrec true 0 3).att) ∧
    (findJournal (journalS (jrec false 0 3)) aKey = some (jrec false 0 3) ∧ ((jrec false 0 3).held = false ∨ (jrec false 0 3).rkind = 2 ∨ (jrec false 0 3).hdr.cls = 1 ∨ (jrec false 0 3).hdr.cls = 2)) ∧
    (findJournal (journalS (jrec false 1 1)) aKey = some (jrec false 1 1) ∧ (jrec false 1 1).rkind = 1 ∧ (jrec false 1 1).held = false ∧ ((jrec false 1 1).hdr.cls = 0 ∨ (jrec false 1 1).hdr.cls = 5)) ∧
    (findJournal (journalS (jrec true 1 1)) aKey = some (jrec true 1 1) ∧ (jrec true 1 1).held = true) ∧
    (findJournal (journalS (jrec true 1 1)) aKey = some (jrec true 1 1)) := ⟨⟨(by intro x h1 h2; cases x; cases h1; cases h2; rfl), routed_of (by decide +kernel), by and_intros <;> decide +kernel⟩,
    by and_intros <;> decide +kernel⟩

/-- CoherentRequests. -/
theorem witness_CoherentRequests :
    (routeC1 (owned {}) (c1 Op.rdShared []) = .ok ((0 : Part), (0 : Nat), lineNo, (0x80 : Addr)) ∧ readLine (owned {}) lineNo = some (Memory.readN (owned {}).mem (linePhys lineNo) 128) ∧ lineBusy (owned {}) lineNo = false ∧ (owned {}).cohWait = [] ∧ (c1 Op.rdShared []).hdr.op = Op.rdShared ∧ (dirEntry (owned {}) lineNo).ownerOf = none) ∧
    (routeC1 (owned {}) (c1 Op.rdOwn []) = .ok ((0 : Part), (0 : Nat), lineNo, (0x80 : Addr)) ∧ readLine (owned {}) lineNo = some (Memory.readN (owned {}).mem (linePhys lineNo) 128) ∧ lineBusy (owned {}) lineNo = false ∧ (owned {}).cohWait = [] ∧ (c1 Op.rdOwn []).hdr.op = Op.rdOwn ∧ dirEntry (owned {}) lineNo = {}) ∧
    (routeC1 (owned { st := .s, sharers := 1 }) (c1 Op.upgrade []) = .ok ((0 : Part), (0 : Nat), lineNo, (0x80 : Addr)) ∧ lineBusy (owned { st := .s, sharers := 1 }) lineNo = false ∧ (owned { st := .s, sharers := 1 }).cohWait = [] ∧ (c1 Op.upgrade []).hdr.op = Op.upgrade ∧ (dirEntry (owned { st := .s, sharers := 1 }) lineNo).holders = [(0 : Nat)]) ∧
    (routeC1 (owned (ownedBy 1)) (c1 Op.rdShared []) = .ok ((0 : Part), (0 : Nat), lineNo, (0x80 : Addr)) ∧ lineBusy (owned (ownedBy 1)) lineNo = false ∧ (owned (ownedBy 1)).cohWait = [] ∧ (dirEntry (owned (ownedBy 1)) lineNo).ownerOf = some (1) ∧ (dirEntry (owned (ownedBy 1)) lineNo).sharers = 0 ∧ (((.rdShared (c1 Op.rdShared []) : Instr) = .rdShared (c1 Op.rdShared []) ∧ (c1 Op.rdShared []).hdr.op = Op.rdShared ∧ snpShared = snpShared) ∨ ((.rdShared (c1 Op.rdShared []) : Instr) = .rdOwn (c1 Op.rdShared []) ∧ (c1 Op.rdShared []).hdr.op = Op.rdOwn ∧ snpShared = snpOwn))) ∧
    (routeC1 (owned (ownedBy 1)) (c1 Op.rdOwn []) = .ok ((0 : Part), (0 : Nat), lineNo, (0x80 : Addr)) ∧ lineBusy (owned (ownedBy 1)) lineNo = false ∧ (owned (ownedBy 1)).cohWait = [] ∧ (dirEntry (owned (ownedBy 1)) lineNo).ownerOf = some (1) ∧ (dirEntry (owned (ownedBy 1)) lineNo).sharers = 0 ∧ (((.rdOwn (c1 Op.rdOwn []) : Instr) = .rdShared (c1 Op.rdOwn []) ∧ (c1 Op.rdOwn []).hdr.op = Op.rdShared ∧ snpOwn = snpShared) ∨ ((.rdOwn (c1 Op.rdOwn []) : Instr) = .rdOwn (c1 Op.rdOwn []) ∧ (c1 Op.rdOwn []).hdr.op = Op.rdOwn ∧ snpOwn = snpOwn))) ∧
    (routeC1 (owned (ownedBy 0)) (c1 Op.writeback (List.replicate 128 0x55)) = .ok ((0 : Part), (0 : Nat), lineNo, (0x80 : Addr)) ∧ firstDead (owned (ownedBy 0)) (linePhys lineNo) 128 = none ∧ lineBusy (owned (ownedBy 0)) lineNo = false ∧ (owned (ownedBy 0)).cohWait = [] ∧ (c1 Op.writeback (List.replicate 128 0x55)).hdr.op = Op.writeback ∧ dirEntry (owned (ownedBy 0)) lineNo = ownedBy (0 : Nat)) ∧
    (routeC1 (owned (ownedBy 0)) (c1 Op.evict []) = .ok ((0 : Part), (0 : Nat), lineNo, (0x80 : Addr)) ∧ firstDead (owned (ownedBy 0)) (linePhys lineNo) 128 = none ∧ lineBusy (owned (ownedBy 0)) lineNo = false ∧ (owned (ownedBy 0)).cohWait = [] ∧ (c1 Op.evict []).hdr.op = Op.evict ∧ dirEntry (owned (ownedBy 0)) lineNo = ownedBy (0 : Nat)) ∧
    (routeC1 (owned {}) (atomicM Op.homeAtomic 1 0x88 1 1) = .ok ((0 : Part), (0 : Nat), lineNo, (0x80 : Addr)) ∧ firstDead (owned {}) (linePhys lineNo) 128 = none ∧ firstDead (owned {}) (linePhys lineNo + (atomicM Op.homeAtomic 1 0x88 1 1).hdr.addr.toNat % 128) (atomicWidth (atomicM Op.homeAtomic 1 0x88 1 1).hdr) = none ∧ lineBusy (owned {}) lineNo = false ∧ (owned {}).cohWait = [] ∧ dirEntry (owned {}) lineNo = {} ∧ (atomicM Op.homeAtomic 1 0x88 1 1).hdr.op = Op.homeAtomic ∧ atomicResult (aopOf (atomicM Op.homeAtomic 1 0x88 1 1).hdr) (atypeOf (atomicM Op.homeAtomic 1 0x88 1 1).hdr) (leNat (Memory.readN (owned {}).mem (linePhys lineNo + (atomicM Op.homeAtomic 1 0x88 1 1).hdr.addr.toNat % 128) (atomicWidth (atomicM Op.homeAtomic 1 0x88 1 1).hdr))) (atomicOpa (atomicM Op.homeAtomic 1 0x88 1 1).body) (atomicOpb (atomicM Op.homeAtomic 1 0x88 1 1).body) = some ((10344361304865426636), false)) ∧
    (routeC1 (owned {}) (msg Op.cohStore 1 0x80 0 (List.replicate 128 0x55)) = .ok ((0 : Part), (0 : Nat), lineNo, (0x80 : Addr)) ∧ firstDead (owned {}) (linePhys lineNo) 128 = none ∧ lineBusy (owned {}) lineNo = false ∧ (owned {}).cohWait = [] ∧ dirEntry (owned {}) lineNo = {} ∧ (msg Op.cohStore 1 0x80 0 (List.replicate 128 0x55)).hdr.op = Op.cohStore ∧ (msg Op.cohStore 1 0x80 0 (List.replicate 128 0x55)).body.length = 128 ∧ (msg Op.cohStore 1 0x80 0 (List.replicate 128 0x55)).hdr.hint = false) := ⟨⟨ok_of (by decide +kernel), readPhys_of (by decide +kernel), by and_intros <;> decide +kernel⟩,
    ⟨ok_of (by decide +kernel), readPhys_of (by decide +kernel), by and_intros <;> decide +kernel⟩,
    ⟨ok_of (by decide +kernel), by and_intros <;> decide +kernel⟩,
    ⟨ok_of (by decide +kernel), by and_intros <;> decide +kernel⟩,
    ⟨ok_of (by decide +kernel), by and_intros <;> decide +kernel⟩,
    ⟨ok_of (by decide +kernel), firstDead_of (by decide +kernel), by and_intros <;> decide +kernel⟩,
    ⟨ok_of (by decide +kernel), firstDead_of (by decide +kernel), by and_intros <;> decide +kernel⟩,
    ⟨ok_of (by decide +kernel), firstDead_of (by decide +kernel), firstDead_of (by decide +kernel), by and_intros <;> decide +kernel⟩,
    ⟨ok_of (by decide +kernel), firstDead_of (by decide +kernel), by and_intros <;> decide +kernel⟩⟩

def forward : Packet := let q := snoopAnswer Op.dataFwd 0 (List.replicate 128 3); q

/-- SnoopsAndDomains. -/
theorem witness_SnoopsAndDomains :
    (((∀ e, e < 32 → ((domS .idle).domain e).st = .active ∨ e = (0 : Part).val → ∀ a, a < 16 → ¬ LostAgent (domS .idle) e a)) ∧ oprOver (domS .idle) opr (domainPart (domS .idle) (0 : Part).val) = true ∧ (((domS .idle).domain (0 : Part).val).st = .idle ∨ ((domS .idle).domain (0 : Part).val).st = .tornDown) ∧ activateOk (domS .idle) (0 : Part).val = true) ∧
    (((∀ n ∈ [bits (0x67472707 : BitVec 32).toNat 7 0, bits (0x67472707 : BitVec 32).toNat 15 8, bits (0x67472707 : BitVec 32).toNat 23 16, bits (0x67472707 : BitVec 32).toNat 31 24], sliceExists (domS .idle) n = true ∧ sliceGranted (domS .idle) n = false ∧ isWorkSlice (domS .idle) n = false)) ∧ isOpr (domS .idle) opr = true ∧ allDomainsIdle (domS .idle) = true) ∧
    ((snooping false).txns = [(aTxn false)] ∧ (aTxn false).agent = some (0 : Nat) ∧ (aTxn false).place = none ∧ (aTxn false).owner = some (1 : Nat) ∧ (aTxn false).await = [(1 : Nat)] ∧ ((snooping false).domain (aTxn false).domain.val).st = .active ∧ (snooping false).cohWait = [] ∧ sameRequest (snoopAnswer Op.snoopResp 2 []).hdr (aTxn false) = true ∧ agentFid (snooping false) (aTxn false).domain.val (1 : Nat) = (snoopAnswer Op.snoopResp 2 []).hdr.src ∧ (aTxn false).req.hdr.op = Op.rdShared ∧ (aTxn false).wantData = false ∧ resOf (snoopAnswer Op.snoopResp 2 []).hdr = resFwdClean ∧ (dirEntry (snooping false) (aTxn false).line).st = .x) ∧
    ((snooping true).txns = [(aTxn true)] ∧ (aTxn true).agent = some (0 : Nat) ∧ (aTxn true).place = none ∧ (aTxn true).owner = some (1 : Nat) ∧ (aTxn true).await = [(1 : Nat)] ∧ ((snooping true).domain (aTxn true).domain.val).st = .active ∧ (snooping true).cohWait = [] ∧ sameRequest forward.hdr (aTxn true) = true ∧ agentFid (snooping true) (aTxn true).domain.val (1 : Nat) = forward.hdr.src ∧ (aTxn true).wantData = true ∧ (aTxn true).data = none) ∧
    ((snooping false).txns = [(aTxn false)] ∧ (aTxn false).agent = some (0 : Nat) ∧ (aTxn false).place = none ∧ (aTxn false).owner = some (1 : Nat) ∧ (aTxn false).await = [(1 : Nat)] ∧ ((snooping false).domain (aTxn false).domain.val).st = .active ∧ (snooping false).cohWait = [] ∧ (1 : Fin 16).val = (1 : Nat)) ∧
    (oprOver (domS .idle) opr (domainPart (domS .idle) (0 : Part).val) = true ∧ (((domS .idle).domain (0 : Part).val).st = .idle ∨ ((domS .idle).domain (0 : Part).val).st = .tornDown) ∧ activateOk (domS .idle) (0 : Part).val = true) ∧
    (oprOver (domS .tornDown) opr (domainPart (domS .tornDown) (0 : Part).val) = true ∧ (((domS .tornDown).domain (0 : Part).val).st = .idle ∨ ((domS .tornDown).domain (0 : Part).val).st = .tornDown) ∧ activateOk (domS .tornDown) (0 : Part).val = true) ∧
    (oprOver (({ domS .idle with fences := [fidRec 0x010201] } : State)) opr (domainPart (({ domS .idle with fences := [fidRec 0x010201] } : State)) (0 : Part).val) = true ∧ (((({ domS .idle with fences := [fidRec 0x010201] } : State)).domain (0 : Part).val).st = .idle ∨ ((({ domS .idle with fences := [fidRec 0x010201] } : State)).domain (0 : Part).val).st = .tornDown) ∧ activateOk (({ domS .idle with fences := [fidRec 0x010201] } : State)) (0 : Part).val = true) ∧
    (oprOver ((domS .idle).setO (domObj 0 1 2) 0) opr (domainPart ((domS .idle).setO (domObj 0 1 2) 0) (0 : Part).val) = true ∧ ((((domS .idle).setO (domObj 0 1 2) 0).domain (0 : Part).val).st = .idle ∨ (((domS .idle).setO (domObj 0 1 2) 0).domain (0 : Part).val).st = .tornDown) ∧ activateOk ((domS .idle).setO (domObj 0 1 2) 0) (0 : Part).val = false) ∧
    (oprOver (({ domS .active with txns := [aTxn true] } : State)) opr (domainPart (({ domS .active with txns := [aTxn true] } : State)) (0 : Part).val) = true ∧ (((({ domS .active with txns := [aTxn true] } : State)).domain (0 : Part).val).st = .active ∨ ((({ domS .active with txns := [aTxn true] } : State)).domain (0 : Part).val).st = .held) ∧ (({ domS .active with txns := [aTxn true] } : State)).txns = [(aTxn true)] ∧ (({ domS .active with txns := [aTxn true] } : State)).cohWait = [] ∧ (aTxn true).domain = (0 : Part) ∧ (aTxn true).agent.isSome = true ∧ (aTxn true).place = none) ∧
    (oprOver (({ domS .held with txns := [aTxn true] } : State)) opr (domainPart (({ domS .held with txns := [aTxn true] } : State)) (0 : Part).val) = true ∧ (((({ domS .held with txns := [aTxn true] } : State)).domain (0 : Part).val).st = .active ∨ ((({ domS .held with txns := [aTxn true] } : State)).domain (0 : Part).val).st = .held) ∧ (({ domS .held with txns := [aTxn true] } : State)).txns = [(aTxn true)] ∧ (({ domS .held with txns := [aTxn true] } : State)).cohWait = [] ∧ (aTxn true).domain = (0 : Part) ∧ (aTxn true).agent.isSome = true ∧ (aTxn true).place = none) ∧
    (oprOver (domS .tornDown) opr (domainPart (domS .tornDown) (0 : Part).val) = true ∧ ((domS .tornDown).domain (0 : Part).val).st = .tornDown) := ⟨⟨(by unfold LostAgent; decide +kernel), by and_intros <;> decide +kernel⟩,
    ⟨all_of (by decide +kernel), by and_intros <;> decide +kernel⟩,
    by and_intros <;> decide +kernel⟩

/-- FolioLife. -/
theorem witness_FolioLife :
    (folioFull.memOk ∧ (folioFull.folio (3 : BitVec 16).toNat).st = .scrubbing ∧ (folioFull.part (folOwner (folioFull.folio (3 : BitVec 16).toNat).word)).st = .open_ ∧ (folioFull.folio (3 : BitVec 16).toNat).clearing = false ∧ folHomek (folioFull.folio (3 : BitVec 16).toNat).word = 0) ∧
    (isOpr (folioS .free 0) opr = true ∧ folioOk (folioS .free 0) (3 : BitVec 16).toNat (folWord 0) = true) ∧
    (isOpr (folioS .granted 0) opr = true ∧ ((folioS .granted 0).folio (3 : BitVec 16).toNat).st = .granted ∧ inBusyWindow (folioS .granted 0) ((folioS .granted 0).folio (3 : BitVec 16).toNat) = false) ∧
    (isOpr (folioS .revoked 0) opr = true ∧ ((folioS .revoked 0).folio (3 : BitVec 16).toNat).st = .revoked ∧ ((folioS .revoked 0).folio (3 : BitVec 16).toNat).scrubFailed = false ∧ ((folioS .revoked 0).folio (3 : BitVec 16).toNat).refill = false) ∧
    (((folioS .draining 0).folio (3 : BitVec 16).toNat).st = .draining ∧ folioInflight (folioS .draining 0) (3 : BitVec 16).toNat = [] ∧ unitInflight (folioS .draining 0) (3 : BitVec 16).toNat = 0 ∧ folHomek ((folioS .draining 0).folio (3 : BitVec 16).toNat).word = 0) ∧
    (((folioS .draining 1).folio (3 : BitVec 16).toNat).st = .draining ∧ folioInflight (folioS .draining 1) (3 : BitVec 16).toNat = [] ∧ unitInflight (folioS .draining 1) (3 : BitVec 16).toNat = 0 ∧ folHomek ((folioS .draining 1).folio (3 : BitVec 16).toNat).word ≠ 0) ∧
    ((folioRead.folio (3 : BitVec 16).toNat).st = .draining) ∧
    ((folioFull.folio (3 : BitVec 16).toNat).st = .scrubbing ∧ (folioFull.part (folOwner (folioFull.folio (3 : BitVec 16).toNat).word)).st = .open_ ∧ (folioFull.folio (3 : BitVec 16).toNat).clearing = false ∧ (9 : BitVec 8) ≠ St.ok) := ⟨⟨(by unfold State.memOk; decide +kernel), by and_intros <;> decide +kernel⟩,
    by and_intros <;> decide +kernel⟩

/-- PublicationAndTagReserves. -/
theorem witness_PublicationAndTagReserves :
    (FirstTime regioned (publishMsg 5).hdr ∧ ((∃ gs, resolveContent regioned (publishMsg 5).hdr.part.toNat (pubBase (publishMsg 5).body) (pubLen (publishMsg 5).body) true false = .segs gs)) ∧ (publishMsg 5).hdr.op = Op.publish ∧ mustWait regioned (publishMsg 5) = false ∧ (publishMsg 5).hdr.mcast = false ∧ spaceOf (publishMsg 5).hdr.addr.toNat = 3 ∧ regionOff (publishMsg 5).hdr.addr.toNat = 0 ∧ (publishMsg 5).body.length = 32 ∧ spaceOf (pubBase (publishMsg 5).body) < 2 ∧ pubLen (publishMsg 5).body % 16 = 0 ∧ pubLen (publishMsg 5).body ≤ 2 ^ 36 ∧ regioned.region (regionIx (publishMsg 5).hdr.addr.toNat) = some aRegion ∧ aRegion.owner.val = (publishMsg 5).hdr.part.toNat ∧ touchesObject regioned (publishMsg 5).hdr.part.toNat (pubBase (publishMsg 5).body) (pubLen (publishMsg 5).body) = false ∧ aRegion.version ≠ pubExpect (publishMsg 5).body) ∧
    (FirstTime regioned (publishMsg 6).hdr ∧ ((∃ gs, resolveContent regioned (publishMsg 6).hdr.part.toNat (pubBase (publishMsg 6).body) (pubLen (publishMsg 6).body) true false = .segs gs)) ∧ (publishMsg 6).hdr.op = Op.publish ∧ mustWait regioned (publishMsg 6) = false ∧ (publishMsg 6).hdr.mcast = false ∧ spaceOf (publishMsg 6).hdr.addr.toNat = 3 ∧ regionOff (publishMsg 6).hdr.addr.toNat = 0 ∧ (publishMsg 6).body.length = 32 ∧ spaceOf (pubBase (publishMsg 6).body) < 2 ∧ pubLen (publishMsg 6).body % 16 = 0 ∧ pubLen (publishMsg 6).body ≤ 2 ^ 36 ∧ regioned.region (regionIx (publishMsg 6).hdr.addr.toNat) = some aRegion ∧ aRegion.owner.val = (publishMsg 6).hdr.part.toNat ∧ touchesObject regioned (publishMsg 6).hdr.part.toNat (pubBase (publishMsg 6).body) (pubLen (publishMsg 6).body) = false ∧ aRegion.version = pubExpect (publishMsg 6).body) ∧
    (ownerWrites withMem opr (rwOwner (regWord true)) = true ∧ (isOpr withMem opr = true ∨ opr.role = .prt) ∧ rwRegion (regWord true) < 4096 ∧ rwOwner (regWord true) < 32 ∧ withMem.region (rwRegion (regWord true)) = none ∧ rwValid (regWord true) = true ∧ regionRead withMem (rwRegion (regWord true)) = false) ∧
    (ownerWrites withMem (prt 0) (rwOwner (regWord true)) = true ∧ (isOpr withMem (prt 0) = true ∨ (prt 0).role = .prt) ∧ rwRegion (regWord true) < 4096 ∧ rwOwner (regWord true) < 32 ∧ withMem.region (rwRegion (regWord true)) = none ∧ rwValid (regWord true) = true ∧ regionRead withMem (rwRegion (regWord true)) = false) ∧
    (ownerWrites regioned opr (rwOwner (regWord false)) = true ∧ (isOpr regioned opr = true ∨ opr.role = .prt) ∧ rwRegion (regWord false) < 4096 ∧ rwOwner (regWord false) < 32 ∧ regioned.region (rwRegion (regWord false)) = some aRegion ∧ aRegion.owner.val = rwOwner (regWord false)) ∧
    (waitingPub.waitPubs = [aWait] ∧ aWait.region = (5 : BitVec 12).toNat ∧ readersOf waitingPub (5 : BitVec 12).toNat aWait.old = false ∧ findOp waitingPub aWait.req.hdr = some (({ doneRec with cdat := 7 } : OpRec)) ∧ (({ doneRec with cdat := 7 } : OpRec)).ndup = 0 ∧ aWait.req.hdr.mcast = false) ∧
    (oprOver (up.setO (okey 0x5021 1) 65531) opr (0 : Part).val = true ∧ resourcesOpen (up.setO (okey 0x5021 1) 65531) (0 : Part).val = true ∧ (5 : BitVec 32).toNat ≤ 65536 ∧ ((List.range 32).map fun q => if q = (0 : Part).val then 0 else tagReserve (up.setO (okey 0x5021 1) 65531) q).sum + (5 : BitVec 32).toNat ≤ 65536) ∧
    (oprOver (up.setO (okey 0x5021 1) 65532) opr (0 : Part).val = true ∧ resourcesOpen (up.setO (okey 0x5021 1) 65532) (0 : Part).val = true ∧ (5 : BitVec 32).toNat ≤ 65536 ∧ 65536 < ((List.range 32).map fun q => if q = (0 : Part).val then 0 else tagReserve (up.setO (okey 0x5021 1) 65532) q).sum + (5 : BitVec 32).toNat) ∧
    ((191) < 192) ∧
    (192 ≤ (192)) := ⟨⟨(by unfold FirstTime; decide +kernel), segs_of (by decide +kernel), by and_intros <;> decide +kernel⟩,
    ⟨(by unfold FirstTime; decide +kernel), segs_of (by decide +kernel), by and_intros <;> decide +kernel⟩,
    by and_intros <;> decide +kernel⟩

/-- CollectiveContexts. -/
theorem witness_CollectiveContexts :
    (FirstTime withQuills (openMsg (descr 2 0) 0).hdr ∧ (descr 2 0) = BitVec.ofNat 512 (leAt (openMsg (descr 2 0) 0).body 0 64) ∧ ccCmd (openMsg (descr 2 0) 0).hdr = 1 ∧ mustWait withQuills (openMsg (descr 2 0) 0) = false ∧ (openMsg (descr 2 0) 0).hdr.mcast = false ∧ ((Instr.open_ (openMsg (descr 2 0) 0)) = .open_ (openMsg (descr 2 0) 0) ∨ (Instr.open_ (openMsg (descr 2 0) 0)) = .mirrorOpen (openMsg (descr 2 0) 0)) ∧ openRefusal withQuills (openMsg (descr 2 0) 0) (descr 2 0) = none ∧ isMirrorOpen (openMsg (descr 2 0) 0) (descr 2 0) = false ∧ cdPartner (descr 2 0) = 0) ∧
    (FirstTime withQuills (openMsg (descr 2 0x020300) 9).hdr ∧ (descr 2 0x020300) = BitVec.ofNat 512 (leAt (openMsg (descr 2 0x020300) 9).body 0 64) ∧ ccCmd (openMsg (descr 2 0x020300) 9).hdr = 1 ∧ mustWait withQuills (openMsg (descr 2 0x020300) 9) = false ∧ (openMsg (descr 2 0x020300) 9).hdr.mcast = false ∧ ((Instr.open_ (openMsg (descr 2 0x020300) 9)) = .open_ (openMsg (descr 2 0x020300) 9) ∨ (Instr.open_ (openMsg (descr 2 0x020300) 9)) = .mirrorOpen (openMsg (descr 2 0x020300) 9)) ∧ openRefusal withQuills (openMsg (descr 2 0x020300) 9) (descr 2 0x020300) = none ∧ isMirrorOpen (openMsg (descr 2 0x020300) 9) (descr 2 0x020300) = false ∧ cdPartner (descr 2 0x020300) ≠ 0) ∧
    (FirstTime withQuills (openMsg (descr 2 0x010200) 9).hdr ∧ (descr 2 0x010200) = BitVec.ofNat 512 (leAt (openMsg (descr 2 0x010200) 9).body 0 64) ∧ ccCmd (openMsg (descr 2 0x010200) 9).hdr = 1 ∧ mustWait withQuills (openMsg (descr 2 0x010200) 9) = false ∧ (openMsg (descr 2 0x010200) 9).hdr.mcast = false ∧ ((Instr.mirrorOpen (openMsg (descr 2 0x010200) 9)) = .open_ (openMsg (descr 2 0x010200) 9) ∨ (Instr.mirrorOpen (openMsg (descr 2 0x010200) 9)) = .mirrorOpen (openMsg (descr 2 0x010200) 9)) ∧ openRefusal withQuills (openMsg (descr 2 0x010200) 9) (descr 2 0x010200) = none ∧ isMirrorOpen (openMsg (descr 2 0x010200) 9) (descr 2 0x010200) = true) ∧
    (FirstTime (ctxS runningCtx) (openMsg (descr 2 0) 0).hdr ∧ (descr 2 0) = BitVec.ofNat 512 (leAt (openMsg (descr 2 0) 0).body 0 64) ∧ ccCmd (openMsg (descr 2 0) 0).hdr = 1 ∧ mustWait (ctxS runningCtx) (openMsg (descr 2 0) 0) = false ∧ (openMsg (descr 2 0) 0).hdr.mcast = false ∧ ((Instr.open_ (openMsg (descr 2 0) 0)) = .open_ (openMsg (descr 2 0) 0) ∨ (Instr.open_ (openMsg (descr 2 0) 0)) = .mirrorOpen (openMsg (descr 2 0) 0)) ∧ openRefusal (ctxS runningCtx) (openMsg (descr 2 0) 0) (descr 2 0) = some ((St.busy), true)) ∧
    (FirstTime (ctxS runningCtx) (ctlMsg 2 1).hdr ∧ (ctlMsg 2 1).body.length = 16 ∧ (5 : Nat) = ccCtx (ctlMsg 2 1).body ∧ (1 : Nat) = ccCidx (ctlMsg 2 1).body ∧ runningCtx = (ctxS runningCtx).ctx (5 : Nat) ∧ mustWait (ctxS runningCtx) (ctlMsg 2 1) = false ∧ (ctlMsg 2 1).hdr.mcast = false ∧ runningCtx.part.val = (ctlMsg 2 1).hdr.part.toNat ∧ runningCtx.partner = 0 ∧ ccCmd (ctlMsg 2 1).hdr = 2 ∧ ctxRefusal (ctxS runningCtx) (5 : Nat) (ccCgen (ctlMsg 2 1).body) false = none ∧ runningCtx.st = .running ∧ (1 : Nat) ≤ cdNcm1 runningCtx.desc ∧ (runningCtx.joined.find? fun e => e.1 == (1 : Nat)) = none) ∧
    (FirstTime (ctxS { runningCtx with st := .done }) (ctlMsg 3 0).hdr ∧ (ctlMsg 3 0).body.length = 16 ∧ (5 : Nat) = ccCtx (ctlMsg 3 0).body ∧ (0 : Nat) = ccCidx (ctlMsg 3 0).body ∧ (({ runningCtx with st := .done } : Ctx)) = (ctxS { runningCtx with st := .done }).ctx (5 : Nat) ∧ mustWait (ctxS { runningCtx with st := .done }) (ctlMsg 3 0) = false ∧ (ctlMsg 3 0).hdr.mcast = false ∧ (({ runningCtx with st := .done } : Ctx)).part.val = (ctlMsg 3 0).hdr.part.toNat ∧ (({ runningCtx with st := .done } : Ctx)).partner = 0 ∧ ccCmd (ctlMsg 3 0).hdr = 3 ∧ ctxRefusal (ctxS { runningCtx with st := .done }) (5 : Nat) (ccCgen (ctlMsg 3 0).body) false = none ∧ (({ runningCtx with st := .done } : Ctx)).st = .done) ∧
    (FirstTime (ctxS runningCtx) (ctlMsg 3 0).hdr ∧ (ctlMsg 3 0).body.length = 16 ∧ (5 : Nat) = ccCtx (ctlMsg 3 0).body ∧ (0 : Nat) = ccCidx (ctlMsg 3 0).body ∧ runningCtx = (ctxS runningCtx).ctx (5 : Nat) ∧ mustWait (ctxS runningCtx) (ctlMsg 3 0) = false ∧ (ctlMsg 3 0).hdr.mcast = false ∧ runningCtx.part.val = (ctlMsg 3 0).hdr.part.toNat ∧ runningCtx.partner = 0 ∧ ccCmd (ctlMsg 3 0).hdr = 3 ∧ ctxRefusal (ctxS runningCtx) (5 : Nat) (ccCgen (ctlMsg 3 0).body) false = none ∧ runningCtx.st = .running) ∧
    (FirstTime (ctxS runningCtx) (ctlMsg 4 0).hdr ∧ (ctlMsg 4 0).body.length = 16 ∧ (5 : Nat) = ccCtx (ctlMsg 4 0).body ∧ (0 : Nat) = ccCidx (ctlMsg 4 0).body ∧ runningCtx = (ctxS runningCtx).ctx (5 : Nat) ∧ mustWait (ctxS runningCtx) (ctlMsg 4 0) = false ∧ (ctlMsg 4 0).hdr.mcast = false ∧ runningCtx.part.val = (ctlMsg 4 0).hdr.part.toNat ∧ runningCtx.partner = 0 ∧ ccCmd (ctlMsg 4 0).hdr = 4 ∧ ctxRefusal (ctxS runningCtx) (5 : Nat) (ccCgen (ctlMsg 4 0).body) true = none ∧ runningCtx.st ≠ .free) := ⟨⟨(by unfold FirstTime; decide +kernel), by and_intros <;> decide +kernel⟩,
    ⟨(by unfold FirstTime; decide +kernel), by and_intros <;> decide +kernel⟩,
    ⟨(by unfold FirstTime; decide +kernel), by and_intros <;> decide +kernel⟩,
    ⟨(by unfold FirstTime; decide +kernel), by and_intros <;> decide +kernel⟩,
    ⟨(by unfold FirstTime; decide +kernel), by and_intros <;> decide +kernel⟩,
    ⟨(by unfold FirstTime; decide +kernel), by and_intros <;> decide +kernel⟩,
    ⟨(by unfold FirstTime; decide +kernel), by and_intros <;> decide +kernel⟩,
    ⟨(by unfold FirstTime; decide +kernel), by and_intros <;> decide +kernel⟩⟩

/-- Chunk 0 with two elements, the first of which holds 2^79 and so escalates with a term of 1.0. -/

def wideChunk (bits_ : List Nat) : Chunk :=

  { aChunk bits_ with elems := [{ sv := 2 ^ 39, wexp := 200, nz := false, note := { set := true, any := true } }, {}] }

def wide (bits_ : List Nat) : State := { running bits_ with chunks := [wideChunk bits_] }

/-- The same while a pass holds the whole pool of the context's quill. -/

def poolHeld : State := (wide []).setQuill 0 { runs := [{ idleRun with esc := some 16384 }] }

def zeros : List Byte := List.replicate 2048 0

theorem parts_of {α β γ : Type} (x : α × β × γ) : x = (x.1, x.2.1, x.2.2) := rfl

def oneFirst : List Byte := [0, 0, 0x80, 0x3F] ++ List.replicate 2044 0

/-- Contributions. -/
theorem witness_Contributions :
    (judge (running []) (contribMsg 3 zeros) = .refuse (St.boundExceeded) false ∧ (5 : Nat) = cnCtx (contribMsg 3 zeros).hdr ∧ (3 : Nat) = cnChunk (contribMsg 3 zeros).hdr ∧ ((0 : BitVec 8)) = cflgOf false false (quillDegraded (running []) (ctxQuill (5 : Nat))) false ∧ mustWait (running []) (contribMsg 3 zeros) = false) ∧
    (judge (running [0]) (contribMsg 0 zeros) = .duplicate ∧ (5 : Nat) = cnCtx (contribMsg 0 zeros).hdr ∧ (0 : Nat) = cnChunk (contribMsg 0 zeros).hdr ∧ ((0 : BitVec 8)) = cflgOf false false (quillDegraded (running [0]) (ctxQuill (5 : Nat))) false ∧ mustWait (running [0]) (contribMsg 0 zeros) = false) ∧
    (judge (running []) (contribMsg 1 zeros) = .busy ∧ (5 : Nat) = cnCtx (contribMsg 1 zeros).hdr ∧ (1 : Nat) = cnChunk (contribMsg 1 zeros).hdr ∧ ((0 : BitVec 8)) = cflgOf false false (quillDegraded (running []) (ctxQuill (5 : Nat))) false ∧ mustWait (running []) (contribMsg 1 zeros) = false) ∧
    (judge poolHeld (contribMsg 0 oneFirst) = .add (wideChunk []) ∧ addElems (poolHeld.quill (ctxQuill (5 : Nat))).pool (poolHeld.ctx (5 : Nat)) (wideChunk []) (contribMsg 0 oneFirst).body = (((addElems ((poolHeld).quill (ctxQuill 5)).pool ((poolHeld).ctx 5) (wideChunk []) (contribMsg 0 oneFirst).body).1), ((addElems ((poolHeld).quill (ctxQuill 5)).pool ((poolHeld).ctx 5) (wideChunk []) (contribMsg 0 oneFirst).body).2.1), ((addElems ((poolHeld).quill (ctxQuill 5)).pool ((poolHeld).ctx 5) (wideChunk []) (contribMsg 0 oneFirst).body).2.2)) ∧ (5 : Nat) = cnCtx (contribMsg 0 oneFirst).hdr ∧ (0 : Nat) = cnChunk (contribMsg 0 oneFirst).hdr ∧ ((0 : BitVec 8)) = cflgOf false false (quillDegraded poolHeld (ctxQuill (5 : Nat))) false ∧ mustWait poolHeld (contribMsg 0 oneFirst) = false ∧ (1) = ((addElems ((poolHeld).quill (ctxQuill 5)).pool ((poolHeld).ctx 5) (wideChunk []) (contribMsg 0 oneFirst).body).2.1).length - (poolHeld.quill (ctxQuill (5 : Nat))).pool.length ∧ (1) ≠ 0 ∧ escLimit poolHeld (ctxQuill (5 : Nat)) (some (wideChunk []).seq) < (1)) ∧
    (judge (running []) (contribMsg 0 zeros) = .add (aChunk []) ∧ addElems ((running []).quill (ctxQuill (5 : Nat))).pool ((running []).ctx (5 : Nat)) (aChunk []) (contribMsg 0 zeros).body = (((addElems ((running []).quill (ctxQuill 5)).pool ((running []).ctx 5) (aChunk []) (contribMsg 0 zeros).body).1), ((addElems ((running []).quill (ctxQuill 5)).pool ((running []).ctx 5) (aChunk []) (contribMsg 0 zeros).body).2.1), ((addElems ((running []).quill (ctxQuill 5)).pool ((running []).ctx 5) (aChunk []) (contribMsg 0 zeros).body).2.2)) ∧ (5 : Nat) = cnCtx (contribMsg 0 zeros).hdr ∧ (0 : Nat) = cnChunk (contribMsg 0 zeros).hdr ∧ ((0 : BitVec 8)) = cflgOf false false (quillDegraded (running []) (ctxQuill (5 : Nat))) false ∧ mustWait (running []) (contribMsg 0 zeros) = false ∧ (0) = ((addElems ((running []).quill (ctxQuill 5)).pool ((running []).ctx 5) (aChunk []) (contribMsg 0 zeros).body).2.1).length - ((running []).quill (ctxQuill (5 : Nat))).pool.length ∧ ((0) = 0 ∨ (0) ≤ escLimit (running []) (ctxQuill (5 : Nat)) (some (aChunk []).seq)) ∧ (aChunk []).bits.length < cdNcm1 ((running []).ctx (5 : Nat)).desc) ∧
    (judge (wide []) (contribMsg 0 oneFirst) = .add (wideChunk []) ∧ addElems ((wide []).quill (ctxQuill (5 : Nat))).pool ((wide []).ctx (5 : Nat)) (wideChunk []) (contribMsg 0 oneFirst).body = (((addElems ((wide []).quill (ctxQuill 5)).pool ((wide []).ctx 5) (wideChunk []) (contribMsg 0 oneFirst).body).1), ((addElems ((wide []).quill (ctxQuill 5)).pool ((wide []).ctx 5) (wideChunk []) (contribMsg 0 oneFirst).body).2.1), ((addElems ((wide []).quill (ctxQuill 5)).pool ((wide []).ctx 5) (wideChunk []) (contribMsg 0 oneFirst).body).2.2)) ∧ (5 : Nat) = cnCtx (contribMsg 0 oneFirst).hdr ∧ (0 : Nat) = cnChunk (contribMsg 0 oneFirst).hdr ∧ ((0 : BitVec 8)) = cflgOf false false (quillDegraded (wide []) (ctxQuill (5 : Nat))) false ∧ mustWait (wide []) (contribMsg 0 oneFirst) = false ∧ (1) = ((addElems ((wide []).quill (ctxQuill 5)).pool ((wide []).ctx 5) (wideChunk []) (contribMsg 0 oneFirst).body).2.1).length - ((wide []).quill (ctxQuill (5 : Nat))).pool.length ∧ ((1) = 0 ∨ (1) ≤ escLimit (wide []) (ctxQuill (5 : Nat)) (some (wideChunk []).seq)) ∧ (wideChunk []).bits.length < cdNcm1 ((wide []).ctx (5 : Nat)).desc) ∧
    (judge (running [1]) (contribMsg 0 zeros) = .add (aChunk [1]) ∧ addElems ((running [1]).quill (ctxQuill (5 : Nat))).pool ((running [1]).ctx (5 : Nat)) (aChunk [1]) (contribMsg 0 zeros).body = (((addElems ((running [1]).quill (ctxQuill 5)).pool ((running [1]).ctx 5) (aChunk [1]) (contribMsg 0 zeros).body).1), ((addElems ((running [1]).quill (ctxQuill 5)).pool ((running [1]).ctx 5) (aChunk [1]) (contribMsg 0 zeros).body).2.1), ((addElems ((running [1]).quill (ctxQuill 5)).pool ((running [1]).ctx 5) (aChunk [1]) (contribMsg 0 zeros).body).2.2)) ∧ (5 : Nat) = cnCtx (contribMsg 0 zeros).hdr ∧ (0 : Nat) = cnChunk (contribMsg 0 zeros).hdr ∧ ((0 : BitVec 8)) = cflgOf false false (quillDegraded (running [1]) (ctxQuill (5 : Nat))) false ∧ mustWait (running [1]) (contribMsg 0 zeros) = false ∧ (0) = ((addElems ((running [1]).quill (ctxQuill 5)).pool ((running [1]).ctx 5) (aChunk [1]) (contribMsg 0 zeros).body).2.1).length - ((running [1]).quill (ctxQuill (5 : Nat))).pool.length ∧ ((0) = 0 ∨ (0) ≤ escLimit (running [1]) (ctxQuill (5 : Nat)) (some (aChunk [1]).seq)) ∧ cdNcm1 ((running [1]).ctx (5 : Nat)).desc ≤ (aChunk [1]).bits.length ∧ cdKind ((running [1]).ctx (5 : Nat)).desc = 0) := ⟨⟨by rfl, by and_intros <;> decide +kernel⟩,
    ⟨by rfl, by and_intros <;> decide +kernel⟩,
    ⟨by rfl, by and_intros <;> decide +kernel⟩,
    ⟨by rfl, parts_of _, by and_intros <;> decide +kernel⟩,
    ⟨by rfl, parts_of _, by and_intros <;> decide +kernel⟩,
    ⟨by rfl, parts_of _, by and_intros <;> decide +kernel⟩,
    ⟨by rfl, parts_of _, by and_intros <;> decide +kernel⟩⟩

/-- CreditsAndMirrors. -/
theorem witness_CreditsAndMirrors :
    (((∀ q ∈ enabledQuills withQuills, (unitsUsed withQuills q).length ≤ unitsOffered withQuills q (16 : BitVec 16).toNat)) ∧ (5 : Nat) = ((5 : BitVec 16)).toNat ∧ (withQuills.ctx 5) = withQuills.ctx (5 : Nat) ∧ isOpr withQuills opr = true ∧ 16 ≤ (16 : BitVec 16).toNat ∧ (16 : BitVec 16).toNat ≤ 315 ∧ allCtxFree withQuills = true) ∧
    (((∀ q ∈ enabledQuills withQuills, (unitsUsed withQuills q).length ≤ unitsOffered withQuills q (315 : BitVec 16).toNat)) ∧ (5 : Nat) = ((5 : BitVec 16)).toNat ∧ (withQuills.ctx 5) = withQuills.ctx (5 : Nat) ∧ isOpr withQuills opr = true ∧ 16 ≤ (315 : BitVec 16).toNat ∧ (315 : BitVec 16).toNat ≤ 315 ∧ allCtxFree withQuills = true) ∧
    (((ctxS runningCtx).ctx (5 : Nat)).st = .running ∧ ((ctxS runningCtx).ctx (5 : Nat)).escHold = false ∧ removing (ctxS runningCtx) ((ctxS runningCtx).ctx (5 : Nat)).part.val = false ∧ ((ctxS runningCtx).ctx (5 : Nat)).low ≤ (1) ∧ (1) < ((ctxS runningCtx).ctx (5 : Nat)).low + min (cdCwin ((ctxS runningCtx).ctx (5 : Nat)).desc) (cdNchunk ((ctxS runningCtx).ctx (5 : Nat)).desc - ((ctxS runningCtx).ctx (5 : Nat)).low) ∧ (1) ∉ ((ctxS runningCtx).ctx (5 : Nat)).delivered) ∧
    (((ctxS runningCtx).ctx (5 : Nat)).st = .running ∧ ((0), ((0x010200 : Fid))) ∈ ((ctxS runningCtx).ctx (5 : Nat)).joined) ∧
    ((5 : Nat) = bits (leAt creditMsg.body 0 16) 15 0 ∧ ((ctxS mirrorCtx).ctx (5 : Nat)).st = .mirror ∧ ((ctxS mirrorCtx).ctx (5 : Nat)).cgen = BitVec.ofNat 8 (bits (leAt creditMsg.body 0 16) 23 16) ∧ ((ctxS mirrorCtx).ctx (5 : Nat)).partner = creditMsg.hdr.src ∧ creditMsg.hdr.src ≠ 0 ∧ ((ctxS mirrorCtx).ctx (5 : Nat)).part.val = creditMsg.hdr.part.toNat ∧ ((ctxS mirrorCtx).ctx (5 : Nat)).oepoch.toNat ≤ creditMsg.hdr.aux.toNat) ∧
    ((5 : Nat) = ((5 : BitVec 16)).toNat ∧ ((opening none).ctx 5) = (opening none).ctx (5 : Nat) ∧ ((opening none).ctx 5).mirror = 1 ∧ ((opening none).ctx 5).opener = none) ∧
    ((5 : Nat) = ((5 : BitVec 16)).toNat ∧ ((opening (some (openMsg (descr 2 0x020300) 0))).ctx 5) = (opening (some (openMsg (descr 2 0x020300) 0))).ctx (5 : Nat) ∧ ((opening (some (openMsg (descr 2 0x020300) 0))).ctx 5).mirror = 1 ∧ ((opening (some (openMsg (descr 2 0x020300) 0))).ctx 5).opener = some (openMsg (descr 2 0x020300) 0) ∧ findOp (opening (some (openMsg (descr 2 0x020300) 0))) (openMsg (descr 2 0x020300) 0).hdr = some doneRec ∧ doneRec.ndup = 0 ∧ (openMsg (descr 2 0x020300) 0).hdr.mcast = false) ∧
    ((5 : Nat) = ((5 : BitVec 16)).toNat ∧ mirrorCtx = (ctxS mirrorCtx).ctx (5 : Nat) ∧ mirrorCtx.mirror ≠ 1 ∧ mirrorCtx.opener = none) ∧
    ((5 : Nat) = ((5 : BitVec 16)).toNat ∧ mirrorCtx = (ctxS mirrorCtx).ctx (5 : Nat) ∧ ownerWrites (ctxS mirrorCtx) opr mirrorCtx.part.val = true ∧ mirrorCtx.st = .mirror ∧ mirrorCtx.mirror = 4 ∧ quillOk (ctxS mirrorCtx) (ctxQuill (5 : Nat)) = true) ∧
    ((5 : Nat) = ((5 : BitVec 16)).toNat ∧ runningCtx = (ctxS runningCtx).ctx (5 : Nat) ∧ ownerWrites (ctxS runningCtx) opr runningCtx.part.val = true ∧ runningCtx.st = .running ∧ runningCtx.mirror = 0 ∧ (0x020300 : BitVec 32).toNat % 256 = 0 ∧ (0x020300 : BitVec 32).toNat < 2 ^ 24 ∧ (0x020300 : BitVec 32) ≠ 0 ∧ (0x020300 : BitVec 32).toNat ≠ (devFid (ctxS runningCtx)).toNat) ∧
    ((5 : Nat) = ((5 : BitVec 16)).toNat ∧ ((opening none).ctx 5) = (opening none).ctx (5 : Nat) ∧ ownerWrites (opening none) opr ((opening none).ctx 5).part.val = true ∧ ((opening none).ctx 5).st = .running ∧ (((opening none).ctx 5).mirror = 1 ∨ ((opening none).ctx 5).mirror = 2) ∧ ((opening none).ctx 5).partner ≠ 0 ∧ (0x020400 : BitVec 32).toNat % 256 = 0 ∧ (0x020400 : BitVec 32).toNat < 2 ^ 24 ∧ (0x020400 : BitVec 32) ≠ 0 ∧ (0x020400 : BitVec 32).toNat ≠ (devFid (opening none)).toNat) ∧
    ((5 : Nat) = ((5 : BitVec 16)).toNat ∧ (({ runningCtx with mirror := 2, partner := 0x020300 } : Ctx)) = (ctxS { runningCtx with mirror := 2, partner := 0x020300 }).ctx (5 : Nat) ∧ ownerWrites (ctxS { runningCtx with mirror := 2, partner := 0x020300 }) opr (({ runningCtx with mirror := 2, partner := 0x020300 } : Ctx)).part.val = true ∧ (({ runningCtx with mirror := 2, partner := 0x020300 } : Ctx)).st = .running ∧ ((({ runningCtx with mirror := 2, partner := 0x020300 } : Ctx)).mirror = 1 ∨ (({ runningCtx with mirror := 2, partner := 0x020300 } : Ctx)).mirror = 2) ∧ (({ runningCtx with mirror := 2, partner := 0x020300 } : Ctx)).partner ≠ 0 ∧ (0x020400 : BitVec 32).toNat % 256 = 0 ∧ (0x020400 : BitVec 32).toNat < 2 ^ 24 ∧ (0x020400 : BitVec 32) ≠ 0 ∧ (0x020400 : BitVec 32).toNat ≠ (devFid (ctxS { runningCtx with mirror := 2, partner := 0x020300 })).toNat) ∧
    ((5 : Nat) = ((5 : BitVec 16)).toNat ∧ runningCtx = (ctxS runningCtx).ctx (5 : Nat) ∧ oprOver (ctxS runningCtx) opr runningCtx.part.val = true ∧ quillOk (ctxS runningCtx) (ctxQuill (5 : Nat)) = true ∧ runningCtx.st ≠ .free) := ⟨⟨all_of (by decide +kernel), by and_intros <;> decide +kernel⟩,
    ⟨all_of (by decide +kernel), by and_intros <;> decide +kernel⟩,
    by and_intros <;> decide +kernel⟩

/-- GatherTables. -/
theorem witness_GatherTables :
    (((∀ e ∈ served.quills, e.2.jobs = [] ∧ e.2.wins = [])) ∧ (served.table 7) = served.table (7 : BitVec 16).toNat ∧ (7 : BitVec 16).toNat < 4096 ∧ (served.table 7).st = .serving ∧ tableCaller served opr (served.table 7) = true) ∧
    ((withQuills.table 4095) = withQuills.table (4095 : BitVec 16).toNat ∧ (4095 : BitVec 16).toNat < 4096 ∧ (isOpr withQuills opr = true ∨ opr.role = .prt) ∧ ownerWrites withQuills opr (tableOwner tableWord) = true ∧ recordFault withQuills tableWord none ((withQuills.table 4095).st == .free) = none) ∧
    ((served.table 7) = served.table (7 : BitVec 16).toNat ∧ (7 : BitVec 16).toNat < 4096 ∧ (isOpr served opr = true ∨ opr.role = .prt) ∧ ownerWrites served opr (tableOwner (tableWord + 1)) = true ∧ ownerWrites served opr (tableOwner (served.table 7).word) = true ∧ (served.table 7).st = .serving ∧ recordFault served (tableWord + 1) (some (served.table 7).word) true = none) ∧
    ((served.table 7) = served.table (7 : BitVec 16).toNat ∧ (7 : BitVec 16).toNat < 4096 ∧ (isOpr served opr = true ∨ opr.role = .prt) ∧ ownerWrites served opr (tableOwner (served.table 7).word) = true) ∧
    ((served.table 7) = served.table (7 : BitVec 16).toNat ∧ (7 : BitVec 16).toNat < 4096 ∧ (isOpr served opr = true ∨ opr.role = .prt) ∧ tableCaller served opr (served.table 7) = true) ∧
    ((served.table 7) = served.table (7 : BitVec 16).toNat ∧ (7 : BitVec 16).toNat < 4096 ∧ (served.table 7).st = .serving ∧ tableCaller served opr (served.table 7) = true ∧ (served.table 7).staged = some (tableWord + 1) ∧ (served.quill (tSquill (tableWord + 1))).jobs = []) ∧
    ((({ st := .serving, word := tableWord } : Table)) = (withQuills.setTable 7 { st := .serving, word := tableWord }).table (7 : BitVec 16).toNat ∧ (7 : BitVec 16).toNat < 4096 ∧ (({ st := .serving, word := tableWord } : Table)).st = .serving ∧ tableCaller (withQuills.setTable 7 { st := .serving, word := tableWord }) opr (({ st := .serving, word := tableWord } : Table)) = true ∧ (({ st := .serving, word := tableWord } : Table)).staged = none) := ⟨⟨all_of (by decide +kernel), by and_intros <;> decide +kernel⟩,
    by and_intros <;> decide +kernel⟩

def scanM (op : BitVec 8) : Msg := let m := bagMsg 0 0; { m with hdr := { m.hdr with op := op }, body := [] }

/-- GatherRequests. -/
theorem witness_GatherRequests :
    (FirstTime (tableIn .retiring) (bagMsg 0 0).hdr ∧ (7 : Nat) = gTable (bagMsg 0 0).hdr ∧ ((tableIn .retiring).table 7) = (tableIn .retiring).table (7 : Nat) ∧ (2 : Nat) = tSquill ((tableIn .retiring).table 7).word ∧ quillOk (tableIn .retiring) (2 : Nat) = true ∧ ((tableIn .retiring).table 7).st ≠ .free ∧ mustWait (tableIn .retiring) (bagMsg 0 0) = false ∧ (bagMsg 0 0).hdr.mcast = false ∧ (((.bag (bagMsg 0 0) : Instr) = .bag (bagMsg 0 0) ∧ (bagMsg 0 0).hdr.op = Op.bag) ∨ ((.bag (bagMsg 0 0) : Instr) = .filter (bagMsg 0 0) ∧ (bagMsg 0 0).hdr.op = Op.filter) ∨ ((.bag (bagMsg 0 0) : Instr) = .scatterAdd (bagMsg 0 0) ∧ (bagMsg 0 0).hdr.op = Op.scatterAdd)) ∧ tableAdmits (tableIn .retiring) ((tableIn .retiring).table 7) (bagMsg 0 0).hdr = false) ∧
    (FirstTime served (bagMsg 8 0).hdr ∧ (7 : Nat) = gTable (bagMsg 8 0).hdr ∧ (served.table 7) = served.table (7 : Nat) ∧ (2 : Nat) = tSquill (served.table 7).word ∧ quillOk served (2 : Nat) = true ∧ (served.table 7).st ≠ .free ∧ mustWait served (bagMsg 8 0) = false ∧ (bagMsg 8 0).hdr.mcast = false ∧ (((.bag (bagMsg 8 0) : Instr) = .bag (bagMsg 8 0) ∧ (bagMsg 8 0).hdr.op = Op.bag) ∨ ((.bag (bagMsg 8 0) : Instr) = .filter (bagMsg 8 0) ∧ (bagMsg 8 0).hdr.op = Op.filter) ∨ ((.bag (bagMsg 8 0) : Instr) = .scatterAdd (bagMsg 8 0) ∧ (bagMsg 8 0).hdr.op = Op.scatterAdd)) ∧ tableAdmits served (served.table 7) (bagMsg 8 0).hdr = true ∧ queueMsgs (served.quill (2 : Nat)) < 65536 ∧ queueBytes (served.quill (2 : Nat)) + (bagMsg 8 0).body.length ≤ 2 ^ 23 ∧ gRefusal (bagMsg 8 0) (tRowlen (served.table 7).word) = some (0x0C)) ∧
    (FirstTime served (scanM Op.filter).hdr ∧ (7 : Nat) = gTable (scanM Op.filter).hdr ∧ (served.table 7) = served.table (7 : Nat) ∧ (2 : Nat) = tSquill (served.table 7).word ∧ quillOk served (2 : Nat) = true ∧ (served.table 7).st ≠ .free ∧ mustWait served (scanM Op.filter) = false ∧ (scanM Op.filter).hdr.mcast = false ∧ (((.filter (scanM Op.filter) : Instr) = .bag (scanM Op.filter) ∧ (scanM Op.filter).hdr.op = Op.bag) ∨ ((.filter (scanM Op.filter) : Instr) = .filter (scanM Op.filter) ∧ (scanM Op.filter).hdr.op = Op.filter) ∨ ((.filter (scanM Op.filter) : Instr) = .scatterAdd (scanM Op.filter) ∧ (scanM Op.filter).hdr.op = Op.scatterAdd)) ∧ tableAdmits served (served.table 7) (scanM Op.filter).hdr = true ∧ queueMsgs (served.quill (2 : Nat)) < 65536 ∧ queueBytes (served.quill (2 : Nat)) + (scanM Op.filter).body.length ≤ 2 ^ 23 ∧ gRefusal (scanM Op.filter) (tRowlen (served.table 7).word) = some (0x0C)) ∧
    (FirstTime served (scanM Op.scatterAdd).hdr ∧ (7 : Nat) = gTable (scanM Op.scatterAdd).hdr ∧ (served.table 7) = served.table (7 : Nat) ∧ (2 : Nat) = tSquill (served.table 7).word ∧ quillOk served (2 : Nat) = true ∧ (served.table 7).st ≠ .free ∧ mustWait served (scanM Op.scatterAdd) = false ∧ (scanM Op.scatterAdd).hdr.mcast = false ∧ (((.scatterAdd (scanM Op.scatterAdd) : Instr) = .bag (scanM Op.scatterAdd) ∧ (scanM Op.scatterAdd).hdr.op = Op.bag) ∨ ((.scatterAdd (scanM Op.scatterAdd) : Instr) = .filter (scanM Op.scatterAdd) ∧ (scanM Op.scatterAdd).hdr.op = Op.filter) ∨ ((.scatterAdd (scanM Op.scatterAdd) : Instr) = .scatterAdd (scanM Op.scatterAdd) ∧ (scanM Op.scatterAdd).hdr.op = Op.scatterAdd)) ∧ tableAdmits served (served.table 7) (scanM Op.scatterAdd).hdr = true ∧ queueMsgs (served.quill (2 : Nat)) < 65536 ∧ queueBytes (served.quill (2 : Nat)) + (scanM Op.scatterAdd).body.length ≤ 2 ^ 23 ∧ gRefusal (scanM Op.scatterAdd) (tRowlen (served.table 7).word) = some (0x0C)) ∧
    (FirstTime (quillS { runs := [idleRun] }) (bagMsg 0 0).hdr ∧ (7 : Nat) = gTable (bagMsg 0 0).hdr ∧ ((quillS { runs := [idleRun] }).table 7) = (quillS { runs := [idleRun] }).table (7 : Nat) ∧ (2 : Nat) = tSquill ((quillS { runs := [idleRun] }).table 7).word ∧ quillOk (quillS { runs := [idleRun] }) (2 : Nat) = true ∧ ((quillS { runs := [idleRun] }).table 7).st ≠ .free ∧ mustWait (quillS { runs := [idleRun] }) (bagMsg 0 0) = false ∧ (bagMsg 0 0).hdr.mcast = false ∧ (((.bag (bagMsg 0 0) : Instr) = .bag (bagMsg 0 0) ∧ (bagMsg 0 0).hdr.op = Op.bag) ∨ ((.bag (bagMsg 0 0) : Instr) = .filter (bagMsg 0 0) ∧ (bagMsg 0 0).hdr.op = Op.filter) ∨ ((.bag (bagMsg 0 0) : Instr) = .scatterAdd (bagMsg 0 0) ∧ (bagMsg 0 0).hdr.op = Op.scatterAdd)) ∧ tableAdmits (quillS { runs := [idleRun] }) ((quillS { runs := [idleRun] }).table 7) (bagMsg 0 0).hdr = true ∧ queueMsgs ((quillS { runs := [idleRun] }).quill (2 : Nat)) < 65536 ∧ queueBytes ((quillS { runs := [idleRun] }).quill (2 : Nat)) + (bagMsg 0 0).body.length ≤ 2 ^ 23 ∧ gRefusal (bagMsg 0 0) (tRowlen ((quillS { runs := [idleRun] }).table 7).word) = none ∧ gWin (bagMsg 0 0) = 0 ∧ ((quillS { runs := [idleRun] }).quill (2 : Nat)).runs.any (·.stage == .idle) = true) ∧
    (FirstTime winOpen (bagMsg 8 2).hdr ∧ (7 : Nat) = gTable (bagMsg 8 2).hdr ∧ (winOpen.table 7) = winOpen.table (7 : Nat) ∧ (2 : Nat) = tSquill (winOpen.table 7).word ∧ quillOk winOpen (2 : Nat) = true ∧ (winOpen.table 7).st ≠ .free ∧ mustWait winOpen (bagMsg 8 2) = false ∧ (bagMsg 8 2).hdr.mcast = false ∧ (((.bag (bagMsg 8 2) : Instr) = .bag (bagMsg 8 2) ∧ (bagMsg 8 2).hdr.op = Op.bag) ∨ ((.bag (bagMsg 8 2) : Instr) = .filter (bagMsg 8 2) ∧ (bagMsg 8 2).hdr.op = Op.filter) ∨ ((.bag (bagMsg 8 2) : Instr) = .scatterAdd (bagMsg 8 2) ∧ (bagMsg 8 2).hdr.op = Op.scatterAdd)) ∧ tableAdmits winOpen (winOpen.table 7) (bagMsg 8 2).hdr = true ∧ queueMsgs (winOpen.quill (2 : Nat)) < 65536 ∧ queueBytes (winOpen.quill (2 : Nat)) + (bagMsg 8 2).body.length ≤ 2 ^ 23 ∧ gRefusal (bagMsg 8 2) (tRowlen (winOpen.table 7).word) = none ∧ gWin (bagMsg 8 2) ≠ 0 ∧ (({ winKey with win := 8 } : WinKey)) = { op := (bagMsg 8 2).hdr.op, table := BitVec.ofNat 12 (7 : Nat), part := (bagMsg 8 2).hdr.part, win := BitVec.ofNat 16 (gWin (bagMsg 8 2)) } ∧ (winOpen.quill (2 : Nat)).wins.find? (fun w => w.key == (({ winKey with win := 8 } : WinKey))) = none ∧ (({ winKey with win := 8 } : WinKey)) ∉ (winOpen.quill (2 : Nat)).served ∧ (winOpen.quill (2 : Nat)).wins.length < 16 ∧ 1 < gWcnt (bagMsg 8 2)) ∧
    (FirstTime winOpen (bagMsg 6 2).hdr ∧ (7 : Nat) = gTable (bagMsg 6 2).hdr ∧ (winOpen.table 7) = winOpen.table (7 : Nat) ∧ (2 : Nat) = tSquill (winOpen.table 7).word ∧ quillOk winOpen (2 : Nat) = true ∧ (winOpen.table 7).st ≠ .free ∧ mustWait winOpen (bagMsg 6 2) = false ∧ (bagMsg 6 2).hdr.mcast = false ∧ (((.bag (bagMsg 6 2) : Instr) = .bag (bagMsg 6 2) ∧ (bagMsg 6 2).hdr.op = Op.bag) ∨ ((.bag (bagMsg 6 2) : Instr) = .filter (bagMsg 6 2) ∧ (bagMsg 6 2).hdr.op = Op.filter) ∨ ((.bag (bagMsg 6 2) : Instr) = .scatterAdd (bagMsg 6 2) ∧ (bagMsg 6 2).hdr.op = Op.scatterAdd)) ∧ tableAdmits winOpen (winOpen.table 7) (bagMsg 6 2).hdr = true ∧ queueMsgs (winOpen.quill (2 : Nat)) < 65536 ∧ queueBytes (winOpen.quill (2 : Nat)) + (bagMsg 6 2).body.length ≤ 2 ^ 23 ∧ gRefusal (bagMsg 6 2) (tRowlen (winOpen.table 7).word) = none ∧ gWin (bagMsg 6 2) ≠ 0 ∧ winKey = { op := (bagMsg 6 2).hdr.op, table := BitVec.ofNat 12 (7 : Nat), part := (bagMsg 6 2).hdr.part, win := BitVec.ofNat 16 (gWin (bagMsg 6 2)) } ∧ ((winOpen.quill 2).wins.find? (fun w => w.key == winKey) = some { key := winKey, wcnt := 2, reqs := [{ bagReq with msg := bagMsg 6 2 }] }) ∧ (({ key := winKey, wcnt := 2, reqs := [{ bagReq with msg := bagMsg 6 2 }] } : Win)).wcnt = gWcnt (bagMsg 6 2) ∧ (({ key := winKey, wcnt := 2, reqs := [{ bagReq with msg := bagMsg 6 2 }] } : Win)).reqs.length + 1 = (({ key := winKey, wcnt := 2, reqs := [{ bagReq with msg := bagMsg 6 2 }] } : Win)).wcnt ∧ (((({ key := winKey, wcnt := 2, reqs := [{ bagReq with msg := bagMsg 6 2 }] } : Win)).reqs ++ [({ msg := (bagMsg 6 2), table := (7 : Nat) } : GReq)]).map fun x => gNidx x.msg).sum ≤ 2 ^ 20) ∧
    (((∀ x ∈ gIndices bagReq.msg, bagRead.posStatus x = St.ok)) ∧ (bagDone.quill 2) = bagDone.quill ((2 : Quill)).val ∧ (bagDone.quill 2).runs = [bagRead] ∧ (bagDone.quill 2).jobs = [] ∧ bagRead.ready = true ∧ bagRead.esc.isSome = true ∧ bagRead.stage = .reading ∧ bagRead.reqs = [bagReq] ∧ bagRead.cur = 1 ∧ bagReq.msg.hdr.op = Op.bag ∧ bagReq.msg.hdr.seal = false ∧ gRop bagReq.msg = some (Rop.sum) ∧ gOfmt bagReq.msg = some (Fmt.fp32) ∧ (Fmt.fp32).isMx = false) ∧
    ((bagWaiting.quill 2) = bagWaiting.quill ((2 : Quill)).val ∧ (bagWaiting.quill 2).runs = [] ∧ (bagWaiting.quill 2).jobs = [{ win := false, reqs := [bagReq] }] ∧ bagReq.msg.hdr.op = Op.bag ∧ gNidx bagReq.msg ≤ 4096 ∧ removing bagWaiting (quillOwner bagWaiting ((2 : Quill)).val) = false ∧ itemElems (tRowlen (bagWaiting.table bagReq.table).word) bagReq ≤ min 131072 (1024 * (slotsOf bagWaiting ((2 : Quill)).val - slotsUsed bagWaiting ((2 : Quill)).val))) ∧
    ((winOpen.quill 2) = winOpen.quill ((2 : Quill)).val ∧ (winOpen.quill 2).wins.find? (fun x => x.key == winKey) = some (({ key := winKey, wcnt := 2, reqs := [{ bagReq with msg := bagMsg 6 2 }] } : Win))) ∧
    ((winOpen.quill 2) = winOpen.quill ((2 : Quill)).val ∧ (({ winKey with win := 5 } : WinKey)) ∈ (winOpen.quill 2).served) ∧
    ((winOpen.quill 2) = winOpen.quill ((2 : Quill)).val) := ⟨⟨(by unfold FirstTime; decide +kernel), by and_intros <;> decide +kernel⟩,
    ⟨(by unfold FirstTime; decide +kernel), by and_intros <;> decide +kernel⟩,
    ⟨(by unfold FirstTime; decide +kernel), by and_intros <;> decide +kernel⟩,
    ⟨(by unfold FirstTime; decide +kernel), by and_intros <;> decide +kernel⟩,
    ⟨(by unfold FirstTime; decide +kernel), by and_intros <;> decide +kernel⟩,
    ⟨(by unfold FirstTime; decide +kernel), by and_intros <;> decide +kernel⟩,
    ⟨(by unfold FirstTime; decide +kernel), by and_intros <;> decide +kernel⟩,
    ⟨all_of (by decide +kernel), by and_intros <;> decide +kernel⟩,
    by and_intros <;> decide +kernel⟩

/-- ObjectsAndMoves. -/
theorem witness_ObjectsAndMoves :
    (FirstTime (objAt .home 0) (moveMsg9 t0Home).hdr ∧ (9 : Nat) = bits (moveMsg9 t0Home).hdr.addr.toNat 47 34 ∧ ((objAt .home 0).object 9) = (objAt .home 0).object (9 : Nat) ∧ (objDesc 0 t0Home) = BitVec.ofNat 512 (leAt (moveMsg9 t0Home).body 0 64) ∧ mustWait (objAt .home 0) (moveMsg9 t0Home) = false ∧ (moveMsg9 t0Home).hdr.mcast = false ∧ spaceOf (moveMsg9 t0Home).hdr.addr.toNat = 2 ∧ bits (moveMsg9 t0Home).hdr.addr.toNat 33 0 = 0 ∧ (moveMsg9 t0Home).body.length = 64 ∧ (((objAt .home 0).object 9).st = .home ∨ ((objAt .home 0).object 9).st = .split) ∧ ((objAt .home 0).object 9).owner.val = (moveMsg9 t0Home).hdr.part.toNat ∧ odValid (objDesc 0 t0Home) = true ∧ odOwner (objDesc 0 t0Home) = ((objAt .home 0).object 9).owner.val ∧ odOkind (objDesc 0 t0Home) = ((objAt .home 0).object 9).okind ∧ odSize (objDesc 0 t0Home) = ((objAt .home 0).object 9).size ∧ destRefusal (objAt .home 0) (9 : Nat) ((objAt .home 0).object 9) (odDsta (objDesc 0 t0Home)) = some (St.boundExceeded)) ∧
    (FirstTime (objAt .home 0) (moveMsg9 0x100000).hdr ∧ (9 : Nat) = bits (moveMsg9 0x100000).hdr.addr.toNat 47 34 ∧ ((objAt .home 0).object 9) = (objAt .home 0).object (9 : Nat) ∧ (objDesc 0 0x100000) = BitVec.ofNat 512 (leAt (moveMsg9 0x100000).body 0 64) ∧ mustWait (objAt .home 0) (moveMsg9 0x100000) = false ∧ (moveMsg9 0x100000).hdr.mcast = false ∧ spaceOf (moveMsg9 0x100000).hdr.addr.toNat = 2 ∧ bits (moveMsg9 0x100000).hdr.addr.toNat 33 0 = 0 ∧ (moveMsg9 0x100000).body.length = 64 ∧ (((objAt .home 0).object 9).st = .home ∨ ((objAt .home 0).object 9).st = .split) ∧ ((objAt .home 0).object 9).owner.val = (moveMsg9 0x100000).hdr.part.toNat ∧ odValid (objDesc 0 0x100000) = true ∧ odOwner (objDesc 0 0x100000) = ((objAt .home 0).object 9).owner.val ∧ odOkind (objDesc 0 0x100000) = ((objAt .home 0).object 9).okind ∧ odSize (objDesc 0 0x100000) = ((objAt .home 0).object 9).size ∧ destRefusal (objAt .home 0) (9 : Nat) ((objAt .home 0).object 9) (odDsta (objDesc 0 0x100000)) = none ∧ alreadyHome ((objAt .home 0).object 9) (odDsta (objDesc 0 0x100000)) = true) ∧
    (FirstTime (objAt .home 0) (moveMsg9 0x200000).hdr ∧ (9 : Nat) = bits (moveMsg9 0x200000).hdr.addr.toNat 47 34 ∧ ((objAt .home 0).object 9) = (objAt .home 0).object (9 : Nat) ∧ (objDesc 0 0x200000) = BitVec.ofNat 512 (leAt (moveMsg9 0x200000).body 0 64) ∧ mustWait (objAt .home 0) (moveMsg9 0x200000) = false ∧ (moveMsg9 0x200000).hdr.mcast = false ∧ spaceOf (moveMsg9 0x200000).hdr.addr.toNat = 2 ∧ bits (moveMsg9 0x200000).hdr.addr.toNat 33 0 = 0 ∧ (moveMsg9 0x200000).body.length = 64 ∧ (((objAt .home 0).object 9).st = .home ∨ ((objAt .home 0).object 9).st = .split) ∧ ((objAt .home 0).object 9).owner.val = (moveMsg9 0x200000).hdr.part.toNat ∧ odValid (objDesc 0 0x200000) = true ∧ odOwner (objDesc 0 0x200000) = ((objAt .home 0).object 9).owner.val ∧ odOkind (objDesc 0 0x200000) = ((objAt .home 0).object 9).okind ∧ odSize (objDesc 0 0x200000) = ((objAt .home 0).object 9).size ∧ destRefusal (objAt .home 0) (9 : Nat) ((objAt .home 0).object 9) (odDsta (objDesc 0 0x200000)) = none ∧ alreadyHome ((objAt .home 0).object 9) (odDsta (objDesc 0 0x200000)) = false ∧ isT0 (odDsta (objDesc 0 0x200000)) = false) ∧
    (readPhys (moveRuns (some (moveMsg9 0x200000))) (269484032) 65536 = some (Memory.readN (moveRuns (some (moveMsg9 0x200000))).mem 269484032 65536) ∧ firstDead (moveRuns (some (moveMsg9 0x200000))) (270532608) 65536 = none ∧ ((moveRuns none).object 9) = (moveRuns (some (moveMsg9 0x200000))).object (aMove true (some (moveMsg9 0x200000))).obj ∧ ((moveRuns (some (moveMsg9 0x200000))).moves.find? (fun x => x.engine == 3) = some (aMove true (some (moveMsg9 0x200000)))) ∧ (aMove true (some (moveMsg9 0x200000))).transit = true ∧ (moveRuns (some (moveMsg9 0x200000))).transitWait = [] ∧ (aMove true (some (moveMsg9 0x200000))).ends = some (pieceFrom, pieceTo) ∧ pieceFrom.loc = .phys (269484032) ∧ pieceTo.loc = .phys (270532608) ∧ (aMove true (some (moveMsg9 0x200000))).rd = none ∧ (aMove true (some (moveMsg9 0x200000))).wr = none ∧ ((moveRuns none).object 9).size ≤ (aMove true (some (moveMsg9 0x200000))).piece + 1 ∧ (aMove true (some (moveMsg9 0x200000))).req = some (moveMsg9 0x200000) ∧ findOp (moveRuns (some (moveMsg9 0x200000))) (moveMsg9 0x200000).hdr = some doneRec ∧ doneRec.ndup = 0 ∧ (moveMsg9 0x200000).hdr.mcast = false) ∧
    ((9 : BitVec 16).toNat < 16384 ∧ (isOpr withQuills opr = true ∨ opr.role = .prt) ∧ ownerWrites withQuills opr (odOwner (objDesc 0x100000 0)) = true ∧ descriptorOk withQuills (9 : BitVec 16).toNat (objDesc 0x100000 0) = true) ∧
    (((objAt .home 0).object 9) = (objAt .home 0).object (9 : BitVec 16).toNat ∧ (9 : BitVec 16).toNat < 16384 ∧ (((objAt .home 0).object 9).st = .home ∨ ((objAt .home 0).object 9).st = .split) ∧ ownerWrites (objAt .home 0) opr ((objAt .home 0).object 9).owner.val = true) ∧
    ((moveQueued.object 9) = moveQueued.object (aMove false (some (moveMsg9 0x200000))).obj ∧ moveQueued.moves.any (fun x => x.engine == (3 : Fin 22).val) = false ∧ moveQueued.moveQ.find? (fun x => x.engine == (3 : Fin 22).val && !removing moveQueued (moveQueued.object x.obj).owner.val) = some (aMove false (some (moveMsg9 0x200000))) ∧ (aMove false (some (moveMsg9 0x200000))).transit = false ∧ pieceBusy moveQueued (aMove false (some (moveMsg9 0x200000))).obj (aMove false (some (moveMsg9 0x200000))).piece = false) ∧
    (((moveRuns none).object 9) = (moveRuns none).object (aMove true none).obj ∧ (moveRuns none).moves.find? (fun x => x.engine == (3 : Fin 22).val) = some (aMove true none) ∧ (aMove true none).transit = true ∧ (moveRuns none).transitWait = [] ∧ (9 : BitVec 8) ≠ St.ok ∧ (aMove true none).req = none) := ⟨⟨(by unfold FirstTime; decide +kernel), by and_intros <;> decide +kernel⟩,
    ⟨(by unfold FirstTime; decide +kernel), by and_intros <;> decide +kernel⟩,
    ⟨(by unfold FirstTime; decide +kernel), by and_intros <;> decide +kernel⟩,
    ⟨readPhys_of (by decide +kernel), firstDead_of (by decide +kernel), by and_intros <;> decide +kernel⟩,
    by and_intros <;> decide +kernel⟩

/-- PrefetchSchedules. -/
theorem witness_PrefetchSchedules :
    (((objAt .home 0).sched 4) = (objAt .home 0).sched (bits schedWord.toNat 7 0) ∧ bits schedWord.toNat 7 0 < 64 ∧ bits schedWord.toNat 14 8 < 32 ∧ (isOpr (objAt .home 0) opr = true ∨ opr.role = .prt) ∧ ownerWrites (objAt .home 0) opr (bits schedWord.toNat 14 8) = true ∧ ((objAt .home 0).sched 4).valid = false ∧ ((objAt .home 0).sched 4).active = false) ∧
    ((11 : BitVec 16).toNat < 16384 ∧ (isOpr (schedS { aSched with active := true, nent := 1 }) opr = true ∨ opr.role = .prt) ∧ ownerWrites (schedS { aSched with active := true, nent := 1 }) opr (entryOwner (schedS { aSched with active := true, nent := 1 }) (11 : BitVec 16).toNat) = true ∧ (schedS { aSched with active := true, nent := 1 }).scheds.any (fun x => x.2.active && inRange x.2 (11 : BitVec 16).toNat) = false) ∧
    (aSched = (schedS aSched).sched (4 : BitVec 8).toNat ∧ (4 : BitVec 8).toNat < 64 ∧ ownerWrites (schedS aSched) opr aSched.owner.val = true ∧ aSched.valid = true ∧ aSched.active = false ∧ schedOk (schedS aSched) (4 : BitVec 8).toNat aSched = true) ∧
    ((({ aSched with nent := 2 } : Sched)) = (schedS { aSched with nent := 2 }).sched (4 : BitVec 8).toNat ∧ (4 : BitVec 8).toNat < 64 ∧ ownerWrites (schedS { aSched with nent := 2 }) opr (({ aSched with nent := 2 } : Sched)).owner.val = true ∧ (({ aSched with nent := 2 } : Sched)).valid = true ∧ (({ aSched with nent := 2 } : Sched)).active = false ∧ schedOk (schedS { aSched with nent := 2 }) (4 : BitVec 8).toNat (({ aSched with nent := 2 } : Sched)) = false) ∧
    ((({ aSched with active := true } : Sched)) = (schedS { aSched with active := true }).sched (4 : BitVec 8).toNat ∧ (4 : BitVec 8).toNat < 64 ∧ ownerWrites (schedS { aSched with active := true }) opr (({ aSched with active := true } : Sched)).owner.val = true ∧ (({ aSched with active := true } : Sched)).active = true) ∧
    (triggerOk (schedS aSched) (triggerMsg 2 0 6) = false) ∧
    (triggerOk (schedS { aSched with active := true }) (triggerMsg 2 0 6) = true ∧ (({ aSched with active := true } : Sched)) = (schedS { aSched with active := true }).sched (trSched (triggerMsg 2 0 6).body) ∧ trKind (triggerMsg 2 0 6).body = 2 ∧ newer (trStep (triggerMsg 2 0 6).body) (({ aSched with active := true } : Sched)).step = true ∧ (schedS { aSched with active := true }).staged = none) ∧
    (triggerOk (schedS { aSched with active := true }) (triggerMsg 2 0 5) = true ∧ (({ aSched with active := true } : Sched)) = (schedS { aSched with active := true }).sched (trSched (triggerMsg 2 0 5).body) ∧ trKind (triggerMsg 2 0 5).body = 2 ∧ newer (trStep (triggerMsg 2 0 5).body) (({ aSched with active := true } : Sched)).step = false) ∧
    (triggerOk (schedS { aSched with active := true }) (triggerMsg 1 2 5) = true ∧ (({ aSched with active := true } : Sched)) = (schedS { aSched with active := true }).sched (trSched (triggerMsg 1 2 5).body) ∧ trKind (triggerMsg 1 2 5).body = 1 ∧ trStep (triggerMsg 1 2 5).body = (({ aSched with active := true } : Sched)).step ∧ (({ aSched with active := true } : Sched)).layer ≤ trLayer (triggerMsg 1 2 5).body) := by and_intros <;> decide +kernel

/-- CompressionRequests. -/
theorem witness_CompressionRequests :
    (FirstTime slotEmpty (encMsg 5 6).hdr ∧ ((∀ x ∈ slotEmpty.basisJobs, x.slot = (1 : Nat) → x.stage ≠ .waiting)) ∧ (0 : Nat) = (encMsg 5 6).hdr.part.toNat ∧ (0 : Nat) = leadQuill slotEmpty (0 : Nat) ∧ (ingQuill 0) = (if (partQuills slotEmpty (0 : Nat)).isEmpty then ingMemory else ingQuill (0 : Nat)) ∧ ((0 : BitVec 8)) = quillFlag slotEmpty (0 : Nat) ∧ (1 : Nat) = eSlot (encMsg 5 6) ∧ mustWait slotEmpty (encMsg 5 6) = false ∧ (encMsg 5 6).hdr.mcast = false ∧ (slotEmpty.slot (1 : Nat)).entries.length = 4 ∧ ((.build (encMsg 5 6) : Instr) = .build (encMsg 5 6) ∨ (.build (encMsg 5 6) : Instr) = .encode (encMsg 5 6) ∨ (.build (encMsg 5 6) : Instr) = .basisLoad (encMsg 5 6) ∨ (.build (encMsg 5 6) : Instr) = .basisRetire (encMsg 5 6)) ∧ encRefusal slotEmpty (encMsg 5 6) = some (St.formatUnsupported)) ∧
    (FirstTime slotEmpty (encMsg 1 7).hdr ∧ ((∀ x ∈ slotEmpty.basisJobs, x.slot = (1 : Nat) → x.stage ≠ .waiting)) ∧ (0 : Nat) = (encMsg 1 7).hdr.part.toNat ∧ (0 : Nat) = leadQuill slotEmpty (0 : Nat) ∧ (ingQuill 0) = (if (partQuills slotEmpty (0 : Nat)).isEmpty then ingMemory else ingQuill (0 : Nat)) ∧ ((0 : BitVec 8)) = quillFlag slotEmpty (0 : Nat) ∧ (1 : Nat) = eSlot (encMsg 1 7) ∧ mustWait slotEmpty (encMsg 1 7) = false ∧ (encMsg 1 7).hdr.mcast = false ∧ (slotEmpty.slot (1 : Nat)).entries.length = 4 ∧ encRefusal slotEmpty (encMsg 1 7) = none ∧ eCmd (encMsg 1 7) = 1 ∧ emptyEntry slotEmpty (1 : Nat) = some (0)) ∧
    (FirstTime slotFull (encMsg 1 7).hdr ∧ ((∀ x ∈ slotFull.basisJobs, x.slot = (1 : Nat) → x.stage ≠ .waiting)) ∧ (0 : Nat) = (encMsg 1 7).hdr.part.toNat ∧ (0 : Nat) = leadQuill slotFull (0 : Nat) ∧ (ingQuill 0) = (if (partQuills slotFull (0 : Nat)).isEmpty then ingMemory else ingQuill (0 : Nat)) ∧ ((0 : BitVec 8)) = quillFlag slotFull (0 : Nat) ∧ (1 : Nat) = eSlot (encMsg 1 7) ∧ mustWait slotFull (encMsg 1 7) = false ∧ (encMsg 1 7).hdr.mcast = false ∧ (slotFull.slot (1 : Nat)).entries.length = 4 ∧ encRefusal slotFull (encMsg 1 7) = none ∧ eCmd (encMsg 1 7) = 1 ∧ emptyEntry slotFull (1 : Nat) = none) ∧
    (FirstTime slotEmpty (encMsg 2 6).hdr ∧ ((∀ x ∈ slotEmpty.basisJobs, x.slot = (1 : Nat) → x.stage ≠ .waiting)) ∧ (0 : Nat) = (encMsg 2 6).hdr.part.toNat ∧ (0 : Nat) = leadQuill slotEmpty (0 : Nat) ∧ (ingQuill 0) = (if (partQuills slotEmpty (0 : Nat)).isEmpty then ingMemory else ingQuill (0 : Nat)) ∧ ((0 : BitVec 8)) = quillFlag slotEmpty (0 : Nat) ∧ (1 : Nat) = eSlot (encMsg 2 6) ∧ mustWait slotEmpty (encMsg 2 6) = false ∧ (encMsg 2 6).hdr.mcast = false ∧ (slotEmpty.slot (1 : Nat)).entries.length = 4 ∧ encRefusal slotEmpty (encMsg 2 6) = none ∧ eCmd (encMsg 2 6) = 2 ∧ findGen slotEmpty (1 : Nat) (eGen (encMsg 2 6)) isReady = some (1)) ∧
    (FirstTime slotEmpty (encMsg 2 9).hdr ∧ ((∀ x ∈ slotEmpty.basisJobs, x.slot = (1 : Nat) → x.stage ≠ .waiting)) ∧ (0 : Nat) = (encMsg 2 9).hdr.part.toNat ∧ (0 : Nat) = leadQuill slotEmpty (0 : Nat) ∧ (ingQuill 0) = (if (partQuills slotEmpty (0 : Nat)).isEmpty then ingMemory else ingQuill (0 : Nat)) ∧ ((0 : BitVec 8)) = quillFlag slotEmpty (0 : Nat) ∧ (1 : Nat) = eSlot (encMsg 2 9) ∧ mustWait slotEmpty (encMsg 2 9) = false ∧ (encMsg 2 9).hdr.mcast = false ∧ (slotEmpty.slot (1 : Nat)).entries.length = 4 ∧ encRefusal slotEmpty (encMsg 2 9) = none ∧ eCmd (encMsg 2 9) = 2 ∧ findGen slotEmpty (1 : Nat) (eGen (encMsg 2 9)) isReady = none) ∧
    (FirstTime slotEmpty (encMsg 3 6).hdr ∧ ((∀ x ∈ slotEmpty.basisJobs, x.slot = 1 → x.stage ≠ .waiting)) ∧ resolveRange slotEmpty (0 : Nat) (eIaddr (encMsg 3 6)) 32 false = .segs [(expSeg 0x3000 32)] ∧ readPhys slotEmpty (physSlice 4 + 0x3000) 32 = some (leBytes 32 (7 + 2 ^ 8 + 544 * 2 ^ 32)) ∧ (0 : Nat) = (encMsg 3 6).hdr.part.toNat ∧ (0 : Nat) = leadQuill slotEmpty (0 : Nat) ∧ (ingQuill 0) = (if (partQuills slotEmpty (0 : Nat)).isEmpty then ingMemory else ingQuill (0 : Nat)) ∧ ((0 : BitVec 8)) = quillFlag slotEmpty (0 : Nat) ∧ (1 : Nat) = eSlot (encMsg 3 6) ∧ mustWait slotEmpty (encMsg 3 6) = false ∧ (encMsg 3 6).hdr.mcast = false ∧ (slotEmpty.slot (1 : Nat)).entries.length = 4 ∧ encRefusal slotEmpty (encMsg 3 6) = none ∧ eCmd (encMsg 3 6) = 3 ∧ (expSeg 0x3000 32).loc = .phys (physSlice 4 + 0x3000) ∧ (expSeg 0x3000 32).len = 32 ∧ findGen slotEmpty (1 : Nat) (BitVec.ofNat 8 (leAt (leBytes 32 (7 + 2 ^ 8 + 544 * 2 ^ 32)) 0 1)) notEmpty = none ∧ 1 ≤ leAt (leBytes 32 (7 + 2 ^ 8 + 544 * 2 ^ 32)) 1 1 ∧ leAt (leBytes 32 (7 + 2 ^ 8 + 544 * 2 ^ 32)) 1 1 ≤ 64 ∧ leAt (leBytes 32 (7 + 2 ^ 8 + 544 * 2 ^ 32)) 4 4 = 32 + 512 * leAt (leBytes 32 (7 + 2 ^ 8 + 544 * 2 ^ 32)) 1 1 ∧ rangeOk slotEmpty (0 : Nat) (eIaddr (encMsg 3 6)) (32 + 512 * leAt (leBytes 32 (7 + 2 ^ 8 + 544 * 2 ^ 32)) 1 1) false = true ∧ emptyEntry slotEmpty (1 : Nat) = some (0)) ∧
    (FirstTime slotEmpty (encMsg 4 6).hdr ∧ ((∀ x ∈ slotEmpty.basisJobs, x.slot = (1 : Nat) → x.stage ≠ .waiting)) ∧ (0 : Nat) = (encMsg 4 6).hdr.part.toNat ∧ (0 : Nat) = leadQuill slotEmpty (0 : Nat) ∧ (ingQuill 0) = (if (partQuills slotEmpty (0 : Nat)).isEmpty then ingMemory else ingQuill (0 : Nat)) ∧ ((0 : BitVec 8)) = quillFlag slotEmpty (0 : Nat) ∧ (1 : Nat) = eSlot (encMsg 4 6) ∧ mustWait slotEmpty (encMsg 4 6) = false ∧ (encMsg 4 6).hdr.mcast = false ∧ (slotEmpty.slot (1 : Nat)).entries.length = 4 ∧ encRefusal slotEmpty (encMsg 4 6) = none ∧ eCmd (encMsg 4 6) = 4 ∧ findGen slotEmpty (1 : Nat) (eGen (encMsg 4 6)) isReady = some (1)) ∧
    (((∀ e ∈ withQuills.slots, ∀ g ∈ e.2.entries, g.st = .empty)) ∧ isOpr withQuills opr = true ∧ sliceExists withQuills (100 : BitVec 8).toNat = true ∧ sliceGranted withQuills (100 : BitVec 8).toNat = false ∧ (100 : BitVec 8).toNat ∉ dirSliceList withQuills ∧ (100 : BitVec 8).toNat ∉ (List.range 16).map (queueSliceOf withQuills) ∧ (100 : BitVec 8).toNat ∉ spillSliceList withQuills) ∧
    (((∀ x ∈ slotEmpty.basisJobs, x.slot = bits (BitVec.ofNat 32 (1 + 6 * 2 ^ 16)).toNat 8 0 → x.stage ≠ .waiting)) ∧ oprOver slotEmpty opr (slotEmpty.slot (bits (BitVec.ofNat 32 (1 + 6 * 2 ^ 16)).toNat 8 0)).owner.val = true ∧ (slotEmpty.slot (bits (BitVec.ofNat 32 (1 + 6 * 2 ^ 16)).toNat 8 0)).entries.length = 4 ∧ findGen slotEmpty (bits (BitVec.ofNat 32 (1 + 6 * 2 ^ 16)).toNat 8 0) (BitVec.ofNat 8 (bits (BitVec.ofNat 32 (1 + 6 * 2 ^ 16)).toNat 23 16)) isReady = some (1 : Nat)) ∧
    (((∀ x ∈ slotEmpty.basisJobs, x.slot = bits (BitVec.ofNat 32 (1 + 9 * 2 ^ 16)).toNat 8 0 → x.stage ≠ .waiting)) ∧ oprOver slotEmpty opr (slotEmpty.slot (bits (BitVec.ofNat 32 (1 + 9 * 2 ^ 16)).toNat 8 0)).owner.val = true ∧ (slotEmpty.slot (bits (BitVec.ofNat 32 (1 + 9 * 2 ^ 16)).toNat 8 0)).entries.length = 4 ∧ findGen slotEmpty (bits (BitVec.ofNat 32 (1 + 9 * 2 ^ 16)).toNat 8 0) (BitVec.ofNat 8 (bits (BitVec.ofNat 32 (1 + 9 * 2 ^ 16)).toNat 23 16)) isReady = none) ∧
    ((isOpr slotEmpty opr = true ∨ opr.role = .prt) ∧ bits (BitVec.ofNat 64 (511 + 2 ^ 23)).toNat 15 0 < 512 ∧ bits (BitVec.ofNat 64 (511 + 2 ^ 23)).toNat 22 16 < 32 ∧ ownerWrites slotEmpty opr (bits (BitVec.ofNat 64 (511 + 2 ^ 23)).toNat 22 16) = true ∧ (slotEmpty.slot (bits (BitVec.ofNat 64 (511 + 2 ^ 23)).toNat 15 0)).valid = false) := ⟨⟨(by unfold FirstTime; decide +kernel), all_of (by decide +kernel), by and_intros <;> decide +kernel⟩,
    ⟨(by unfold FirstTime; decide +kernel), all_of (by decide +kernel), by and_intros <;> decide +kernel⟩,
    ⟨(by unfold FirstTime; decide +kernel), all_of (by decide +kernel), by and_intros <;> decide +kernel⟩,
    ⟨(by unfold FirstTime; decide +kernel), all_of (by decide +kernel), by and_intros <;> decide +kernel⟩,
    ⟨(by unfold FirstTime; decide +kernel), all_of (by decide +kernel), by and_intros <;> decide +kernel⟩,
    ⟨(by unfold FirstTime; decide +kernel), all_of (by decide +kernel), by rfl, readPhys_is (by decide +kernel) (by decide +kernel), by and_intros <;> decide +kernel⟩,
    ⟨(by unfold FirstTime; decide +kernel), all_of (by decide +kernel), by and_intros <;> decide +kernel⟩,
    ⟨all_of (by decide +kernel), by and_intros <;> decide +kernel⟩,
    ⟨all_of (by decide +kernel), by and_intros <;> decide +kernel⟩,
    ⟨all_of (by decide +kernel), by and_intros <;> decide +kernel⟩,
    by and_intros <;> decide +kernel⟩

/-- CompressionEnds. -/
theorem witness_CompressionEnds :
    ((0 : Nat) = ((encMsg 1 0).hdr).part.toNat ∧ (0 : Nat) = leadQuill (building .writing) (0 : Nat) ∧ (ingQuill 0) = (if (partQuills (building .writing) (0 : Nat)).isEmpty then ingMemory else ingQuill (0 : Nat)) ∧ ((0 : BitVec 8)) = quillFlag (building .writing) (0 : Nat) ∧ findOp (building .writing) ((encMsg 1 0).hdr) = some doneRec ∧ doneRec.ndup = 0 ∧ ((encMsg 1 0).hdr).mcast = false ∧ ((building .writing).slot (1 : Fin 512).val).entries.length = 4 ∧ (buildJob .writing).msg.hdr = ((encMsg 1 0).hdr) ∧ (buildJob .writing).stage = .writing ∧ allDone (buildJob .writing).writes = true ∧ failedSub (buildJob .writing).writes = none ∧ ((building .writing).basisJobs.find? fun x => x.slot == (1 : Fin 512).val && x.entry == (0 : Fin 4).val && (x.stage == .reading || x.stage == .writing)) = some (buildJob .writing)) ∧
    ((0 : Nat) = ((encMsg 1 0).hdr).part.toNat ∧ (0 : Nat) = leadQuill (building .waiting) (0 : Nat) ∧ (ingQuill 0) = (if (partQuills (building .waiting) (0 : Nat)).isEmpty then ingMemory else ingQuill (0 : Nat)) ∧ ((0 : BitVec 8)) = quillFlag (building .waiting) (0 : Nat) ∧ findOp (building .waiting) ((encMsg 1 0).hdr) = some doneRec ∧ doneRec.ndup = 0 ∧ ((encMsg 1 0).hdr).mcast = false ∧ (buildJob .waiting).msg.hdr = ((encMsg 1 0).hdr) ∧ ((building .waiting).basisJobs.find? fun x => hdrKey x.msg.hdr == aKey && x.stage == .waiting) = some (buildJob .waiting)) ∧
    ((0 : Nat) = ((encMsg 2 6).hdr).part.toNat ∧ (0 : Nat) = leadQuill encoding (0 : Nat) ∧ (ingQuill 0) = (if (partQuills encoding (0 : Nat)).isEmpty then ingMemory else ingQuill (0 : Nat)) ∧ ((0 : BitVec 8)) = quillFlag encoding (0 : Nat) ∧ findOp encoding ((encMsg 2 6).hdr) = some doneRec ∧ doneRec.ndup = 0 ∧ ((encMsg 2 6).hdr).mcast = false ∧ encJob.msg.hdr = ((encMsg 2 6).hdr) ∧ (encoding.encJobs.find? fun x => hdrKey x.msg.hdr == aKey) = some encJob ∧ encJob.wrote = true ∧ encJob.indexed = true ∧ allDone encJob.writes = true ∧ failedSub encJob.writes = none ∧ encJob.block + 1 = blockCount encJob.msg ∧ (entryOf encoding encJob.slot encJob.entry).st = .ready ∧ (encoding.slot encJob.slot).entries.length = 4 ∧ encJob.entry < 4) := by and_intros <;> decide +kernel

def expEmpty : Msg := { expMsg 0x4000 with body := [] }

/-- Expansion. -/
theorem witness_Expansion :
    (resolveRange slotEmpty (0 : Nat) (xBaddr (expMsg 0x4000) 0) 32 false = .segs [(expSeg 0x4000 32)] ∧ readPhys slotEmpty (physSlice 4 + 0x4000) 32 = some rawHdr ∧ (0 : Nat) = (expMsg 0x4000).hdr.part.toNat ∧ (expSeg 0x4000 32).loc = .phys (physSlice 4 + 0x4000) ∧ expRefusal (expMsg 0x4000) = none ∧ mustWait slotEmpty (expMsg 0x4000) = false ∧ xNblk (expMsg 0x4000) = 1 ∧ slotEmpty.expResps = [] ∧ ((∀ e, e < 6 → (expQueue slotEmpty e).length < 1024)) ∧ (expSeg 0x4000 32).len = 32 ∧ bKind rawHdr = 1 ∧ (srcFmt (bSfmt rawHdr)).isSome = true ∧ bRank rawHdr ≤ 64 ∧ bNres rawHdr ≤ 512 ∧ impliedSize rawHdr = bDsize rawHdr ∧ bRows rawHdr * bCols rawHdr = bDelem rawHdr) ∧
    (resolveRange expanding (0 : Nat) expBlock.baddr.toNat (bDsize expBlock.hdr) false = .segs [(expSeg 0x4000 48)] ∧ readPhys expanding (physSlice 4 + 0x4000) (bDsize expBlock.hdr) = some (rawHdr ++ leBytes 16 0x3F800000400000003F80000040000000) ∧ (0 : Nat) = (expMsg 0x4000).hdr.part.toNat ∧ (expSeg 0x4000 48).loc = .phys (physSlice 4 + 0x4000) ∧ expQueue expanding (2 : Fin 6).val = expBlock :: ([] : List ExpBlock) ∧ expBlock.part.val = (0 : Nat) ∧ expBlock.read = none ∧ expBlock.entry = none ∧ expBlock.n = 0 ∧ expanding.expResps = [(({ id := 3, msg := expMsg 0x4000, heads := [], accepted := true, blocks := [{}] } : ExpResp))] ∧ (({ id := 3, msg := expMsg 0x4000, heads := [], accepted := true, blocks := [{}] } : ExpResp)).accepted = true ∧ (({ id := 3, msg := expMsg 0x4000, heads := [], accepted := true, blocks := [{}] } : ExpResp)).id = expBlock.id ∧ (({ id := 3, msg := expMsg 0x4000, heads := [], accepted := true, blocks := [{}] } : ExpResp)).blocks = [({} : ExpPart)] ∧ (({ id := 3, msg := expMsg 0x4000, heads := [], accepted := true, blocks := [{}] } : ExpResp)).msg = (expMsg 0x4000) ∧ xNblk (expMsg 0x4000) = 1 ∧ (expMsg 0x4000).hdr.seal = false ∧ srcFmt (xOfmt (expMsg 0x4000)) = some (.fp32 : Fmt) ∧ (expSeg 0x4000 48).len = bDsize expBlock.hdr ∧ expandBlock (.fp32 : Fmt) expBlock.hdr ((rawHdr ++ leBytes 16 0x3F800000400000003F80000040000000).drop 32) [] = some (leBytes 16 0x3F800000400000003F80000040000000)) ∧
    ((0 : Nat) = expEmpty.hdr.part.toNat ∧ (expSeg 0x4000 32).loc = .phys (physSlice 4 + 0x4000) ∧ expRefusal expEmpty = some (St.formatUnsupported) ∧ mustWait slotEmpty expEmpty = false) := ⟨⟨by rfl, readPhys_is (by decide +kernel) (by decide +kernel), by and_intros <;> decide +kernel⟩,
    ⟨by rfl, readPhys_is (by decide +kernel) (by decide +kernel), by and_intros <;> decide +kernel⟩,
    by and_intros <;> decide +kernel⟩

/-- GeneratorAndSealBatches. -/
theorem witness_GeneratorAndSealBatches :
    (isOpr up opr = true ∧ cgInstances up ≠ []) ∧
    (isOpr up opr = true ∧ cgInstances up ≠ [] ∧ (64 : Fin 80).val ∈ cgInstances up ∧ 64 ≤ (64 : Fin 80).val ∧ 3 ≤ (cgInstances up).length ∧ (5 : BitVec 128).toNat ≠ (ctrgen (7 : BitVec 64) word4[0] word4[1] word4[2] word4[3]).num ∧ unitState up (unitCode 7 (64 : Fin 80)) = 0 ∧ (recentTransients up (unitCode 7 (64 : Fin 80))).length < up.o (okey 0xA100 2) ∧ (up.unit (unitCode 7 (64 : Fin 80))).erred = false) ∧
    (ownerWrites (batchS none) (prt 0) (0 : Part).val = true ∧ (1 : BitVec 8) = 1 ∧ ((batchS none).batch (0 : Part).val).closed = none) ∧
    (ownerWrites (batchS (some [])) (prt 0) (0 : Part).val = true ∧ (1 : BitVec 8) = 1 ∧ ((batchS (some [])).batch (0 : Part).val).closed ≠ none) ∧
    (ownerWrites (batchS none) opr (0 : Part).val = true ∧ (2 : BitVec 8) ≠ 1) ∧
    (ownerWrites (batchS none) (prt 1) (0 : Part).val = false) ∧
    (((batchS (some [[3]])).batch (0 : Part).val).closed = some ([[3]] : List (List Byte))) := by and_intros <;> decide +kernel

/-- QuarantineAndSelfTest. -/
theorem witness_QuarantineAndSelfTest :
    ((0x05000021 : Nat) = channelUnit.toNat ∧ unitExists up (0x05000021 : Nat) = true ∧ up.dumap.stkch.length = 6 ∧ (unitType (0x05000021 : Nat) = 2 ∨ unitType (0x05000021 : Nat) = 4 ∨ unitType (0x05000021 : Nat) = 5 ∨ unitType (0x05000021 : Nat) = 6) ∧ unitState up (0x05000021 : Nat) = 0 ∧ noStandIn up (0x05000021 : Nat) = false ∧ (recentTransients up (0x05000021 : Nat)).length < up.o (okey 0xA100 2) ∧ (up.unit (0x05000021 : Nat)).erred = false) ∧
    ((0x02000003 : Nat) = bankUnit.toNat ∧ unitExists up (0x02000003 : Nat) = true ∧ up.dumap.stkch.length = 6 ∧ (unitType (0x02000003 : Nat) = 2 ∨ unitType (0x02000003 : Nat) = 4 ∨ unitType (0x02000003 : Nat) = 5 ∨ unitType (0x02000003 : Nat) = 6) ∧ unitState up (0x02000003 : Nat) = 0 ∧ noStandIn up (0x02000003 : Nat) = false ∧ (recentTransients up (0x02000003 : Nat)).length < up.o (okey 0xA100 2) ∧ (up.unit (0x02000003 : Nat)).erred = false) ∧
    ((0x05000021 : Nat) = channelUnit.toNat ∧ unitExists up (0x05000021 : Nat) = true ∧ up.dumap.stkch.length = 6 ∧ (unitType (0x05000021 : Nat) = 2 ∨ unitType (0x05000021 : Nat) = 4 ∨ unitType (0x05000021 : Nat) = 5 ∨ unitType (0x05000021 : Nat) = 6) ∧ unitState up (0x05000021 : Nat) = 0 ∧ noStandIn up (0x05000021 : Nat) = false ∧ isOpr up opr = true) ∧
    ((0x05000021 : Nat) = channelUnit.toNat ∧ unitExists (unitS channelUnit { trans := List.replicate 16 0 }) (0x05000021 : Nat) = true ∧ (unitS channelUnit { trans := List.replicate 16 0 }).dumap.stkch.length = 6 ∧ unitType (0x05000021 : Nat) = 5 ∧ (unitS channelUnit { trans := List.replicate 16 0 }).o (okey 0xA100 2) ≤ (recentTransients (unitS channelUnit { trans := List.replicate 16 0 }) (0x05000021 : Nat)).length ∧ unitState (unitS channelUnit { trans := List.replicate 16 0 }) (0x05000021 : Nat) = 0) ∧
    ((0x05000021 : Nat) = channelUnit.toNat ∧ unitExists (unitS channelUnit { st := 1 }) (0x05000021 : Nat) = true ∧ (unitS channelUnit { st := 1 }).dumap.stkch.length = 6 ∧ unitType (0x05000021 : Nat) = 5 ∧ unitState (unitS channelUnit { st := 1 }) (0x05000021 : Nat) = 1) ∧
    ((0x05000021 : Nat) = channelUnit.toNat ∧ unitExists (unitS channelUnit { st := 1 }) (0x05000021 : Nat) = true ∧ (unitS channelUnit { st := 1 }).dumap.stkch.length = 6 ∧ unitType (0x05000021 : Nat) = 5 ∧ unitState (unitS channelUnit { st := 1 }) (0x05000021 : Nat) = 1 ∧ ((unitS channelUnit { st := 1 }).unit (0x05000021 : Nat)).fails = 0) ∧
    ((0x05000021 : Nat) = channelUnit.toNat ∧ unitExists (unitS channelUnit { st := 1, fails := 1 }) (0x05000021 : Nat) = true ∧ (unitS channelUnit { st := 1, fails := 1 }).dumap.stkch.length = 6 ∧ unitType (0x05000021 : Nat) = 5 ∧ unitState (unitS channelUnit { st := 1, fails := 1 }) (0x05000021 : Nat) = 1 ∧ ((unitS channelUnit { st := 1, fails := 1 }).unit (0x05000021 : Nat)).fails ≠ 0) := by and_intros <;> decide +kernel

/-- PartitionConfigurationAndSealing. -/
theorem witness_PartitionConfigurationAndSealing :
    ((partS .open_).memOk ∧ (0 : BitVec 8).toNat < 4 ∧ (0 : BitVec 32).toNat < 2 ^ 24 ∧ oprOver (partS .open_) opr (3 : Part).val = true ∧ ((((partS .open_).part (3 : Part).val).st = .free ∨ ((partS .open_).part (3 : Part).val).st = .open_)) ∧ grantOk (3 : Part).val 128 (6 : BitVec 128).toNat ((partS .open_).part (3 : Part).val).ports.toNat (portOk (partS .open_)) (portOwner (partS .open_)) (fun i => ((partS .open_).port i).st == .disabled) = true) ∧
    ((partS .open_).memOk ∧ (0 : BitVec 8).toNat < 4 ∧ (0 : BitVec 32).toNat < 2 ^ 24 ∧ oprOver (partS .open_) opr (3 : Part).val = true ∧ ((((partS .open_).part (3 : Part).val).st = .free ∨ ((partS .open_).part (3 : Part).val).st = .open_)) ∧ grantOk (3 : Part).val 128 ((BitVec.ofNat 128 (2 ^ 127))).toNat ((partS .open_).part (3 : Part).val).ports.toNat (portOk (partS .open_)) (portOwner (partS .open_)) (fun i => ((partS .open_).port i).st == .disabled) = true) ∧
    (((partS .open_).modPort 3 fun v => { v with st := .active }).memOk ∧ (0 : BitVec 8).toNat < 4 ∧ (0 : BitVec 32).toNat < 2 ^ 24 ∧ oprOver ((partS .open_).modPort 3 fun v => { v with st := .active }) opr (3 : Part).val = true ∧ (((((partS .open_).modPort 3 fun v => { v with st := .active }).part (3 : Part).val).st = .free ∨ (((partS .open_).modPort 3 fun v => { v with st := .active }).part (3 : Part).val).st = .open_)) ∧ grantOk (3 : Part).val 128 (8 : BitVec 128).toNat (((partS .open_).modPort 3 fun v => { v with st := .active }).part (3 : Part).val).ports.toNat (portOk ((partS .open_).modPort 3 fun v => { v with st := .active })) (portOwner ((partS .open_).modPort 3 fun v => { v with st := .active })) (fun i => (((partS .open_).modPort 3 fun v => { v with st := .active }).port i).st == .disabled) = false) ∧
    ((partS .open_).memOk ∧ (3 : BitVec 8).toNat < 4 ∧ (0 : BitVec 32).toNat < 2 ^ 24 ∧ oprOver (partS .open_) opr (3 : Part).val = true ∧ ((((partS .open_).part (3 : Part).val).st = .free ∨ ((partS .open_).part (3 : Part).val).st = .open_)) ∧ grantOk (3 : Part).val 2 (3 : BitVec 8).toNat ((partS .open_).part (3 : Part).val).hosts.toNat (fun _ => true) (hostOwner (partS .open_)) (fun i => (partS .open_).o (hostObj i 0 1) == 0) = true) ∧
    ((partS .free).memOk ∧ (0 : BitVec 8).toNat < 4 ∧ (0 : BitVec 32).toNat < 2 ^ 24 ∧ oprOver (partS .free) opr (3 : Part).val = true ∧ ((((partS .free).part (3 : Part).val).st = .free ∨ ((partS .free).part (3 : Part).val).st = .open_)) ∧ grantOk (3 : Part).val 64 ((BitVec.ofNat 64 (2 ^ 63))).toNat ((partS .free).part (3 : Part).val).quills.toNat (quillOk (partS .free)) (quillOwner (partS .free)) (quillIdle (partS .free)) = true) ∧
    ((partS .open_).memOk ∧ (0 : BitVec 8).toNat < 4 ∧ (0 : BitVec 32).toNat < 2 ^ 24 ∧ oprOver (partS .open_) opr (3 : Part).val = true ∧ ((((partS .open_).part (3 : Part).val).st = .free ∨ ((partS .open_).part (3 : Part).val).st = .open_)) ∧ sliceMapOk (partS .open_) (3 : Part).val (mapTo [20#8, 21]).toList = true ∧ (3 : Part).val ≠ 0) ∧
    ((partS .open_).memOk ∧ (0 : BitVec 8).toNat < 4 ∧ (0 : BitVec 32).toNat < 2 ^ 24 ∧ oprOver (partS .open_) opr (0 : Part).val = true ∧ ((((partS .open_).part (0 : Part).val).st = .free ∨ ((partS .open_).part (0 : Part).val).st = .open_)) ∧ sliceMapOk (partS .open_) 0 (mapTo []).toList = true ∧ (0 : Part).val = 0) ∧
    ((partS .open_).memOk ∧ (0 : BitVec 8).toNat < 4 ∧ (0xFFFFFF : BitVec 32).toNat < 2 ^ 24 ∧ oprOver (partS .open_) opr (3 : Part).val = true ∧ ((((partS .open_).part (3 : Part).val).st = .free ∨ ((partS .open_).part (3 : Part).val).st = .open_)) ∧ (0xFFFFFF : BitVec 32).toNat ≠ 0 ∧ (0xFFFFFF : BitVec 32).toNat ≠ (devFid (partS .open_)).toNat) ∧
    ((partS .open_).memOk ∧ (0 : BitVec 8).toNat < 4 ∧ (0 : BitVec 32).toNat < 2 ^ 24 ∧ oprOver (partS .open_) opr (3 : Part).val = true ∧ ((((partS .open_).part (3 : Part).val).st = .free ∨ ((partS .open_).part (3 : Part).val).st = .open_)) ∧ ((0 : BitVec 32).toNat = 0 ∨ (0 : BitVec 32).toNat = (devFid (partS .open_)).toNat)) ∧
    ((partS .open_).memOk ∧ (0 : BitVec 8).toNat < 4 ∧ (0 : BitVec 32).toNat < 2 ^ 24 ∧ ((.hosts (prt 3) 3 0 : Instr) = .ports (prt 3) (3 : Part) (0 : BitVec 128) ∨ (.hosts (prt 3) 3 0 : Instr) = .hosts (prt 3) (3 : Part) (0 : BitVec 8) ∨ (.hosts (prt 3) 3 0 : Instr) = .quills (prt 3) (3 : Part) (0 : BitVec 64) ∨ (.hosts (prt 3) 3 0 : Instr) = .sliceMap (prt 3) (3 : Part) (mapTo []) ∨ (.hosts (prt 3) 3 0 : Instr) = .hfid (prt 3) (3 : Part) (0 : HostPort) (0 : BitVec 32)) ∧ oprOver (partS .open_) (prt 3) (3 : Part).val = false) ∧
    ((partS .removing).memOk ∧ (0 : BitVec 8).toNat < 4 ∧ (0 : BitVec 32).toNat < 2 ^ 24 ∧ ((.hosts opr 3 0 : Instr) = .ports opr (3 : Part) (0 : BitVec 128) ∨ (.hosts opr 3 0 : Instr) = .hosts opr (3 : Part) (0 : BitVec 8) ∨ (.hosts opr 3 0 : Instr) = .quills opr (3 : Part) (0 : BitVec 64) ∨ (.hosts opr 3 0 : Instr) = .sliceMap opr (3 : Part) (mapTo []) ∨ (.hosts opr 3 0 : Instr) = .hfid opr (3 : Part) (0 : HostPort) (0 : BitVec 32)) ∧ oprOver (partS .removing) opr (3 : Part).val = true ∧ ((partS .removing).part (3 : Part).val).st ≠ .free ∧ ((partS .removing).part (3 : Part).val).st ≠ .open_) ∧
    (isOpr up opr = true ∧ (31 : Part).val ≠ 0 ∧ (up.part (31 : Part).val).st = .free ∧ up.power.zeroing = false) ∧
    (isOpr (partS .sealed) opr = true ∧ (3 : Part).val ≠ 0 ∧ ((partS .sealed).part (3 : Part).val).st ≠ .free) ∧
    (isOpr (partS .open_) opr = true ∧ (3 : Part).val ≠ 0 ∧ ((partS .open_).part (3 : Part).val).st = .open_) ∧
    (isOpr (partS .free) opr = true ∧ (3 : Part).val ≠ 0 ∧ ((partS .free).part (3 : Part).val).st ≠ .open_) ∧
    (((.create (prt 3) 3 : Instr) = .create (prt 3) (3 : Part) ∨ (.create (prt 3) 3 : Instr) = .seal (prt 3) (3 : Part)) ∧ isOpr up (prt 3) = false) ∧
    (((.seal (prt 3) 3 : Instr) = .create (prt 3) (3 : Part) ∨ (.seal (prt 3) 3 : Instr) = .seal (prt 3) (3 : Part)) ∧ isOpr up (prt 3) = false) ∧
    (((partS .sealing).part (3 : Part).val).st = .sealing ∧ ((partS .sealing).part (3 : Part).val).finishing = none) := ⟨⟨(by unfold State.memOk; decide +kernel), by and_intros <;> decide +kernel⟩,
    ⟨(by unfold State.memOk; decide +kernel), by and_intros <;> decide +kernel⟩,
    ⟨(by unfold State.memOk; decide +kernel), by and_intros <;> decide +kernel⟩,
    ⟨(by unfold State.memOk; decide +kernel), by and_intros <;> decide +kernel⟩,
    ⟨(by unfold State.memOk; decide +kernel), by and_intros <;> decide +kernel⟩,
    ⟨(by unfold State.memOk; decide +kernel), by and_intros <;> decide +kernel⟩,
    ⟨(by unfold State.memOk; decide +kernel), by and_intros <;> decide +kernel⟩,
    ⟨(by unfold State.memOk; decide +kernel), by and_intros <;> decide +kernel⟩,
    ⟨(by unfold State.memOk; decide +kernel), by and_intros <;> decide +kernel⟩,
    ⟨(by unfold State.memOk; decide +kernel), by and_intros <;> decide +kernel⟩,
    ⟨(by unfold State.memOk; decide +kernel), by and_intros <;> decide +kernel⟩,
    by and_intros <;> decide +kernel⟩

def nonce32 : Msg := attMsg 1 (List.replicate 32 5)

def finishM : Msg := attMsg 3 (List.replicate 1088 1 ++ shake 32 [1, 2, 3])

theorem finish_ok : finishOk (partS .sealing) 3 finishM.body = true := by

  have h : slice finishM.body 1088 32 = shake 32 ((partS .sealing).part 3).report := by

    show ((List.replicate 1088 1 ++ shake 32 [1, 2, 3]).drop 1088).take 32 = shake 32 [1, 2, 3]

    rw [List.drop_left' (by simp), List.take_of_length_le (by simp [shake])]

  unfold finishOk

  simp only [h, beq_self_eq_true, Bool.and_true]

  decide +kernel

/-- ReportsAndSealing. -/
theorem witness_ReportsAndSealing :
    (FirstTime (partS .open_) nonce32.hdr ∧ (reportHead (partS .open_) 3 1 ((partS .open_).free + 1) nonce32.body) = reportHead (partS .open_) (3 : Nat) (1 : BitVec 32).toNat ((partS .open_).free + 1) nonce32.body ∧ (1 : BitVec 32) = ((partS .open_).part (3 : Nat)).reports + 1 ∧ (3 : Nat) = nonce32.hdr.part.toNat ∧ nonce32.hdr.mcast = false ∧ opxOf nonce32.hdr = 1 ∧ nonce32.body.length = 32 ∧ attests (partS .open_) (3 : Nat) = true) ∧
    (FirstTime (partS .free) nonce32.hdr ∧ (1 : BitVec 32) = ((partS .free).part (3 : Nat)).reports + 1 ∧ (3 : Nat) = nonce32.hdr.part.toNat ∧ nonce32.hdr.mcast = false ∧ opxOf nonce32.hdr = 1 ∧ nonce32.body.length = 32 ∧ attests (partS .free) (3 : Nat) = false) ∧
    (FirstTime (partS .open_) finishM.hdr ∧ finishM.body.length = 1120 ∧ (1 : BitVec 32) = ((partS .open_).part (3 : Nat)).reports + 1 ∧ (3 : Nat) = finishM.hdr.part.toNat ∧ finishM.hdr.mcast = false ∧ opxOf finishM.hdr = 3 ∧ finishOk (partS .open_) (3 : Nat) finishM.body = false) ∧
    ((reportHead (partS .open_) 0 1 ((partS .open_).free + 1) (bytes32 7)) = reportHead (partS .open_) (0 : Nat) (1 : BitVec 32).toNat ((partS .open_).free + 1) (bytes32 (7 : BitVec 256)) ∧ (1 : BitVec 32) = ((partS .open_).part (0 : Nat)).reports + 1 ∧ (0 : Nat) = attSelect (partS .open_) opr ∧ isOpr (partS .open_) opr = true ∧ attests (partS .open_) (0 : Nat) = true) ∧
    (finishOk (partS .sealing) (3 : Nat) (finishM.body) = true ∧ ((∀ e ∈ (partS .sealing).folios, folOwner e.2.word ≠ (3 : Nat))) ∧ (partS .sealing).memOk ∧ (shake 32 [1, 2, 3]) = shake 32 ((partS .sealing).part (3 : Nat)).report ∧ (shake 152 (ascii "SKOMIRP1" ++ bytes32 (Config.kemDecap ((((partS .sealing).part 3).kemKey).getD 0) (slice finishM.body 0 1088)) ++ shake 32 [1, 2, 3] ++ [BitVec.ofNat 8 3])) = shake 152 (ascii "SKOMIRP1" ++ bytes32 (Config.kemDecap (((partS .sealing).part (3 : Nat)).kemKey.getD 0) (slice (finishM.body) 0 1088)) ++ (shake 32 [1, 2, 3]) ++ [BitVec.ofNat 8 (3 : Nat)]) ∧ (finishM.body).length = 1120 ∧ (((.atFinish finishM : Instr) = .atFinish finishM ∧ (3 : Nat) = finishM.hdr.part.toNat ∧ FirstTime (partS .sealing) finishM.hdr ∧ opxOf finishM.hdr = 3 ∧ (finishM.body) = finishM.body) ∨ ((.atFinish finishM : Instr) = .attFinish opr (finishM.body) ∧ (3 : Nat) = attSelect (partS .sealing) opr ∧ isOpr (partS .sealing) opr = true)) ∧ (1 : BitVec 32) = ((partS .sealing).part (3 : Nat)).reports + 1 ∧ ((partS .sealing).part (3 : Nat)).sealAt = none) := ⟨⟨(by unfold FirstTime; decide +kernel), rfl, by and_intros <;> decide +kernel⟩,
    ⟨(by unfold FirstTime; decide +kernel), by and_intros <;> decide +kernel⟩,
    ⟨(by unfold FirstTime; decide +kernel), (by rw [show finishM.body = List.replicate 1088 1 ++ shake 32 [1, 2, 3] from rfl]; simp [shake]), by and_intros <;> decide +kernel⟩,
    ⟨rfl, by and_intros <;> decide +kernel⟩,
    ⟨finish_ok, all_of (by decide +kernel), (by unfold State.memOk; decide +kernel), rfl, rfl, (by rw [show finishM.body = List.replicate 1088 1 ++ shake 32 [1, 2, 3] from rfl]; simp [shake]), .inl ⟨rfl, by decide +kernel, by unfold FirstTime; decide +kernel, by decide +kernel, rfl⟩, by and_intros <;> decide +kernel⟩⟩

/-- Partition 3 being removed since time 0. -/

def removingS : State := (partS .removing).modPart 3 fun p => { p with removeAt := some 0, ports := 0 }

/-- The same with a PUBLISH of it that waits. -/

def removingBusy : State :=

  { removingS with waitPubs := [{ aWait with req := { aWait.req with hdr := { aWait.req.hdr with part := 3 } } }] }

theorem onlyRemoval {s : State} {p : Nat} (h : s.parts.all (fun e => decide (e.1 ≠ p → e.2.removeAt = none)) = true) (q : Nat) :

    q ≠ p → (s.part q).removeAt = none :=

  get_of (P := fun k (v : Partition) => k ≠ p → v.removeAt = none) (fun _ _ => rfl) h q

theorem noSeal {s : State} (h : s.parts.all (fun e => decide (e.2.sealAt = none ∧ e.2.releaseAt = none)) = true) (q : Nat) :

    (s.part q).sealAt = none ∧ (s.part q).releaseAt = none :=

  get_of (P := fun _ (v : Partition) => v.sealAt = none ∧ v.releaseAt = none) (fun _ => ⟨rfl, rfl⟩) h q

/-- PartitionRemoval. -/
theorem witness_PartitionRemoval :
    (((∀ q, q ≠ (3 : Part).val → (removingS.part q).removeAt = none)) ∧ ((∀ q, (removingS.part q).sealAt = none ∧ (removingS.part q).releaseAt = none)) ∧ removingS.atRest ∧ removingS.memOk ∧ ((∀ e ∈ removingS.folios, folOwner e.2.word ≠ (3 : Part).val)) ∧ ((∀ n, n < 128 → (removingS.part (3 : Part).val).ports.getLsbD n = true → (removingS.port n).st = .disabled)) ∧ removingS.pending = [] ∧ removingS.power.vstby = true ∧ (removingS.part (3 : Part).val).st = .removing ∧ (removingS.part (3 : Part).val).removeAt = some (0) ∧ ((∀ d, d < 32 → domainPart removingS d ≠ (3 : Part).val))) ∧
    (((∀ q, q ≠ (3 : Part).val → (removingBusy.part q).removeAt = none)) ∧ ((∀ q, (removingBusy.part q).sealAt = none ∧ (removingBusy.part q).releaseAt = none)) ∧ removingBusy.pending = [] ∧ removingBusy.power.vstby = true ∧ (removingBusy.part (3 : Part).val).st = .removing ∧ (removingBusy.part (3 : Part).val).removeAt = some (0) ∧ drained removingBusy (3 : Part).val = false ∧ removingBusy.time + 1 < 2 ^ 64 ∧ removingBusy.time + 1 < (0) + 20000) ∧
    ((isOpr (partS .open_) opr = true ∨ isPrt opr (3 : Part).val = true) ∧ (3 : Part).val ≠ 0 ∧ ((partS .open_).part (3 : Part).val).st ≠ .free ∧ removing (partS .open_) (3 : Part).val = false) ∧
    ((isOpr (partS .sealed) (prt 3) = true ∨ isPrt (prt 3) (3 : Part).val = true) ∧ (3 : Part).val ≠ 0 ∧ ((partS .sealed).part (3 : Part).val).st ≠ .free ∧ removing (partS .sealed) (3 : Part).val = false) ∧
    ((isOpr removingS opr = true ∨ isPrt opr (3 : Part).val = true) ∧ (3 : Part).val ≠ 0 ∧ removing removingS (3 : Part).val = true) ∧
    ((isOpr removingS (prt 3) = true ∨ isPrt (prt 3) (3 : Part).val = true) ∧ (3 : Part).val ≠ 0 ∧ removing removingS (3 : Part).val = true) ∧
    ((isOpr (partS .open_) opr = true ∨ isPrt opr (0 : Part).val = true) ∧ ((0 : Part).val = 0 ∨ ((partS .open_).part (0 : Part).val).st = .free)) ∧
    ((isOpr (partS .free) opr = true ∨ isPrt opr (3 : Part).val = true) ∧ ((3 : Part).val = 0 ∨ ((partS .free).part (3 : Part).val).st = .free)) ∧
    (isOpr (partS .open_) (prt 2) = false ∧ isPrt (prt 2) (3 : Part).val = false) := ⟨⟨onlyRemoval (by decide +kernel), noSeal (by decide +kernel), (by unfold State.atRest; decide +kernel), (by unfold State.memOk; decide +kernel), all_of (by decide +kernel), by decide +kernel, by and_intros <;> decide +kernel⟩,
    ⟨onlyRemoval (by decide +kernel), noSeal (by decide +kernel), by and_intros <;> decide +kernel⟩,
    by and_intros <;> decide +kernel⟩

def kxInitM : Msg := keyxMsg 1 ([1#8] ++ List.replicate 6495 0)

def kxRespM : Msg := keyxMsg 2 ([1#8] ++ List.replicate 6399 0)

def kxShort : Msg := keyxMsg 1 ([1#8] ++ List.replicate 15 0)

/-- KX_INIT and KX_RESP that are accepted, where every signature verifies (the check is an opaque constant of Config). -/

theorem witness_key_exchange_accepted (h : ∀ k m g, Config.dsaVerify k m g = true) :

    (kxInitM.hdr.part.toNat = 0 ∧ kxSlot kxInitM.body = 1 ∧ kxRefusal (keySlotS {}) 5 kxInitM = none) ∧

    ((exchanging.kx.find? fun x => x.port.val == 5 && x.tag == kxRespM.hdr.tag && x.opid == kxRespM.hdr.opid && x.part.val == kxRespM.hdr.part.toNat) = some aKx ∧

      kxRespOk aKx kxRespM = true) := by

  refine ⟨⟨by decide +kernel, by decide +kernel, ?_⟩, by decide +kernel, ?_⟩

  · simp only [kxRefusal, h, Bool.not_true]; decide +kernel

  · simp only [kxRespOk, h, Bool.and_true]; decide +kernel

/-- KeySlotsAndSecrets. -/
theorem witness_KeySlotsAndSecrets :
    ((nextSak 5 4) = nextSak ((macS none 0 0).mac (0 : HostPort).val).key (((macS none 0 0).mac (0 : HostPort).val).sakNo + 1).toNat ∧ keyWriter (macS none 0 0) (prt 0) (0 : Part).val = true ∧ (128 : BitVec 8).toNat = 128 + (0 : HostPort).val ∧ hostOwner (macS none 0 0) (0 : HostPort).val = (0 : Part).val ∧ ((macS none 0 0).mac (0 : HostPort).val).on = true ∧ ((macS none 0 0).mac (0 : HostPort).val).oldKey = none) ∧
    (({} : KeySt) = (keySlotS {}).key (5 : Port).val (0 : Part).val (1 : KeySlot).toNat ∧ 1 ≤ (1 : KeySlot).toNat ∧ bits (0x105 : BitVec 16).toNat 7 0 = (5 : Port).val ∧ bits (0x105 : BitVec 16).toNat 9 8 = (1 : KeySlot).toNat ∧ keyWriter (keySlotS {}) opr (0 : Part).val = true ∧ portOk (keySlotS {}) (5 : Port).val = true ∧ partServes (keySlotS {}) (0 : Part).val = true ∧ (portOwner (keySlotS {}) (5 : Port).val = (0 : Part).val ∨ portOwner (keySlotS {}) (5 : Port).val = 0) ∧ ({} : KeySt).st = 0) ∧
    (({ st := 1 } : KeySt) = (keySlotS { st := 1 }).key (5 : Port).val (0 : Part).val (1 : KeySlot).toNat ∧ 1 ≤ (1 : KeySlot).toNat ∧ bits (0x105 : BitVec 16).toNat 7 0 = (5 : Port).val ∧ bits (0x105 : BitVec 16).toNat 9 8 = (1 : KeySlot).toNat ∧ keyWriter (keySlotS { st := 1 }) opr (0 : Part).val = true ∧ portOk (keySlotS { st := 1 }) (5 : Port).val = true ∧ ({ st := 1 } : KeySt).st ≠ 0) ∧
    (({ st := 2, txOn := true } : KeySt) = (keySlotS { st := 2, txOn := true }).key (5 : Port).val (0 : Part).val (1 : KeySlot).toNat ∧ 1 ≤ (1 : KeySlot).toNat ∧ bits (0x105 : BitVec 16).toNat 7 0 = (5 : Port).val ∧ bits (0x105 : BitVec 16).toNat 9 8 = (1 : KeySlot).toNat ∧ keyWriter (keySlotS { st := 2, txOn := true }) (prt 0) (0 : Part).val = true ∧ portOk (keySlotS { st := 2, txOn := true }) (5 : Port).val = true ∧ (({ st := 2, txOn := true } : KeySt).st = 1 ∨ ({ st := 2, txOn := true } : KeySt).st = 2)) ∧
    (({ st := 3 } : KeySt) = (keySlotS { st := 3 }).key (5 : Port).val (0 : Part).val (1 : KeySlot).toNat ∧ 1 ≤ (1 : KeySlot).toNat ∧ bits (0x105 : BitVec 16).toNat 7 0 = (5 : Port).val ∧ bits (0x105 : BitVec 16).toNat 9 8 = (1 : KeySlot).toNat ∧ keyWriter (keySlotS { st := 3 }) (prt 0) (0 : Part).val = true ∧ portOk (keySlotS { st := 3 }) (5 : Port).val = true ∧ ({ st := 3 } : KeySt).st ≠ 1 ∧ ({ st := 3 } : KeySt).st ≠ 2) ∧
    (({} : KeySt) = (keySlotS {}).key (5 : Port).val (0 : Part).val (1 : KeySlot).toNat ∧ 1 ≤ (1 : KeySlot).toNat ∧ keyWriter (keySlotS {}) (prt 1) (0 : Part).val = false) ∧
    (({} : KeySt) = (keySlotS {}).key (5 : Port).val (0 : Part).val (1 : KeySlot).toNat ∧ 1 ≤ (1 : KeySlot).toNat ∧ kxShort.hdr.part.toNat = (0 : Part).val ∧ kxSlot kxShort.body = (1 : KeySlot).toNat ∧ removing (keySlotS {}) (0 : Part).val = false ∧ kxRefusal (keySlotS {}) (5 : Port).val kxShort = some (St.formatUnsupported)) ∧
    (({ st := 1 } : KeySt) = (keySlotS { st := 1 }).key (5 : Port).val (0 : Part).val (1 : KeySlot).toNat ∧ 1 ≤ (1 : KeySlot).toNat ∧ (slotNote 3).hdr.part.toNat = (0 : Part).val ∧ kxSlot (slotNote 3).body = (1 : KeySlot).toNat ∧ removing (keySlotS { st := 1 }) (0 : Part).val = false ∧ (slotNote 3).body.length = 16 ∧ (1 : KeySlot).toNat ≤ 3 ∧ (({ st := 1 } : KeySt).st = 1 ∨ ({ st := 1 } : KeySt).st = 2) ∧ ({ st := 1 } : KeySt).txOn = false) ∧
    (({ st := 2 } : KeySt) = (keySlotS { st := 2 }).key (5 : Port).val (0 : Part).val (1 : KeySlot).toNat ∧ 1 ≤ (1 : KeySlot).toNat ∧ (slotNote 4).hdr.part.toNat = (0 : Part).val ∧ kxSlot (slotNote 4).body = (1 : KeySlot).toNat ∧ removing (keySlotS { st := 2 }) (0 : Part).val = false ∧ (slotNote 4).body.length = 16 ∧ (1 : KeySlot).toNat ≤ 3 ∧ (({ st := 2 } : KeySt).st = 1 ∨ ({ st := 2 } : KeySt).st = 2)) ∧
    (({ st := 4 } : KeySt) = exchanging.key (5 : Port).val (0 : Part).val (1 : KeySlot).toNat ∧ 1 ≤ (1 : KeySlot).toNat ∧ (exchanging.kx.find? fun x => x.port.val == (5 : Port).val && x.tag == kxShort.hdr.tag && x.opid == kxShort.hdr.opid && x.part.val == kxShort.hdr.part.toNat) = some aKx ∧ aKx.part = (0 : Part) ∧ aKx.slot = (1 : KeySlot) ∧ removing exchanging (0 : Part).val = false ∧ kxRespOk aKx kxShort = false) ∧
    (({ st := 3 } : KeySt) = (keySlotS { st := 3 }).key (5 : Port).val (0 : Part).val (1 : KeySlot).toNat ∧ 1 ≤ (1 : KeySlot).toNat ∧ ({ st := 3 } : KeySt).st = 3) ∧
    (({ st := 4 } : KeySt) = exchanging.key (5 : Port).val (0 : Part).val (1 : KeySlot).toNat ∧ 1 ≤ (1 : KeySlot).toNat ∧ (({ st := 4 } : KeySt).st = 4 ∨ ((({ st := 4 } : KeySt).st = 1 ∨ ({ st := 4 } : KeySt).st = 2) ∧ ({ st := 4 } : KeySt).txOn = false))) ∧
    (({ st := 1 } : KeySt) = (keySlotS { st := 1 }).key (5 : Port).val (0 : Part).val (1 : KeySlot).toNat ∧ 1 ≤ (1 : KeySlot).toNat ∧ (({ st := 1 } : KeySt).st = 4 ∨ ((({ st := 1 } : KeySt).st = 1 ∨ ({ st := 1 } : KeySt).st = 2) ∧ ({ st := 1 } : KeySt).txOn = false))) ∧
    (keyWriter (partS .sealed) (prt 3) (3 : Part).val = true ∧ partServes (partS .sealed) (3 : Part).val = true ∧ (List.replicate 64 (5 : BitVec 256)).length ≤ 64) ∧
    (keyWriter (partS .sealed) opr (3 : Part).val = false) ∧
    (oprOver (partS .open_) opr (3 : Part).val = true ∧ ((partS .open_).part (3 : Part).val).st = .open_) ∧
    (oprOver (partS .sealing) opr (3 : Part).val = true ∧ ((partS .sealing).part (3 : Part).val).st ≠ .open_) ∧
    (keyWriter (macS (some (1, 2)) 0 1) (prt 0) (0 : Part).val = true ∧ (128 : BitVec 8).toNat = 128 + (0 : HostPort).val ∧ hostOwner (macS (some (1, 2)) 0 1) (0 : HostPort).val = (0 : Part).val ∧ ((macS (some (1, 2)) 0 1).mac (0 : HostPort).val).on = true ∧ ((macS (some (1, 2)) 0 1).mac (0 : HostPort).val).oldKey ≠ none) ∧
    (((macS (some (1, 2)) 1 1).mac (0 : HostPort).val).txAn = ((macS (some (1, 2)) 1 1).mac (0 : HostPort).val).rxAn) ∧
    (((macS (some (1, 2)) 0 1).mac (0 : HostPort).val).txAn ≠ ((macS (some (1, 2)) 0 1).mac (0 : HostPort).val).rxAn) := ⟨⟨rfl, by and_intros <;> decide +kernel⟩,
    by and_intros <;> decide +kernel⟩

def watchedS (missed : Nat) : State := { watching missed with tags := [aTag] }

/-- An ACTIVE domain with an agent of FID 0x020301. -/

def agentS : State := { (domS .active).setO (domObj 0 1 2) 0x020301 with watches := [{ word := devRec, missed := 3, fresh := false }] }

/-- PeersDieAndReturn. -/
theorem witness_PeersDieAndReturn :
    (((∃ x ∈ agentS.watches, x.word = devRec ∧ 3 ≤ x.missed)) ∧ (0) < 32 ∧ devRec ∉ agentS.dead ∧ (agentS.domain (0)).st = .active ∧ ((∃ a, a < 16 ∧ agentFid agentS (0) a ≠ 0 ∧ deadReach agentS devRec (agentFid agentS (0) a) = true))) ∧
    (((∀ x ∈ (watchedS 2).watches, x.word = devRec → x.missed < 3))) ∧
    (((∀ x ∈ ([devRec, fidRec 0x040500, 0] : List (BitVec 32)), recValid x = true → recPls x ≠ 0 ∧ prefixOverhang (recPls x) (recPrefix x) = false)) ∧ isOpr up opr = true ∧ ([devRec, fidRec 0x040500, 0] : List (BitVec 32)).length ≤ 256) ∧
    (((∃ x ∈ ([devRec + 1] : List (BitVec 32)), recValid x = true ∧ (recPls x = 0 ∨ prefixOverhang (recPls x) (recPrefix x) = true))) ∧ isOpr up opr = true ∧ ([devRec + 1] : List (BitVec 32)).length ≤ 256) ∧
    ((((.hbWatchExpire devRec : Instr) = .hbWatchExpire devRec ∧ ∃ x ∈ (watchedS 3).watches, x.word = devRec ∧ 3 ≤ x.missed) ∨ ((.hbWatchExpire devRec : Instr) = .peerSilenceTimeout (0 : Fid) ∧ devRec = fidRec (0 : Fid) ∧ (0 : Fid) ≠ 0 ∧ portsNaming (watchedS 3) (0 : Fid) ≠ [] ∧ ∀ x ∈ portsNaming (watchedS 3) (0 : Fid), x.st ≠ .retrain)) ∧ devRec ∉ (watchedS 3).dead ∧ (watchedS 3).ctxs = [] ∧ ((∀ d, d < 32 → ((watchedS 3).domain d).st ≠ .active))) ∧
    ((((.peerSilenceTimeout 0x010200 : Instr) = .hbWatchExpire (fidRec 0x010200) ∧ ∃ x ∈ (watchedS 3).watches, x.word = (fidRec 0x010200) ∧ 3 ≤ x.missed) ∨ ((.peerSilenceTimeout 0x010200 : Instr) = .peerSilenceTimeout (0x010200 : Fid) ∧ (fidRec 0x010200) = fidRec (0x010200 : Fid) ∧ (0x010200 : Fid) ≠ 0 ∧ portsNaming (watchedS 3) (0x010200 : Fid) ≠ [] ∧ ∀ x ∈ portsNaming (watchedS 3) (0x010200 : Fid), x.st ≠ .retrain)) ∧ (fidRec 0x010200) ∉ (watchedS 3).dead ∧ (watchedS 3).ctxs = [] ∧ ((∀ d, d < 32 → ((watchedS 3).domain d).st ≠ .active))) ∧
    (devRec ∈ deadS.dead) ∧
    (isOpr up opr = true ∧ 256 < (List.replicate 257 devRec).length) ∧
    (isOpr up (prt 0) = false) := ⟨⟨any_of (by decide +kernel), by and_intros <;> decide +kernel⟩,
    all_of (by decide +kernel),
    ⟨all_of (by decide +kernel), by and_intros <;> decide +kernel⟩,
    ⟨any_of (by decide +kernel), by and_intros <;> decide +kernel⟩,
    by and_intros <;> decide +kernel⟩

/-- FencesAndMembership. -/
theorem witness_FencesAndMembership :
    (((∃ w ∈ ([ownArea] : List (BitVec 32)), recValid w = true ∧ recCovers w (devFid ({ up with mepoch := 5 } : State)).toNat = true)) ∧ (1 : Nat) = leAt (memberBytes 6 [ownArea]) 10 2 ∧ (6 : BitVec 32) = BitVec.ofNat 32 (leAt (memberBytes 6 [ownArea]) 0 4) ∧ ([ownArea] : List (BitVec 32)) = words32 (((memberBytes 6 [ownArea]).drop 16).take (4 * (1 : Nat))) ∧ isOpr ({ up with mepoch := 5 } : State) opr = true ∧ (memberBytes 6 [ownArea]).length = 16 + 4 * (1 : Nat) ∧ (1 : Nat) ≤ 256 ∧ ({ up with mepoch := 5 } : State).mepoch.toNat < (6 : BitVec 32).toNat) ∧
    (((6 : BitVec 32).toNat ≤ ({ up with mepoch := 6 } : State).mepoch.toNat ∨ (∀ w ∈ ([ownArea] : List (BitVec 32)), recValid w = true → recCovers w (devFid ({ up with mepoch := 6 } : State)).toNat = false)) ∧ (1 : Nat) = leAt (memberBytes 6 [ownArea]) 10 2 ∧ (6 : BitVec 32) = BitVec.ofNat 32 (leAt (memberBytes 6 [ownArea]) 0 4) ∧ ([ownArea] : List (BitVec 32)) = words32 (((memberBytes 6 [ownArea]).drop 16).take (4 * (1 : Nat))) ∧ isOpr ({ up with mepoch := 6 } : State) opr = true ∧ (memberBytes 6 [ownArea]).length = 16 + 4 * (1 : Nat) ∧ (1 : Nat) ≤ 256) ∧
    (((6 : BitVec 32).toNat ≤ ({ up with mepoch := 5 } : State).mepoch.toNat ∨ (∀ w ∈ ([fidRec 3] : List (BitVec 32)), recValid w = true → recCovers w (devFid ({ up with mepoch := 5 } : State)).toNat = false)) ∧ (1 : Nat) = leAt (memberBytes 6 [fidRec 3]) 10 2 ∧ (6 : BitVec 32) = BitVec.ofNat 32 (leAt (memberBytes 6 [fidRec 3]) 0 4) ∧ ([fidRec 3] : List (BitVec 32)) = words32 (((memberBytes 6 [fidRec 3]).drop 16).take (4 * (1 : Nat))) ∧ isOpr ({ up with mepoch := 5 } : State) opr = true ∧ (memberBytes 6 [fidRec 3]).length = 16 + 4 * (1 : Nat) ∧ (1 : Nat) ≤ 256) ∧
    (isOpr fencedS opr = true ∧ fenceFormed (fenceWord 4 1) = true ∧ ((fnEpoch (fenceWord 4 1)).toNat < fencedS.fepoch.toNat ∨ (fnAct (fenceWord 4 1) ≠ 1 ∧ (fnEpoch (fenceWord 4 1)).toNat = fencedS.fepoch.toNat))) ∧
    (isOpr fencedS opr = true ∧ fenceFormed (fenceWord 5 2) = true ∧ ((fnEpoch (fenceWord 5 2)).toNat < fencedS.fepoch.toNat ∨ (fnAct (fenceWord 5 2) ≠ 1 ∧ (fnEpoch (fenceWord 5 2)).toNat = fencedS.fepoch.toNat))) ∧
    (isOpr fencedS opr = true ∧ fenceFormed (fenceWord 6 3) = true ∧ fencedS.fepoch.toNat < (fnEpoch (fenceWord 6 3)).toNat ∧ (fnAct (fenceWord 6 3) = 2 ∨ fnAct (fenceWord 6 3) = 3)) ∧
    (isOpr fencedS opr = true ∧ fenceFormed (fenceWord 6 2) = true ∧ fencedS.fepoch.toNat < (fnEpoch (fenceWord 6 2)).toNat ∧ (fnAct (fenceWord 6 2) = 2 ∨ fnAct (fenceWord 6 2) = 3)) ∧
    (isOpr fencedS opr = true ∧ fenceFormed (fenceWord 5 1) = true ∧ fencedS.fepoch.toNat ≤ (fnEpoch (fenceWord 5 1)).toNat ∧ fnAct (fenceWord 5 1) = 1 ∧ fencedS.fences.length < 256 ∧ fencedS.ctxs = [] ∧ ((∀ d, d < 32 → (fencedS.domain d).st ≠ .active))) ∧
    (isOpr fencedS (prt 0) = false) ∧
    (fenceAllowed fencedS (fenceMsg (fenceWord 6 2)).hdr = false) ∧
    (fenceAllowed authS (fenceMsg (fenceWord 6 2)).hdr = true ∧ (fenceWord 6 2) = BitVec.ofNat 128 (leAt (fenceMsg (fenceWord 6 2)).body 0 16) ∧ (fenceMsg (fenceWord 6 2)).body.length = 16 ∧ fenceFormed (fenceWord 6 2) = true ∧ authS.fepoch.toNat < (fnEpoch (fenceWord 6 2)).toNat ∧ (fnAct (fenceWord 6 2) = 2 ∨ fnAct (fenceWord 6 2) = 3)) ∧
    ((0 : Nat) = leAt ([] : List Byte) 10 2 ∧ (0 : BitVec 32) = BitVec.ofNat 32 (leAt ([] : List Byte) 0 4) ∧ ([] : List (BitVec 32)) = words32 ((([] : List Byte).drop 16).take (4 * (0 : Nat))) ∧ isOpr stagedS opr = true ∧ stagedS.staged = some ({ mepoch := 6, step := 9, sched := 4, list := [ownArea, 0] } : Staged)) ∧
    ((0 : Nat) = leAt ([] : List Byte) 10 2 ∧ (0 : BitVec 32) = BitVec.ofNat 32 (leAt ([] : List Byte) 0 4) ∧ ([] : List (BitVec 32)) = words32 ((([] : List Byte).drop 16).take (4 * (0 : Nat))) ∧ isOpr up opr = true ∧ up.staged = none) ∧
    ((0 : Nat) = leAt ([] : List Byte) 10 2 ∧ (0 : BitVec 32) = BitVec.ofNat 32 (leAt ([] : List Byte) 0 4) ∧ ([] : List (BitVec 32)) = words32 ((([] : List Byte).drop 16).take (4 * (0 : Nat))) ∧ isOpr up (prt 0) = false) ∧
    ((0 : Nat) = leAt ([] : List Byte) 10 2 ∧ (0 : BitVec 32) = BitVec.ofNat 32 (leAt ([] : List Byte) 0 4) ∧ ([] : List (BitVec 32)) = words32 ((([] : List Byte).drop 16).take (4 * (0 : Nat))) ∧ oprOver up opr (monitorPart up (127 : Fin 16).val) = true) := ⟨⟨any_of (by decide +kernel), by and_intros <;> decide +kernel⟩,
    ⟨.inl (by decide +kernel), by and_intros <;> decide +kernel⟩,
    ⟨.inr (all_of (by decide +kernel)), by and_intros <;> decide +kernel⟩,
    by and_intros <;> decide +kernel⟩

def unproved : Session := sess .opr false none

/-- SESS_AUTH with the proof of credential 77. -/

def goodAuth : DMsg := dmsg 1 7 0 0 (bytes32 (proof 77 unproved "SKOMIR SESSION C"))

/-- The same with every byte changed. -/

def badAuth : DMsg := dmsg 1 7 0 0 ((bytes32 (proof 77 unproved "SKOMIR SESSION C")).map (· + 1#8))

theorem badAuth_ne : badAuth.payload ≠ bytes32 (proof 77 unproved "SKOMIR SESSION C") := by

  intro h

  have h0 := congrArg (fun l : List Byte => l.getD 0 0) h

  have h1 : ∀ b : Byte, b + 1#8 ≠ b := by decide +kernel

  exact h1 ((bytes32 (proof 77 unproved "SKOMIR SESSION C")).getD 0 0) h0

/-- SessionLife. -/
theorem witness_SessionLife :
    (goodAuth.payload = bytes32 (proof (77 : BitVec 256) unproved "SKOMIR SESSION C") ∧ (withSess unproved).scribe.st = .running ∧ goodAuth.mver = 1 ∧ goodAuth.sid ≠ 0 ∧ (withSess unproved).session goodAuth.sid = some unproved ∧ unproved.addr = ring ∧ unproved.authed = false ∧ goodAuth.mtype = 1 ∧ goodAuth.resp = false ∧ goodAuth.prot = false ∧ goodAuth.seq = 0 ∧ goodAuth.payload.length = 32 ∧ credOf (withSess unproved) unproved = some (77 : BitVec 256)) ∧
    (badAuth.payload ≠ bytes32 (proof (77 : BitVec 256) unproved "SKOMIR SESSION C") ∧ (withSess unproved).scribe.st = .running ∧ badAuth.mver = 1 ∧ badAuth.sid ≠ 0 ∧ (withSess unproved).session badAuth.sid = some unproved ∧ unproved.addr = ring ∧ unproved.authed = false ∧ badAuth.mtype = 1 ∧ badAuth.resp = false ∧ badAuth.prot = false ∧ badAuth.seq = 0 ∧ badAuth.payload.length = 32 ∧ credOf (withSess unproved) unproved = some (77 : BitVec 256)) ∧
    ((up.modPart 3 fun p => { p with st := .open_, cred := some 5 }).scribe.st = .running ∧ (openReq 1 3).mver = 1 ∧ (openReq 1 3).sid = 0 ∧ (openReq 1 3).mtype = 0 ∧ (openReq 1 3).resp = false ∧ (openReq 1 3).prot = false ∧ (openReq 1 3).payload.length = 48 ∧ roleOf ((openReq 1 3).payload.getD 0 0).toNat = some (Role.prt) ∧ ((openReq 1 3).payload.getD 1 0).toNat = (3 : Part).val ∧ ((Role.prt) = .prt ∨ (3 : Part).val = 0) ∧ sourceOf ring ∉ (up.modPart 3 fun p => { p with st := .open_, cred := some 5 }).refused ∧ roleAccepted (up.modPart 3 fun p => { p with st := .open_, cred := some 5 }) ring (Role.prt) (3 : Part).val = true ∧ sessionFree (up.modPart 3 fun p => { p with st := .open_, cred := some 5 }) (Role.prt) (3 : Part).val = true) ∧
    (up.scribe.st = .running ∧ (openReq 3 0).mver = 1 ∧ (openReq 3 0).sid = 0 ∧ (openReq 3 0).mtype = 0 ∧ (openReq 3 0).resp = false ∧ (openReq 3 0).prot = false ∧ (openReq 3 0).payload.length = 48 ∧ roleOf ((openReq 3 0).payload.getD 0 0).toNat = some (Role.att) ∧ ((openReq 3 0).payload.getD 1 0).toNat = (0 : Part).val ∧ ((Role.att) = .prt ∨ (0 : Part).val = 0) ∧ sourceOf ring ∉ up.refused ∧ roleAccepted up ring (Role.att) (0 : Part).val = true ∧ sessionFree up (Role.att) (0 : Part).val = true) ∧
    ((({ up with refused := [ring] } : State)).scribe.st = .running ∧ (openReq 3 0).mver = 1 ∧ (openReq 3 0).sid = 0 ∧ (openReq 3 0).mtype = 0 ∧ (openReq 3 0).resp = false ∧ (openReq 3 0).prot = false ∧ (openReq 3 0).payload.length = 48 ∧ roleOf ((openReq 3 0).payload.getD 0 0).toNat = some (Role.att) ∧ ((openReq 3 0).payload.getD 1 0).toNat = (0 : Part).val ∧ ((Role.att) = .prt ∨ (0 : Part).val = 0) ∧ (sourceOf ring ∈ (({ up with refused := [ring] } : State)).refused ∨ roleAccepted (({ up with refused := [ring] } : State)) ring (Role.att) (0 : Part).val = false)) ∧
    ((withSess unproved).session (7 : BitVec 16) = some unproved ∧ unproved.authed = false) ∧
    ((withSess (sess .opr true none)).session (7 : BitVec 16) = some (sess .opr true none) ∧ (sess .opr true none).authed = true) ∧
    ((({ up with refused := [ring] } : State)).refused = [sourceOf ring]) ∧
    (isOpr (withSess unproved) opr = true ∧ (7 : BitVec 16) ≠ 0 ∧ (withSess unproved).session (7 : BitVec 16) ≠ none) ∧
    (isOpr (withSess unproved) opr = true ∧ (8 : BitVec 16) ≠ 0 ∧ (withSess unproved).session (8 : BitVec 16) = none) ∧
    (isOpr (withSess unproved) (prt 0) = false) := ⟨⟨rfl, by and_intros <;> decide +kernel⟩,
    ⟨badAuth_ne, by and_intros <;> decide +kernel⟩,
    by and_intros <;> decide +kernel⟩

def att : Session := sess .att true none

def attKept : Session := { att with kept := [{ xid := 3, index := 0x1100, sub := 1, dstat := 9, auxr := 5, value := [1] }] }

def attBusy : Session := { att with xfer := some readXfer }

/-- A protected KEEPALIVE of an OPR session, in its clear form. -/

def clearKeepalive : DMsg := let m := DMsg.protect 1 2 { dmsg 9 7 0 0 [] with seq := 9 }; { m with payload := gcmXor 1 (dictNonce 2 9) 0 m.payload, tag := [] }

theorem witness_protected_message :

    Arrives (withSess (sess .opr true none)) ring (DMsg.protect 1 2 { dmsg 9 7 0 0 [] with seq := 9 }) (sess .opr true none) (seqTaken (sess .opr true none) 9) clearKeepalive ∧

      clearKeepalive.mtype = 9 ∧ bareForm clearKeepalive = true := by

  refine ⟨⟨?_, ?_, ?_, ?_, ?_, ?_, ?_, ?_, ?_, .inl ⟨?_, ?_, ?_, if_pos rfl, ?_, ?_⟩⟩, ?_, ?_⟩ <;> decide +kernel

/-- SessionMessages. -/
theorem witness_SessionMessages :
    (Arrives (withSess att) ring (dmsg 9 7 0 0 []) att att (dmsg 9 7 0 0 []) ∧ att.xfer = none ∧ (dmsg 9 7 0 0 []).mtype = 9 ∧ bareForm (dmsg 9 7 0 0 []) = true) ∧
    (Arrives (withSess att) ring (dmsg 2 7 0 0 []) att att (dmsg 2 7 0 0 []) ∧ att.xfer = none ∧ (dmsg 2 7 0 0 []).mtype = 2 ∧ bareForm (dmsg 2 7 0 0 []) = true) ∧
    (Arrives (withSess att) ring (dmsg 3 7 0x1000 2 []) att att (dmsg 3 7 0x1000 2 []) ∧ (readObject ((withSess att).setSession att) att.caller 0x1000 2) = readObject ((withSess att).setSession att) att.caller (dmsg 3 7 0x1000 2 []).index.toNat (dmsg 3 7 0x1000 2 []).sub.toNat ∧ att.xfer = none ∧ (dmsg 3 7 0x1000 2 []).mtype = 3 ∧ bareForm (dmsg 3 7 0x1000 2 []) = true ∧ (readObject ((withSess att).setSession att) att.caller 0x1000 2).st = Ds.ok ∧ (readObject ((withSess att).setSession att) att.caller 0x1000 2).value.length ≤ 1024) ∧
    (Arrives (withSess att) ring (dmsg 3 7 0x1100 1 []) att att (dmsg 3 7 0x1100 1 []) ∧ (readObject ((withSess att).setSession att) att.caller 0x1100 1) = readObject ((withSess att).setSession att) att.caller (dmsg 3 7 0x1100 1 []).index.toNat (dmsg 3 7 0x1100 1 []).sub.toNat ∧ att.xfer = none ∧ (dmsg 3 7 0x1100 1 []).mtype = 3 ∧ bareForm (dmsg 3 7 0x1100 1 []) = true ∧ (readObject ((withSess att).setSession att) att.caller 0x1100 1).st ≠ Ds.ok) ∧
    (Arrives (withSess att) ring (dmsg 4 7 0x1100 3 [5, 0, 0, 0]) att att (dmsg 4 7 0x1100 3 [5, 0, 0, 0]) ∧ (writeValue ((withSess att).setSession att) att.caller 0x1100 3 [5, 0, 0, 0]) = writeValue ((withSess att).setSession att) att.caller (dmsg 4 7 0x1100 3 [5, 0, 0, 0]).index.toNat (dmsg 4 7 0x1100 3 [5, 0, 0, 0]).sub.toNat (dmsg 4 7 0x1100 3 [5, 0, 0, 0]).payload ∧ att.xfer = none ∧ (dmsg 4 7 0x1100 3 [5, 0, 0, 0]).mtype = 4 ∧ keptFor att (dmsg 4 7 0x1100 3 [5, 0, 0, 0]) = none ∧ expeditedForm (dmsg 4 7 0x1100 3 [5, 0, 0, 0]) = true ∧ (writeValue ((withSess att).setSession att) att.caller 0x1100 3 [5, 0, 0, 0]).s.session (dmsg 4 7 0x1100 3 [5, 0, 0, 0]).sid = some att) ∧
    (Arrives (withSess attKept) ring (dmsg 4 7 0x1100 1 [5, 0, 0, 0]) attKept attKept (dmsg 4 7 0x1100 1 [5, 0, 0, 0]) ∧ (dmsg 4 7 0x1100 1 [5, 0, 0, 0]).mtype = 4 ∧ keptFor attKept (dmsg 4 7 0x1100 1 [5, 0, 0, 0]) = some ({ xid := 3, index := 0x1100, sub := 1, dstat := 9, auxr := 5, value := [1] })) ∧
    (Arrives (withSess attBusy) ring (dmsg 9 7 0 0 []) attBusy attBusy (dmsg 9 7 0 0 []) ∧ attBusy.xfer = some readXfer ∧ repeatsRequest readXfer (dmsg 9 7 0 0 []) = false ∧ (((.keepalive ring (dmsg 9 7 0 0 []) : Instr) = .keepalive ring (dmsg 9 7 0 0 []) ∧ (dmsg 9 7 0 0 []).mtype = 9 ∨ (.keepalive ring (dmsg 9 7 0 0 []) : Instr) = .read ring (dmsg 9 7 0 0 []) ∧ (dmsg 9 7 0 0 []).mtype = 3 ∨ (.keepalive ring (dmsg 9 7 0 0 []) : Instr) = .sessClose ring (dmsg 9 7 0 0 []) ∧ (dmsg 9 7 0 0 []).mtype = 2)) ∧ bareForm (dmsg 9 7 0 0 []) = true) ∧
    ((withSess att).scribe.st = .running ∧ (dmsg 9 8 0 0 []).mver = 1 ∧ (dmsg 9 8 0 0 []).sid ≠ 0 ∧ (withSess att).session (dmsg 9 8 0 0 []).sid = none ∧ (dmsg 9 8 0 0 []).mtype.toNat < 10 ∧ ((Instr.keepalive ring (dmsg 9 8 0 0 [])) = .sessAuth ring (dmsg 9 8 0 0 []) ∨ (Instr.keepalive ring (dmsg 9 8 0 0 [])) = .sessClose ring (dmsg 9 8 0 0 []) ∨ (Instr.keepalive ring (dmsg 9 8 0 0 [])) = .read ring (dmsg 9 8 0 0 []) ∨ (Instr.keepalive ring (dmsg 9 8 0 0 [])) = .write ring (dmsg 9 8 0 0 []) ∨ (Instr.keepalive ring (dmsg 9 8 0 0 [])) = .segment ring (dmsg 9 8 0 0 []) ∨ (Instr.keepalive ring (dmsg 9 8 0 0 [])) = .segAck ring (dmsg 9 8 0 0 []) ∨ (Instr.keepalive ring (dmsg 9 8 0 0 [])) = .dictAbort ring (dmsg 9 8 0 0 []) ∨ (Instr.keepalive ring (dmsg 9 8 0 0 [])) = .keepalive ring (dmsg 9 8 0 0 []))) := ⟨⟨(by unfold Arrives; decide +kernel), by and_intros <;> decide +kernel⟩,
    ⟨(by unfold Arrives; decide +kernel), by and_intros <;> decide +kernel⟩,
    ⟨(by unfold Arrives; decide +kernel), rfl, by and_intros <;> decide +kernel⟩,
    ⟨(by unfold Arrives; decide +kernel), rfl, by and_intros <;> decide +kernel⟩,
    ⟨(by unfold Arrives; decide +kernel), rfl, by and_intros <;> decide +kernel⟩,
    ⟨(by unfold Arrives; decide +kernel), by and_intros <;> decide +kernel⟩,
    ⟨(by unfold Arrives; decide +kernel), by and_intros <;> decide +kernel⟩,
    by and_intros <;> decide +kernel⟩

def seg1024 : List Byte := List.replicate 1024 1

def seg0 : DMsg := { dmsg 4 7 0x1620 2 seg1024 with total := 2060, more := true }

def seg1 : DMsg := { dmsg 5 7 0 0 seg1024 with segno := 1, more := true }

def seg2 : DMsg := { dmsg 5 7 0 0 (List.replicate 12 1) with segno := 2 }

def ackAll : DMsg := { dmsg 6 7 0 0 [] with auxr := 2 }

def gapped : Transfer := writeXfer [(0, seg1024), (2, List.replicate 12 1)]

def wr (n : Nat) : Transfer := writeXfer ((List.range n).map fun i => (i, seg1024))

def attX (x : Transfer) : Session := { att with xfer := some x }

/-- SegmentedTransfers. -/
theorem witness_SegmentedTransfers :
    (Arrives (withSess att) ring seg0 att att seg0 ∧ seg0.mtype = 4 ∧ att.xfer = none ∧ keptFor att seg0 = none ∧ segmentedForm seg0 = true ∧ seg0.total.toNat ≤ 4194304 ∧ seg0.total.toNat ≤ longest seg0.index.toNat seg0.sub.toNat) ∧
    (Arrives (withSess (attX (wr 1))) ring seg1 (attX (wr 1)) (attX (wr 1)) seg1 ∧ seg1.mtype = 5 ∧ (attX (wr 1)).xfer = some (wr 1) ∧ (wr 1).write = true ∧ seg1.xid = (wr 1).xid ∧ segmentForm (wr 1) seg1 = true ∧ segsHeld (addSegment (wr 1) seg1) ≠ segCount (wr 1).total) ∧
    (Arrives (withSess (attX (wr 2))) ring seg2 (attX (wr 2)) (attX (wr 2)) seg2 ∧ (writeValue (((withSess (attX (wr 2))).setSession (attX (wr 2))).setSession { attX (wr 2) with xfer := none }) (attX (wr 2)).caller (wr 2).index.toNat (wr 2).sub.toNat (segsValue (addSegment (wr 2) seg2))) = writeValue (((withSess (attX (wr 2))).setSession (attX (wr 2))).setSession { (attX (wr 2)) with xfer := none }) (attX (wr 2)).caller (wr 2).index.toNat (wr 2).sub.toNat (segsValue (addSegment (wr 2) seg2)) ∧ seg2.mtype = 5 ∧ (attX (wr 2)).xfer = some (wr 2) ∧ (wr 2).write = true ∧ seg2.xid = (wr 2).xid ∧ segmentForm (wr 2) seg2 = true ∧ segsHeld (addSegment (wr 2) seg2) = segCount (wr 2).total ∧ (writeValue (((withSess (attX (wr 2))).setSession (attX (wr 2))).setSession { attX (wr 2) with xfer := none }) (attX (wr 2)).caller (wr 2).index.toNat (wr 2).sub.toNat (segsValue (addSegment (wr 2) seg2))).s.session seg2.sid = some { (attX (wr 2)) with xfer := none }) ∧
    (Arrives (withSess (attX readXfer)) ring ackAll (attX readXfer) (attX readXfer) ackAll ∧ ackAll.mtype = 6 ∧ (attX readXfer).xfer = some readXfer ∧ readXfer.write = false ∧ ackAll.xid = readXfer.xid ∧ ackAll.auxr.toNat = segCount readXfer.total) ∧
    (Arrives (withSess (attX readXfer)) ring (dmsg 7 7 0 0 []) (attX readXfer) (attX readXfer) (dmsg 7 7 0 0 []) ∧ (dmsg 7 7 0 0 []).mtype = 7 ∧ (attX readXfer).xfer = some readXfer ∧ (dmsg 7 7 0 0 []).xid = readXfer.xid ∧ (withSess (attX readXfer)).sessions = [(attX readXfer)] ∧ (attX readXfer).mask.getLsbD 10 = false) ∧
    ((withSess (attX gapped)).session (attX gapped).sid = some (attX gapped) ∧ (attX gapped).authed = true ∧ (attX gapped).txSeq + 1 ≠ 0xFFFFFFFF#32 ∧ (attX gapped).xfer = some gapped ∧ ackDue gapped = true) ∧
    ((withSess (attX readXfer)).session (attX readXfer).sid = some (attX readXfer) ∧ (attX readXfer).authed = true ∧ (attX readXfer).txSeq + 1 ≠ 0xFFFFFFFF#32 ∧ (attX readXfer).xfer = some readXfer ∧ readXfer.write = false ∧ min (segCount readXfer.total) (readXfer.auxr + 16) = readXfer.auxr + 1) ∧
    ((withSess (attX readXfer)).session (attX readXfer).sid = some (attX readXfer) ∧ (attX readXfer).authed = true ∧ (attX readXfer).txSeq + 1 ≠ 0xFFFFFFFF#32 ∧ (attX readXfer).xfer = some readXfer ∧ (withSess (attX readXfer)).sessions = [(attX readXfer)] ∧ (attX readXfer).mask.getLsbD 10 = false) := ⟨⟨(by unfold Arrives; decide +kernel), by and_intros <;> decide +kernel⟩,
    ⟨(by unfold Arrives; decide +kernel), by and_intros <;> decide +kernel⟩,
    ⟨(by unfold Arrives; decide +kernel), rfl, by and_intros <;> decide +kernel⟩,
    ⟨(by unfold Arrives; decide +kernel), by and_intros <;> decide +kernel⟩,
    ⟨(by unfold Arrives; decide +kernel), by and_intros <;> decide +kernel⟩,
    by and_intros <;> decide +kernel⟩

def ev0 (n : BitVec 32) : Event := { eseq := n, code := 5, epart := 0, coarse := false, tstamp := 0, edata := 0 }

def evS (r : Role) (evs : List Event) (nf : Bool) : Session := { sess r true none with addr := .host 1 5 6, events := evs, eseq := 9, notify := nf }

def opr7 : Caller := { opr with sid := 7 }

def att7 : Caller := { opr7 with role := .att }

def vnd7 : Caller := { opr7 with role := .vnd }

def pulsing (p d : Bool) : State :=

  (((withSess (evS .opr [ev0 7, ev0 8] true)).setHrb 1 { pulse := p, spacing := true, deferred := d }).setO (okey 0x1201 5) 2).setO (hostObj 1 0 1) 1

/-- EventsAndCredentials. -/
theorem witness_EventsAndCredentials :
    (((∃ e ∈ (evS .opr [ev0 7, ev0 8] true).events, e.eseq = (8 : BitVec 32))) ∧ opr7.role ≠ .att ∧ zeroCredCaller (withSess (evS .opr [ev0 7, ev0 8] true)) opr7 = false ∧ (withSess (evS .opr [ev0 7, ev0 8] true)).session opr7.sid = some (evS .opr [ev0 7, ev0 8] true) ∧ (evS .opr [ev0 7, ev0 8] true).lostNew = 0) ∧
    (((∀ e ∈ (evS .opr [ev0 7, ev0 8] true).events, e.eseq ≠ (9 : BitVec 32))) ∧ opr7.role ≠ .att ∧ zeroCredCaller (withSess (evS .opr [ev0 7, ev0 8] true)) opr7 = false ∧ (withSess (evS .opr [ev0 7, ev0 8] true)).session opr7.sid = some (evS .opr [ev0 7, ev0 8] true)) ∧
    (att7.role = .att) ∧
    ((withSess (evS .opr [ev0 7, ev0 8] true)).session (evS .opr [ev0 7, ev0 8] true).sid = some (evS .opr [ev0 7, ev0 8] true) ∧ (evS .opr [ev0 7, ev0 8] true).authed = true ∧ (evS .opr [ev0 7, ev0 8] true).role ≠ .att ∧ (evS .opr [ev0 7, ev0 8] true).txSeq + 1 ≠ 0xFFFFFFFF#32 ∧ (evS .opr [ev0 7, ev0 8] true).notify = true ∧ (evS .opr [ev0 7, ev0 8] true).events ≠ []) ∧
    ((withSess (evS .opr [] true)).session (evS .opr [] true).sid = some (evS .opr [] true) ∧ (evS .opr [] true).authed = true ∧ (evS .opr [] true).role ≠ .att ∧ (evS .opr [] true).txSeq + 1 ≠ 0xFFFFFFFF#32 ∧ ((evS .opr [] true).notify = false ∨ (evS .opr [] true).events = [])) ∧
    (((pulsing true false).hrb (1 : HostPort).val).pulse = true) ∧
    (((pulsing false false).hrb (1 : HostPort).val).pulse = false) ∧
    (((pulsing false false).hrb (1 : HostPort).val).deferred = false) ∧
    (((pulsing false true).hrb (1 : HostPort).val).deferred = true ∧ 0 < hostEventCount (pulsing false true) (1 : HostPort).val ∧ hrbReady (pulsing false true) (1 : HostPort).val = true ∧ bit ((pulsing false true).o (okey 0x1201 5)) (1 : HostPort).val = true) ∧
    (opr7.role = .opr) ∧
    (vnd7.role ≠ .opr) ∧
    (vnd7.role = .vnd ∧ ((1 : BitVec 8)) = 1 ∧ ((∀ p, p < 32 → p ≠ 0 → (up.part p).st ≠ .sealing ∧ (up.part p).st ≠ .sealed))) ∧
    (vnd7.role = .vnd ∧ ((1 : BitVec 8)) = 1 ∧ ((3 : Nat)) < 32 ∧ ((3 : Nat)) ≠ 0 ∧ ((partS .sealed).part ((3 : Nat))).st = .sealed) ∧
    (opr7.role ≠ .vnd) := ⟨⟨any_of (by decide +kernel), by and_intros <;> decide +kernel⟩,
    ⟨all_of (by decide +kernel), by and_intros <;> decide +kernel⟩,
    by and_intros <;> decide +kernel⟩

/-- A MAC address that is neither this device's nor the broadcast address, whatever BASE_MAC is. -/

def strangerMac : BitVec 48 := if macOf 2 + 1 = 0xFFFFFFFFFFFF#48 then macOf 2 + 2 else macOf 2 + 1

theorem stranger_other : strangerMac ≠ macOf 2 := by

  unfold strangerMac

  split <;> simp

theorem stranger_single : strangerMac ≠ 0xFFFFFFFFFFFF#48 := by

  unfold strangerMac

  split

  · rename_i h

    rw [show macOf 2 + 2 = macOf 2 + 1 + 1 by rw [BitVec.add_assoc]; rfl, h]

    decide

  · assumption

def hostUp (mac : Macsec) : State := ((up.setHostP 1 { up := true, rate := 1 }).setO (hostObj 1 0 3) 0x0A000001).setMac 1 mac

def macOn : Macsec := { on := true, rxAn := 1, rxHi := 100 }

def ringS (a b closed : Bool) : State := { up with scribe := { up.scribe with linkA := a, linkB := b, bypass := closed } }

def ringF (d : BitVec 48) (ok : Bool) : RingFrame := { dst := d, src := 0x112233445566, etype := 0x88B5, fcsOk := ok, msg := dmsg 9 7 0 0 [] }

/-- HostAndRingFrames. -/
theorem witness_HostAndRingFrames :
    ((ringF (macOf 2) true).dst = macOf 2 ∧ (ringS true true false).scribe.bypass = false ∧ ringUp (ringS true true false) true = true ∧ (ringS true true false).scribe.st ≠ .off ∧ (ringF (macOf 2) true).fcsOk = true ∧ (ringF (macOf 2) true).etype = 0x88B5) ∧
    ((ringF strangerMac true).dst ≠ macOf 2 ∧ (ringF strangerMac true).dst ≠ 0xFFFFFFFFFFFF#48 ∧ (ringS true true false).scribe.bypass = false ∧ ringUp (ringS true true false) true = true ∧ (ringS true true false).scribe.st ≠ .off ∧ (ringF strangerMac true).fcsOk = true ∧ ringUp (ringS true true false) (!true) = true) ∧
    ((up.hostP (1 : HostPort).val).up = false) ∧
    (((hostUp {}).hostP (1 : HostPort).val).up = true ∧ ((hostUp {}).mac (1 : HostPort).val).on = false ∧ ({ sec := none, body := .arp 0x0A000001 } : HostFrame).sec = none ∧ ({ sec := none, body := .arp 0x0A000001 } : HostFrame).body = .arp (0x0A000001 : BitVec 32) ∧ vlanOk (hostUp {}) (1 : HostPort) ({ sec := none, body := .arp 0x0A000001 } : HostFrame) = true ∧ hasIp4 (hostUp {}) (1 : HostPort).val (0x0A000001 : BitVec 32) = true) ∧
    (((hostUp {}).hostP (1 : HostPort).val).up = true ∧ ((hostUp {}).mac (1 : HostPort).val).on = false ∧ ({ sec := none, body := .arp 0 } : HostFrame).sec = none ∧ ({ sec := none, body := .arp 0 } : HostFrame).body ≠ .macControl ∧ (vlanOk (hostUp {}) (1 : HostPort) ({ sec := none, body := .arp 0 } : HostFrame) = false ∨ (({ sec := none, body := .arp 0 } : HostFrame).body = .arp (0 : BitVec 32) ∧ hasIp4 (hostUp {}) (1 : HostPort).val (0 : BitVec 32) = false))) ∧
    (((hostUp {}).hostP (1 : HostPort).val).up = true ∧ ((hostUp {}).mac (1 : HostPort).val).on = false ∧ ({ sec := none, body := .dictUdp 6 3 (dmsg 9 7 0 0 []) } : HostFrame).sec = none ∧ ({ sec := none, body := .dictUdp 6 3 (dmsg 9 7 0 0 []) } : HostFrame).body = .dictUdp (6 : BitVec 128) (3 : BitVec 16) (dmsg 9 7 0 0 []) ∧ vlanOk (hostUp {}) (1 : HostPort) ({ sec := none, body := .dictUdp 6 3 (dmsg 9 7 0 0 []) } : HostFrame) = true) ∧
    (((hostUp macOn).hostP (1 : HostPort).val).up = true ∧ ((hostUp macOn).mac (1 : HostPort).val).on = true ∧ ({ sec := none, body := .arp 0 } : HostFrame).sec = none ∧ ({ sec := none, body := .arp 0 } : HostFrame).body ≠ .macControl) ∧
    (((hostUp macOn).hostP (1 : HostPort).val).up = true ∧ ((hostUp macOn).mac (1 : HostPort).val).on = true ∧ ({ sec := some { an := 1, pn := 37, icvOk := true }, body := .arp 0x0A000001 } : HostFrame).sec = some ({ an := 1, pn := 37, icvOk := true } : SecTag) ∧ ({ sec := some { an := 1, pn := 37, icvOk := true }, body := .arp 0x0A000001 } : HostFrame).body = .arp (0x0A000001 : BitVec 32) ∧ vlanOk (hostUp macOn) (1 : HostPort) ({ sec := some { an := 1, pn := 37, icvOk := true }, body := .arp 0x0A000001 } : HostFrame) = true ∧ ({ an := 1, pn := 37, icvOk := true } : SecTag).icvOk = true ∧ ({ an := 1, pn := 37, icvOk := true } : SecTag).an = ((hostUp macOn).mac (1 : HostPort).val).rxAn ∧ ((hostUp macOn).mac (1 : HostPort).val).rxHi < ({ an := 1, pn := 37, icvOk := true } : SecTag).pn.toNat + 64 ∧ hasIp4 (hostUp macOn) (1 : HostPort).val (0x0A000001 : BitVec 32) = true) ∧
    (((ringS true true true).scribe.bypass = true ∨ ringUp (ringS true true true) true = false)) ∧
    (((ringS true false false).scribe.bypass = true ∨ ringUp (ringS true false false) true = false)) ∧
    ((ringS true true false).scribe.bypass = false ∧ ringUp (ringS true true false) true = true ∧ (ringS true true false).scribe.st ≠ .off ∧ (ringF 5 false).fcsOk = false) := ⟨⟨rfl, by and_intros <;> decide +kernel⟩,
    ⟨stranger_other, stranger_single, by and_intros <;> decide +kernel⟩,
    by and_intros <;> decide +kernel⟩

def row (ix sub : Nat) : ObjRow := (findObj ix sub).getD { ix := 0, sub := 0, ty := .u8, acc := .ro }

/-- ObjectWrites. -/
theorem witness_ObjectWrites :
    (((0x9999, 0)) = locate (0x9999 : BitVec 16).toNat ∧ (1 : BitVec 8).toNat ≠ 0 ∧ findObj ((0x9999, 0)).1 (1 : BitVec 8).toNat = none) ∧
    (((0x1100, 0)) = locate (0x1100 : BitVec 16).toNat ∧ (3 : BitVec 8).toNat ≠ 0 ∧ findObj ((0x1100, 0)).1 (3 : BitVec 8).toNat = some (row 0x1100 3) ∧ (objPresent up (row 0x1100 3) ((0x1100, 0)).2 = false ∨ mayWrite up (prt 0) (row 0x1100 3) (objPart up (sessionOf up (prt 0)) (row 0x1100 3) ((0x1100, 0)).2) = false)) ∧
    (((0x1000, 0)) = locate (0x1000 : BitVec 16).toNat ∧ (2 : BitVec 8).toNat ≠ 0 ∧ findObj ((0x1000, 0)).1 (2 : BitVec 8).toNat = some (row 0x1000 2) ∧ objPresent up (row 0x1000 2) ((0x1000, 0)).2 = true ∧ mayWrite up opr (row 0x1000 2) (objPart up (sessionOf up opr) (row 0x1000 2) ((0x1000, 0)).2) = true ∧ (row 0x1000 2).acc = .ro) ∧
    (((0x1100, 0)) = locate (0x1100 : BitVec 16).toNat ∧ (3 : BitVec 8).toNat ≠ 0 ∧ findObj ((0x1100, 0)).1 (3 : BitVec 8).toNat = some (row 0x1100 3) ∧ objPresent up (row 0x1100 3) ((0x1100, 0)).2 = true ∧ mayWrite up opr (row 0x1100 3) (objPart up (sessionOf up opr) (row 0x1100 3) ((0x1100, 0)).2) = true ∧ (row 0x1100 3).acc ≠ .ro ∧ lengthOk (row 0x1100 3) ([5, 0, 0] : List Byte).length = false) ∧
    (((0x1100, 0)) = locate (0x1100 : BitVec 16).toNat ∧ (3 : BitVec 8).toNat ≠ 0 ∧ findObj ((0x1100, 0)).1 (3 : BitVec 8).toNat = some (row 0x1100 3) ∧ objPresent up (row 0x1100 3) ((0x1100, 0)).2 = true ∧ mayWrite up opr (row 0x1100 3) (objPart up (sessionOf up opr) (row 0x1100 3) ((0x1100, 0)).2) = true ∧ (row 0x1100 3).acc ≠ .ro ∧ lengthOk (row 0x1100 3) ([4, 0, 0, 0] : List Byte).length = true ∧ valueOk up (row 0x1100 3) ([4, 0, 0, 0] : List Byte) = false) ∧
    (((0x3000, 5)) = locate (0x3028 : BitVec 16).toNat ∧ (2 : BitVec 8).toNat ≠ 0 ∧ findObj ((0x3000, 5)).1 (2 : BitVec 8).toNat = some (row 0x3000 2) ∧ objPresent (portIn .active) (row 0x3000 2) ((0x3000, 5)).2 = true ∧ mayWrite (portIn .active) opr (row 0x3000 2) (objPart (portIn .active) (sessionOf (portIn .active) opr) (row 0x3000 2) ((0x3000, 5)).2) = true ∧ (row 0x3000 2).acc ≠ .ro ∧ lengthOk (row 0x3000 2) ([3] : List Byte).length = true ∧ valueOk (portIn .active) (row 0x3000 2) ([3] : List Byte) = true ∧ unitStopped (portIn .active) (row 0x3000 2) ((0x3000, 5)).2 = false) ∧
    (((0x3000, 5)) = locate (0x3028 : BitVec 16).toNat ∧ (2 : BitVec 8).toNat ≠ 0 ∧ findObj ((0x3000, 5)).1 (2 : BitVec 8).toNat = some (row 0x3000 2) ∧ objPresent (portIn .disabled) (row 0x3000 2) ((0x3000, 5)).2 = true ∧ mayWrite (portIn .disabled) opr (row 0x3000 2) (objPart (portIn .disabled) (sessionOf (portIn .disabled) opr) (row 0x3000 2) ((0x3000, 5)).2) = true ∧ ((0x3000, 5)).1 = 0x3000 ∧ ((2 : BitVec 8) = 2 ∨ (2 : BitVec 8) = 3 ∨ (2 : BitVec 8) = 4) ∧ lengthOk (row 0x3000 2) ([3] : List Byte).length = true ∧ valueOk (portIn .disabled) (row 0x3000 2) ([3] : List Byte) = true ∧ ((portIn .disabled).port ((0x3000, 5)).2).st = .disabled) := by and_intros <;> decide +kernel

def fwS (st : ScribeSt) (fw : FwSt) (fl : Option (List Byte)) : State :=

  let u : State := { up with power := { up.power with state := 0 } }

  { u with scribe := { u.scribe with st := st, fwSt := fw, flash := fl, staging := [1, 2, 3] } }

def fwSealed : State := (fwS .running .installed none).modPart 3 fun p => { p with st := .sealed }

/-- FirmwareUpdate. -/
theorem witness_FirmwareUpdate :
    (((∀ b, (fwS .running .installed none).scribe.flash = some b → imageCheck (fwS .running .installed none) b = 0)) ∧ isOpr (fwS .running .installed none) opr = true ∧ fwShown (fwS .running .installed none) = .installed ∧ ((∀ p, p < 32 → p ≠ 0 → ((fwS .running .installed none).part p).st ≠ .sealing ∧ ((fwS .running .installed none).part p).st ≠ .sealed)) ∧ dataUp (fwS .running .installed none) = false) ∧
    (((∀ b, (fwS .running .staged none).scribe.flash = some b → imageCheck (fwS .running .staged none) b = 0)) ∧ (fwS .running .staged none).scribe.st = .running ∧ (fwS .running .staged none).scribe.fwSt ≠ .installing) ∧
    (fwWriter (fwS .running .installed none) opr = true ∧ (fwS .running .installed none).scribe.fwSt ≠ .verifying ∧ (fwS .running .installed none).scribe.fwSt ≠ .installing) ∧
    (fwWriter (fwS .recovery .empty none) (prt 0) = true ∧ (fwS .recovery .empty none).scribe.fwSt ≠ .verifying ∧ (fwS .recovery .empty none).scribe.fwSt ≠ .installing) ∧
    (fwWriter (fwS .running .verifying none) opr = true ∧ ((fwS .running .verifying none).scribe.fwSt = .verifying ∨ (fwS .running .verifying none).scribe.fwSt = .installing)) ∧
    (fwWriter (fwS .running .staged none) opr = true ∧ fwShown (fwS .running .staged none) = .staged) ∧
    (fwWriter (fwS .running .verified none) opr = true ∧ fwShown (fwS .running .verified none) ≠ .staged) ∧
    (fwWriter (fwS .running .verified none) opr = true ∧ fwShown (fwS .running .verified none) = .verified) ∧
    (fwWriter (fwS .running .staged none) opr = true ∧ fwShown (fwS .running .staged none) ≠ .verified) ∧
    (fwWriter (fwS .running .staged none) (prt 0) = false) ∧
    ((fwS .running .verifying none).scribe.fwSt = .verifying ∧ (1 : Nat) = imageCheck (fwS .running .verifying none) (fwS .running .verifying none).scribe.staging) ∧
    ((fwS .running .installing none).scribe.fwSt = .installing ∧ (fwS .running .installing none).scribe.st = .running) ∧
    (isOpr fwSealed opr = true ∧ fwShown fwSealed = .installed ∧ (3) < 32 ∧ (3) ≠ 0 ∧ (fwSealed.part (3)).st = .sealed) ∧
    (isOpr (fwS .running .failed none) opr = true ∧ (fwShown (fwS .running .failed none) = .staged ∨ fwShown (fwS .running .failed none) = .verified ∨ fwShown (fwS .running .failed none) = .failed)) ∧
    ((fwS .running .staged (some [1, 2, 3])).scribe.st = .running ∧ (fwS .running .staged (some [1, 2, 3])).scribe.fwSt ≠ .installing ∧ (fwS .running .staged (some [1, 2, 3])).scribe.flash = some ([1, 2, 3]) ∧ imageCheck (fwS .running .staged (some [1, 2, 3])) ([1, 2, 3]) ≠ 0) ∧
    ((fwS .recovery .staged none).scribe.st ≠ .running) := ⟨⟨(by intro b h; cases h), by and_intros <;> decide +kernel⟩,
    ⟨(by intro b h; cases h), by and_intros <;> decide +kernel⟩,
    by and_intros <;> decide +kernel⟩

def lr (n : BitVec 32) : LogRec := { ev := ev0 n, boot := 1, pno := 0 }

def logS : State := { up with scribe := { up.scribe with toPersist := [7, 8], log := [lr 7, lr 8], logNext := 9, plog := List.replicate 4095 (lr 3), plogNext := 5 } }

/-- LogAndRingLinks. -/
theorem witness_LogAndRingLinks :
    ((8 : BitVec 32) ∈ logS.scribe.toPersist ∧ logS.scribe.log.find? (fun x => x.ev.eseq == (8 : BitVec 32)) = some (lr 8) ∧ logS.scribe.plog.length < 4096) ∧
    ((9 : BitVec 32) ∉ logS.scribe.toPersist) ∧
    (isOpr logS opr = true) ∧
    (isOpr logS (prt 0) = false) ∧
    ((ringS true false false).scribe.st = .running ∧ (ringS true false false).scribe.bypass = false ∧ (if true then (ringS true false false).scribe.linkB else (ringS true false false).scribe.linkA) ≠ true) ∧
    ((ringS true false false).scribe.st = .running ∧ (ringS true false false).scribe.bypass = false ∧ (if false then (ringS true false false).scribe.linkB else (ringS true false false).scribe.linkA) ≠ false) ∧
    ((ringS true false true).scribe.bypass = true) := by and_intros <;> decide +kernel

/-- Readings with one diode at `t`. -/

def rd (t : BitVec 32) : Readings :=

  { pIn := 0x44000000, vIn := 0x42400000, iIn := 0x41200000, diodes := (Vector.replicate 64 0x42200000#32).set 3 t, stackT := Vector.replicate 6 0x42200000#32,

    coolIn := 0x41F00000, coolOut := 0x43700000, rails := Vector.replicate 8 (0x3F800000#32, 0#32) }

/-- The Scribe at work with a power (in F32) and a temperature. -/

def warm (t : BitVec 32) : State := { up with scribe := { up.scribe with powHigh := 10, pIn := 0x44000000, tHot := t, upMs := 10, coolIn := 0x42380000, demand := 0x42C80000, pumpDuty := 0x42480000, tach0 := 19 } }

def cold : State := { up with power := { up.power with state := 0 } }

def asleep : State := { up with scribe := { up.scribe with st := .recovery } }

/-- SensorsAndCoolant. -/
theorem witness_SensorsAndCoolant :
    (cold.scribe.st = .running ∧ dataUp cold = false) ∧
    (up.scribe.st = .running ∧ dataUp up = true ∧ hottest ((rd 0x42DB0000).diodes.toList.map (validTemp (-40) 150)) = some ((3), (219 * 2 ^ 148)) ∧ f32Fix (((rd 0x42DB0000).diodes.toList.map (validTemp (-40) 150)).getD (3) nan32) = some (219 * 2 ^ 148) ∧ (219 * 2 ^ 148) < objFix up (okey 0x1420 6)) ∧
    (up.scribe.st = .running ∧ dataUp up = true ∧ hottest ((rd 0x42DC0000).diodes.toList.map (validTemp (-40) 150)) = some ((3), (110 * 2 ^ 149)) ∧ f32Fix (((rd 0x42DC0000).diodes.toList.map (validTemp (-40) 150)).getD (3) nan32) = some (110 * 2 ^ 149) ∧ objFix up (okey 0x1420 6) ≤ (110 * 2 ^ 149)) ∧
    (asleep.scribe.st ≠ .running) ∧
    (dataUp up = true) ∧
    (dataUp cold = false) ∧
    (10 ≤ (warm 0).scribe.powHigh) ∧
    (up.scribe.powHigh < 10) ∧
    (powerLow (warm 0) = true) ∧
    (coolEnough (warm 0) = true) ∧
    (powerLow (({ up with scribe := { up.scribe with pIn := 0x7FC00000 } } : State)) = false) ∧
    (coolEnough up = false) ∧
    (cold.scribe.st = .running ∧ dataUp cold = false) ∧
    ((up.setO (okey 0x1410 7) 1).scribe.st = .running ∧ dataUp (up.setO (okey 0x1410 7) 1) = true ∧ (up.setO (okey 0x1410 7) 1).o (okey 0x1410 7) = 1) ∧
    ((warm 0x42C80000).scribe.st = .running ∧ dataUp (warm 0x42C80000) = true ∧ (warm 0x42C80000).o (okey 0x1410 7) ≠ 1 ∧ 10 ≤ (warm 0x42C80000).scribe.upMs ∧ f32Fix (warm 0x42C80000).scribe.pIn = some (512 * 2 ^ 149 : Int) ∧ f32Fix (warm 0x42C80000).scribe.tHot = some (100 * 2 ^ 149 : Int) ∧ f32Fix (warm 0x42C80000).scribe.integral = some (0 : Int) ∧ (100 * 2 ^ 149 - objFix (warm 0x42C80000) (okey 0x1410 1) : Int) = (100 * 2 ^ 149 : Int) - objFix (warm 0x42C80000) (okey 0x1410 1) ∧ ((objFix (warm 0x42C80000) (okey 0x1410 2) * (512 * 2 ^ 149) + objFix (warm 0x42C80000) (okey 0x1410 3) * (100 * 2 ^ 149 - objFix (warm 0x42C80000) (okey 0x1410 1))) * 10) = (objFix (warm 0x42C80000) (okey 0x1410 2) * (512 * 2 ^ 149 : Int) + objFix (warm 0x42C80000) (okey 0x1410 3) * (100 * 2 ^ 149 - objFix (warm 0x42C80000) (okey 0x1410 1) : Int)) * 10 ∧ ((objFix (warm 0x42C80000) (okey 0x1410 2) * (512 * 2 ^ 149) + objFix (warm 0x42C80000) (okey 0x1410 3) * (100 * 2 ^ 149 - objFix (warm 0x42C80000) (okey 0x1410 1))) * 10 + 0 * (10 * 2 ^ 149) + objFix (warm 0x42C80000) (okey 0x1410 4) * (100 * 2 ^ 149 - objFix (warm 0x42C80000) (okey 0x1410 1))) = ((objFix (warm 0x42C80000) (okey 0x1410 2) * (512 * 2 ^ 149) + objFix (warm 0x42C80000) (okey 0x1410 3) * (100 * 2 ^ 149 - objFix (warm 0x42C80000) (okey 0x1410 1))) * 10) + (0 : Int) * (10 * 2 ^ 149) + objFix (warm 0x42C80000) (okey 0x1410 4) * (100 * 2 ^ 149 - objFix (warm 0x42C80000) (okey 0x1410 1) : Int)) ∧
    (asleep.scribe.st ≠ .running) ∧
    (f32Fix (warm 0).scribe.coolIn = some (46 * 2 ^ 149 : Int) ∧ objFix (warm 0) (okey 0x1410 0xE) < (46 * 2 ^ 149 : Int) ∧ (warm 0).scribe.inletHigh = false) ∧
    ((warm 0).scribe.tach0 < (warm 0).o (okey 0x1410 0xF) ∧ pumpAtHalf (warm 0) = true ∧ (warm 0).scribe.tachLow = false) ∧
    ((({ up with scribe := { up.scribe with tach0 := 20 } } : State)).o (okey 0x1410 0xF) ≤ (({ up with scribe := { up.scribe with tach0 := 20 } } : State)).scribe.tach0) ∧
    (f32Fix (warm 0x42C80000).scribe.demand = some (100 * 2 ^ 149 : Int) ∧ (100 * 2 ^ 149 : Int) = fixOf 100 ∧ f32Fix (warm 0x42C80000).scribe.tHot = some (100 * 2 ^ 149 : Int) ∧ objFix (warm 0x42C80000) (okey 0x1410 1) < (100 * 2 ^ 149 : Int)) := by and_intros <;> decide +kernel

def pw (f : Power → Power) : State := { up with power := f up.power }

/-- SuppliesAndClock. -/
theorem witness_SuppliesAndClock :
    ((State.reset).power.vstby = false) ∧
    (up.power.vstby = true) ∧
    (mayStart (pw fun p => { p with state := 1 }) = true) ∧
    (mayStart up = false) ∧
    ((railsUp up = true ∨ mayStart up = true)) ∧
    ((railsUp (pw fun p => { p with state := 1 }) = true ∨ mayStart (pw fun p => { p with state := 1 }) = true)) ∧
    (follows up 1 = true) ∧
    (follows (pw fun p => { p with state := 0, pwrEn := false }) 1 = true ∧ (pw fun p => { p with state := 0, pwrEn := false }).power.pwrEn = false) ∧
    (follows (pw fun p => { p with vio := false }) 1 = false) ∧
    ((pw fun p => { p with state := 4, refclkOk := false }).power.vstby = true ∧ (pw fun p => { p with state := 4, refclkOk := false }).power.refclkOk = false ∧ (pw fun p => { p with state := 4, refclkOk := false }).power.state = 4) := by and_intros <;> decide +kernel

/-- Resets. -/
theorem witness_Resets :
    (follows up 0 = true ∧ up.power.resetLow = false) ∧
    (follows (pw fun p => { p with state := 4, resetLow := true }) 0 = true ∧ (pw fun p => { p with state := 4, resetLow := true }).power.resetLow = true) ∧
    (follows (pw fun p => { p with vio := false }) 0 = false) ∧
    (isOpr up opr = true ∧ portOk up (127 : BitVec 8).toNat = true) ∧
    (isOpr up opr = true ∧ tileOk up (15 : BitVec 8).toNat = true ∧ tileBusy up (15 : BitVec 8).toNat = false) ∧
    (isOpr (domS .active) opr = true ∧ tileBusy (domS .active) (15 : BitVec 8).toNat = true) ∧
    (isOpr up opr = true ∧ dataUp up = true ∧ up.power.resetLow = false ∧ up.power.refclkOk = true) ∧
    (isOpr up (prt 0) = false) ∧
    ((pw fun p => { p with zeroing := true }).power.zeroing = true) ∧
    (up.power.zeroing = false) := by and_intros <;> decide +kernel

/-- SidebandInputs. -/
theorem witness_SidebandInputs :
    (follows up 2 = true) ∧
    (follows (pw fun p => { p with throttle := true }) 2 = true ∧ (pw fun p => { p with throttle := true }).power.throttle = true ∧ (pw fun p => { p with throttle := true }).power.stuck.getLsbD 2 = false ∧ (pw fun p => { p with throttle := true }).scribe.st = .running) ∧
    (follows up 2 = true ∧ up.power.throttle = false ∧ up.scribe.st = .running) ∧
    (follows (pw fun p => { p with chatter := 4 }) 2 = false) ∧
    (follows up 3 = true ∧ up.o (okey 0x1420 9) ≠ 2) ∧
    (follows (up.setO (okey 0x1420 9) 2) 3 = true ∧ (up.setO (okey 0x1420 9) 2).o (okey 0x1420 9) = 2 ∧ (up.setO (okey 0x1420 9) 2).power.faultIn = false ∧ (up.setO (okey 0x1420 9) 2).scribe.st = .running) ∧
    ((pw fun p => { p with chatter := 2, state := 0 }).power.chatter.getLsbD 1 = true ∧ (pw fun p => { p with chatter := 2, state := 0 }).power.state = 0) ∧
    ((pw fun p => { p with chatter := 4 }).power.chatter.getLsbD 2 = true) ∧
    (up.power.vio = true) ∧
    ((pw fun p => { p with vio := false }).power.vio = false) ∧
    ((pw fun p => { p with vio := false }).power.vio = false ∧ (pw fun p => { p with vio := false }).o (okey 0x1420 9) ≠ 2) := by and_intros <;> decide +kernel

/-- StepPerformsTheFrontCommand. -/
theorem witness_StepPerformsTheFrontCommand :
    ((({ up with pending := [.vinLost, .vstbyLoss] } : State)).pending = (.vinLost : Instr) :: ([.vstbyLoss] : List Instr)) ∧
    (up.pending = []) ∧
    ((State.reset).pending = [] ∧ (State.reset).power.vstby = false) ∧
    (up.pending = [] ∧ up.power.vstby = true ∧ ((∀ p, p < 32 → (up.part p).sealAt = none ∧ (up.part p).removeAt = none ∧ (up.part p).releaseAt = none))) := by and_intros <;> decide +kernel

/-- ResetState. -/
theorem witness_ResetState :
    (((31 : Nat)) ≠ 0) := by decide +kernel

def busyQueue : State := { withMem with pending := [.vinLost] }

/-- MemoryFormIsKept. -/
theorem witness_MemoryFormIsKept :
    (busyQueue.memOk ∧ busyQueue.queueOk ∧ step busyQueue = .next (after .vinLost withMem)) := ⟨(by unfold State.memOk; decide +kernel), (by unfold State.queueOk; decide +kernel), rfl⟩

/-- NonStoringCommandsKeepMemory. -/
theorem witness_NonStoringCommandsKeepMemory :
    (exec (Instr.vinLost) withMem = .next (after .vinLost withMem) ∧ (Instr.vinLost).storing = .never) ∧
    (exec (Instr.portReset opr 5) withMem = .next (after (.portReset opr 5) withMem) ∧ (Instr.portReset opr 5).storing = .wakes ∧ withMem.cohWait = []) := ⟨⟨rfl, by decide +kernel⟩,
    ⟨rfl, by and_intros <;> decide +kernel⟩⟩

/-- TachometerSaturation. -/
theorem witness_TachometerSaturation :
    (exec (.tachGate false (7 : BitVec 32)) up = .next (after (.tachGate false 7) up) ∧ up.scribe.st = .running ∧ ((5 : Nat)) < 8 ∧ ((5 : Nat)) ≠ 4 + b2n false) ∧
    (up.scribe.st = .running ∧ 20000 < (20001 : BitVec 32).toNat) ∧
    (up.scribe.st = .running ∧ (20000 : BitVec 32).toNat ≤ 20000) := ⟨⟨rfl, by and_intros <;> decide +kernel⟩,
    by and_intros <;> decide +kernel⟩

/-- KeyObjectsOfAPartition. -/
theorem witness_KeyObjectsOfAPartition :
    (((.keyEstablish opr 3 0x105 : Instr) = .keyEstablish opr (3 : Part) (0x105 : BitVec 16) ∨ (.keyEstablish opr 3 0x105 : Instr) = .keyRetire opr (3 : Part) (0x105 : BitVec 16) ∨ (.keyEstablish opr 3 0x105 : Instr) = .peerAllow opr (3 : Part) ([] : List (BitVec 256)) ∨ (.keyEstablish opr 3 0x105 : Instr) = .hostRekey opr (3 : Part) (0 : BitVec 8)) ∧ ((partS .sealed).part (3 : Part).val).st = .sealed ∧ isPrt opr (3 : Part).val = false) ∧
    (((.hostRekey opr 3 0 : Instr) = .keyEstablish opr (3 : Part) (0x105 : BitVec 16) ∨ (.hostRekey opr 3 0 : Instr) = .keyRetire opr (3 : Part) (0x105 : BitVec 16) ∨ (.hostRekey opr 3 0 : Instr) = .peerAllow opr (3 : Part) ([] : List (BitVec 256)) ∨ (.hostRekey opr 3 0 : Instr) = .hostRekey opr (3 : Part) (0 : BitVec 8)) ∧ ((partS .sealed).part (3 : Part).val).st = .sealed ∧ isPrt opr (3 : Part).val = false) ∧
    (((.keyRetire (prt 3) 3 0x105 : Instr) = .keyEstablish (prt 3) (3 : Part) (0x105 : BitVec 16) ∨ (.keyRetire (prt 3) 3 0x105 : Instr) = .keyRetire (prt 3) (3 : Part) (0x105 : BitVec 16) ∨ (.keyRetire (prt 3) 3 0x105 : Instr) = .peerAllow (prt 3) (3 : Part) ([] : List (BitVec 256)) ∨ (.keyRetire (prt 3) 3 0x105 : Instr) = .hostRekey (prt 3) (3 : Part) (0 : BitVec 8)) ∧ (isPrt (prt 3) (3 : Part).val = true ∨ (((partS .sealed).part (3 : Part).val).st = .open_ ∧ isOpr (partS .sealed) (prt 3) = true))) ∧
    (((.peerAllow opr 3 [] : Instr) = .keyEstablish opr (3 : Part) (0x105 : BitVec 16) ∨ (.peerAllow opr 3 [] : Instr) = .keyRetire opr (3 : Part) (0x105 : BitVec 16) ∨ (.peerAllow opr 3 [] : Instr) = .peerAllow opr (3 : Part) ([] : List (BitVec 256)) ∨ (.peerAllow opr 3 [] : Instr) = .hostRekey opr (3 : Part) (0 : BitVec 8)) ∧ (isPrt opr (3 : Part).val = true ∨ (((partS .open_).part (3 : Part).val).st = .open_ ∧ isOpr (partS .open_) opr = true))) ∧
    (((.hostRekey (prt 2) 3 0 : Instr) = .keyEstablish (prt 2) (3 : Part) (0x105 : BitVec 16) ∨ (.hostRekey (prt 2) 3 0 : Instr) = .keyRetire (prt 2) (3 : Part) (0x105 : BitVec 16) ∨ (.hostRekey (prt 2) 3 0 : Instr) = .peerAllow (prt 2) (3 : Part) ([] : List (BitVec 256)) ∨ (.hostRekey (prt 2) 3 0 : Instr) = .hostRekey (prt 2) (3 : Part) (0 : BitVec 8)) ∧ isPrt (prt 2) (3 : Part).val = false ∧ isOpr (partS .open_) (prt 2) = false) := by and_intros <;> decide +kernel

def opM (a : Addr) (aop aty opb : Nat) : Msg := msg Op.atomic 3 a (BitVec.ofNat 32 (aop + 16 * aty)) (leBytes 16 (5 + opb * 2 ^ 64))

/-- AtomicOperations. -/
theorem witness_AtomicOperations :
    (FirstTime withMem (opM 0x48 1 1 0).hdr ∧ PlainRun withMem (opM 0x48 1 1 0).hdr.part.toNat (opM 0x48 1 1 0).hdr.addr.toNat (8 : Nat) (physSlice 4 + 0x48) true ∧ (opM 0x48 1 1 0).hdr.op = Op.atomic ∧ (opM 0x48 1 1 0).body.length = 16 ∧ mustWait withMem (opM 0x48 1 1 0) = false ∧ (opM 0x48 1 1 0).hdr.mcast = false ∧ (8 : Nat) = atomicWidth (opM 0x48 1 1 0).hdr ∧ (64 : Nat) = 8 * (8 : Nat) ∧ (opM 0x48 1 1 0).hdr.addr.toNat % (8 : Nat) = 0 ∧ (5714589967255750984 : Nat) = leNat (Memory.readN withMem.mem (physSlice 4 + 0x48) (8 : Nat)) ∧ (5 : Nat) = leAt (opM 0x48 1 1 0).body 0 8 % 2 ^ (64 : Nat) ∧ (0 : Nat) = leAt (opM 0x48 1 1 0).body 8 8 % 2 ^ (64 : Nat) ∧ (1 : Nat) = bits (opM 0x48 1 1 0).hdr.aux.toNat 3 0 ∧ (1 : Nat) = bits (opM 0x48 1 1 0).hdr.aux.toNat 7 4 ∧ (1 : Nat) = 1 ∧ (1 : Nat) < 4) ∧
    (FirstTime withMem (opM 0x48 1 2 0).hdr ∧ PlainRun withMem (opM 0x48 1 2 0).hdr.part.toNat (opM 0x48 1 2 0).hdr.addr.toNat (4 : Nat) (physSlice 4 + 0x48) true ∧ (opM 0x48 1 2 0).hdr.op = Op.atomic ∧ (opM 0x48 1 2 0).body.length = 16 ∧ mustWait withMem (opM 0x48 1 2 0) = false ∧ (opM 0x48 1 2 0).hdr.mcast = false ∧ (4 : Nat) = atomicWidth (opM 0x48 1 2 0).hdr ∧ (32 : Nat) = 8 * (4 : Nat) ∧ (opM 0x48 1 2 0).hdr.addr.toNat % (4 : Nat) = 0 ∧ (1263159624 : Nat) = leNat (Memory.readN withMem.mem (physSlice 4 + 0x48) (4 : Nat)) ∧ (5 : Nat) = leAt (opM 0x48 1 2 0).body 0 8 % 2 ^ (32 : Nat) ∧ (0 : Nat) = leAt (opM 0x48 1 2 0).body 8 8 % 2 ^ (32 : Nat) ∧ (1 : Nat) = bits (opM 0x48 1 2 0).hdr.aux.toNat 3 0 ∧ (2 : Nat) = bits (opM 0x48 1 2 0).hdr.aux.toNat 7 4 ∧ (1 : Nat) = 1 ∧ (2 : Nat) < 4) ∧
    (FirstTime withMem (opM 0x48 2 1 5714589967255750984).hdr ∧ PlainRun withMem (opM 0x48 2 1 5714589967255750984).hdr.part.toNat (opM 0x48 2 1 5714589967255750984).hdr.addr.toNat (8 : Nat) (physSlice 4 + 0x48) true ∧ (opM 0x48 2 1 5714589967255750984).hdr.op = Op.atomic ∧ (opM 0x48 2 1 5714589967255750984).body.length = 16 ∧ mustWait withMem (opM 0x48 2 1 5714589967255750984) = false ∧ (opM 0x48 2 1 5714589967255750984).hdr.mcast = false ∧ (8 : Nat) = atomicWidth (opM 0x48 2 1 5714589967255750984).hdr ∧ (64 : Nat) = 8 * (8 : Nat) ∧ (opM 0x48 2 1 5714589967255750984).hdr.addr.toNat % (8 : Nat) = 0 ∧ (5714589967255750984 : Nat) = leNat (Memory.readN withMem.mem (physSlice 4 + 0x48) (8 : Nat)) ∧ (5 : Nat) = leAt (opM 0x48 2 1 5714589967255750984).body 0 8 % 2 ^ (64 : Nat) ∧ (5714589967255750984 : Nat) = leAt (opM 0x48 2 1 5714589967255750984).body 8 8 % 2 ^ (64 : Nat) ∧ (2 : Nat) = bits (opM 0x48 2 1 5714589967255750984).hdr.aux.toNat 3 0 ∧ (1 : Nat) = bits (opM 0x48 2 1 5714589967255750984).hdr.aux.toNat 7 4 ∧ (2 : Nat) = 2 ∧ (1 : Nat) < 5 ∧ (5714589967255750984 : Nat) = (5714589967255750984 : Nat)) ∧
    (FirstTime withMem (opM 0x48 2 4 1263159624).hdr ∧ PlainRun withMem (opM 0x48 2 4 1263159624).hdr.part.toNat (opM 0x48 2 4 1263159624).hdr.addr.toNat (4 : Nat) (physSlice 4 + 0x48) true ∧ (opM 0x48 2 4 1263159624).hdr.op = Op.atomic ∧ (opM 0x48 2 4 1263159624).body.length = 16 ∧ mustWait withMem (opM 0x48 2 4 1263159624) = false ∧ (opM 0x48 2 4 1263159624).hdr.mcast = false ∧ (4 : Nat) = atomicWidth (opM 0x48 2 4 1263159624).hdr ∧ (32 : Nat) = 8 * (4 : Nat) ∧ (opM 0x48 2 4 1263159624).hdr.addr.toNat % (4 : Nat) = 0 ∧ (1263159624 : Nat) = leNat (Memory.readN withMem.mem (physSlice 4 + 0x48) (4 : Nat)) ∧ (5 : Nat) = leAt (opM 0x48 2 4 1263159624).body 0 8 % 2 ^ (32 : Nat) ∧ (1263159624 : Nat) = leAt (opM 0x48 2 4 1263159624).body 8 8 % 2 ^ (32 : Nat) ∧ (2 : Nat) = bits (opM 0x48 2 4 1263159624).hdr.aux.toNat 3 0 ∧ (4 : Nat) = bits (opM 0x48 2 4 1263159624).hdr.aux.toNat 7 4 ∧ (2 : Nat) = 2 ∧ (4 : Nat) < 5 ∧ (1263159624 : Nat) = (1263159624 : Nat)) ∧
    (FirstTime withMem (opM 0x48 2 4 7).hdr ∧ PlainRun withMem (opM 0x48 2 4 7).hdr.part.toNat (opM 0x48 2 4 7).hdr.addr.toNat (4 : Nat) (physSlice 4 + 0x48) true ∧ (opM 0x48 2 4 7).hdr.op = Op.atomic ∧ (opM 0x48 2 4 7).body.length = 16 ∧ mustWait withMem (opM 0x48 2 4 7) = false ∧ (opM 0x48 2 4 7).hdr.mcast = false ∧ (4 : Nat) = atomicWidth (opM 0x48 2 4 7).hdr ∧ (32 : Nat) = 8 * (4 : Nat) ∧ (opM 0x48 2 4 7).hdr.addr.toNat % (4 : Nat) = 0 ∧ (1263159624 : Nat) = leNat (Memory.readN withMem.mem (physSlice 4 + 0x48) (4 : Nat)) ∧ (5 : Nat) = leAt (opM 0x48 2 4 7).body 0 8 % 2 ^ (32 : Nat) ∧ (7 : Nat) = leAt (opM 0x48 2 4 7).body 8 8 % 2 ^ (32 : Nat) ∧ (2 : Nat) = bits (opM 0x48 2 4 7).hdr.aux.toNat 3 0 ∧ (4 : Nat) = bits (opM 0x48 2 4 7).hdr.aux.toNat 7 4 ∧ (2 : Nat) = 2 ∧ (4 : Nat) < 5 ∧ (1263159624 : Nat) ≠ (7 : Nat)) ∧
    (FirstTime withMem (opM 0x48 3 4 0).hdr ∧ PlainRun withMem (opM 0x48 3 4 0).hdr.part.toNat (opM 0x48 3 4 0).hdr.addr.toNat (4 : Nat) (physSlice 4 + 0x48) true ∧ (opM 0x48 3 4 0).hdr.op = Op.atomic ∧ (opM 0x48 3 4 0).body.length = 16 ∧ mustWait withMem (opM 0x48 3 4 0) = false ∧ (opM 0x48 3 4 0).hdr.mcast = false ∧ (4 : Nat) = atomicWidth (opM 0x48 3 4 0).hdr ∧ (32 : Nat) = 8 * (4 : Nat) ∧ (opM 0x48 3 4 0).hdr.addr.toNat % (4 : Nat) = 0 ∧ (1263159624 : Nat) = leNat (Memory.readN withMem.mem (physSlice 4 + 0x48) (4 : Nat)) ∧ (5 : Nat) = leAt (opM 0x48 3 4 0).body 0 8 % 2 ^ (32 : Nat) ∧ (0 : Nat) = leAt (opM 0x48 3 4 0).body 8 8 % 2 ^ (32 : Nat) ∧ (3 : Nat) = bits (opM 0x48 3 4 0).hdr.aux.toNat 3 0 ∧ (4 : Nat) = bits (opM 0x48 3 4 0).hdr.aux.toNat 7 4 ∧ (3 : Nat) = 3 ∧ (4 : Nat) < 5) ∧
    (FirstTime withMem (opM 0x48 4 0 0).hdr ∧ PlainRun withMem (opM 0x48 4 0 0).hdr.part.toNat (opM 0x48 4 0 0).hdr.addr.toNat (4 : Nat) (physSlice 4 + 0x48) true ∧ (opM 0x48 4 0 0).hdr.op = Op.atomic ∧ (opM 0x48 4 0 0).body.length = 16 ∧ mustWait withMem (opM 0x48 4 0 0) = false ∧ (opM 0x48 4 0 0).hdr.mcast = false ∧ (4 : Nat) = atomicWidth (opM 0x48 4 0 0).hdr ∧ (32 : Nat) = 8 * (4 : Nat) ∧ (opM 0x48 4 0 0).hdr.addr.toNat % (4 : Nat) = 0 ∧ (1263159624 : Nat) = leNat (Memory.readN withMem.mem (physSlice 4 + 0x48) (4 : Nat)) ∧ (5 : Nat) = leAt (opM 0x48 4 0 0).body 0 8 % 2 ^ (32 : Nat) ∧ (0 : Nat) = leAt (opM 0x48 4 0 0).body 8 8 % 2 ^ (32 : Nat) ∧ (4 : Nat) = bits (opM 0x48 4 0 0).hdr.aux.toNat 3 0 ∧ (0 : Nat) = bits (opM 0x48 4 0 0).hdr.aux.toNat 7 4 ∧ (4 : Nat) = 4 ∧ (0 : Nat) < 2) ∧
    (FirstTime withMem (opM 0x48 4 1 0).hdr ∧ PlainRun withMem (opM 0x48 4 1 0).hdr.part.toNat (opM 0x48 4 1 0).hdr.addr.toNat (8 : Nat) (physSlice 4 + 0x48) true ∧ (opM 0x48 4 1 0).hdr.op = Op.atomic ∧ (opM 0x48 4 1 0).body.length = 16 ∧ mustWait withMem (opM 0x48 4 1 0) = false ∧ (opM 0x48 4 1 0).hdr.mcast = false ∧ (8 : Nat) = atomicWidth (opM 0x48 4 1 0).hdr ∧ (64 : Nat) = 8 * (8 : Nat) ∧ (opM 0x48 4 1 0).hdr.addr.toNat % (8 : Nat) = 0 ∧ (5714589967255750984 : Nat) = leNat (Memory.readN withMem.mem (physSlice 4 + 0x48) (8 : Nat)) ∧ (5 : Nat) = leAt (opM 0x48 4 1 0).body 0 8 % 2 ^ (64 : Nat) ∧ (0 : Nat) = leAt (opM 0x48 4 1 0).body 8 8 % 2 ^ (64 : Nat) ∧ (4 : Nat) = bits (opM 0x48 4 1 0).hdr.aux.toNat 3 0 ∧ (1 : Nat) = bits (opM 0x48 4 1 0).hdr.aux.toNat 7 4 ∧ (4 : Nat) = 4 ∧ (1 : Nat) < 2) ∧
    (FirstTime withMem (opM 0x48 5 1 0).hdr ∧ PlainRun withMem (opM 0x48 5 1 0).hdr.part.toNat (opM 0x48 5 1 0).hdr.addr.toNat (8 : Nat) (physSlice 4 + 0x48) true ∧ (opM 0x48 5 1 0).hdr.op = Op.atomic ∧ (opM 0x48 5 1 0).body.length = 16 ∧ mustWait withMem (opM 0x48 5 1 0) = false ∧ (opM 0x48 5 1 0).hdr.mcast = false ∧ (8 : Nat) = atomicWidth (opM 0x48 5 1 0).hdr ∧ (64 : Nat) = 8 * (8 : Nat) ∧ (opM 0x48 5 1 0).hdr.addr.toNat % (8 : Nat) = 0 ∧ (5714589967255750984 : Nat) = leNat (Memory.readN withMem.mem (physSlice 4 + 0x48) (8 : Nat)) ∧ (5 : Nat) = leAt (opM 0x48 5 1 0).body 0 8 % 2 ^ (64 : Nat) ∧ (0 : Nat) = leAt (opM 0x48 5 1 0).body 8 8 % 2 ^ (64 : Nat) ∧ (5 : Nat) = bits (opM 0x48 5 1 0).hdr.aux.toNat 3 0 ∧ (1 : Nat) = bits (opM 0x48 5 1 0).hdr.aux.toNat 7 4 ∧ (5 : Nat) = 5 ∧ (1 : Nat) < 2) ∧
    (FirstTime withMem (opM 0x48 4 2 0).hdr ∧ PlainRun withMem (opM 0x48 4 2 0).hdr.part.toNat (opM 0x48 4 2 0).hdr.addr.toNat (4 : Nat) (physSlice 4 + 0x48) true ∧ (opM 0x48 4 2 0).hdr.op = Op.atomic ∧ (opM 0x48 4 2 0).body.length = 16 ∧ mustWait withMem (opM 0x48 4 2 0) = false ∧ (opM 0x48 4 2 0).hdr.mcast = false ∧ (4 : Nat) = atomicWidth (opM 0x48 4 2 0).hdr ∧ (32 : Nat) = 8 * (4 : Nat) ∧ (opM 0x48 4 2 0).hdr.addr.toNat % (4 : Nat) = 0 ∧ (1263159624 : Nat) = leNat (Memory.readN withMem.mem (physSlice 4 + 0x48) (4 : Nat)) ∧ (5 : Nat) = leAt (opM 0x48 4 2 0).body 0 8 % 2 ^ (32 : Nat) ∧ (0 : Nat) = leAt (opM 0x48 4 2 0).body 8 8 % 2 ^ (32 : Nat) ∧ (4 : Nat) = bits (opM 0x48 4 2 0).hdr.aux.toNat 3 0 ∧ (2 : Nat) = bits (opM 0x48 4 2 0).hdr.aux.toNat 7 4 ∧ (4 : Nat) = 4 ∧ ((2 : Nat) = 2 ∨ (2 : Nat) = 3)) ∧
    (FirstTime withMem (opM 0x48 4 3 0).hdr ∧ PlainRun withMem (opM 0x48 4 3 0).hdr.part.toNat (opM 0x48 4 3 0).hdr.addr.toNat (8 : Nat) (physSlice 4 + 0x48) true ∧ (opM 0x48 4 3 0).hdr.op = Op.atomic ∧ (opM 0x48 4 3 0).body.length = 16 ∧ mustWait withMem (opM 0x48 4 3 0) = false ∧ (opM 0x48 4 3 0).hdr.mcast = false ∧ (8 : Nat) = atomicWidth (opM 0x48 4 3 0).hdr ∧ (64 : Nat) = 8 * (8 : Nat) ∧ (opM 0x48 4 3 0).hdr.addr.toNat % (8 : Nat) = 0 ∧ (5714589967255750984 : Nat) = leNat (Memory.readN withMem.mem (physSlice 4 + 0x48) (8 : Nat)) ∧ (5 : Nat) = leAt (opM 0x48 4 3 0).body 0 8 % 2 ^ (64 : Nat) ∧ (0 : Nat) = leAt (opM 0x48 4 3 0).body 8 8 % 2 ^ (64 : Nat) ∧ (4 : Nat) = bits (opM 0x48 4 3 0).hdr.aux.toNat 3 0 ∧ (3 : Nat) = bits (opM 0x48 4 3 0).hdr.aux.toNat 7 4 ∧ (4 : Nat) = 4 ∧ ((3 : Nat) = 2 ∨ (3 : Nat) = 3)) ∧
    (FirstTime withMem (opM 0x48 5 3 0).hdr ∧ PlainRun withMem (opM 0x48 5 3 0).hdr.part.toNat (opM 0x48 5 3 0).hdr.addr.toNat (8 : Nat) (physSlice 4 + 0x48) true ∧ (opM 0x48 5 3 0).hdr.op = Op.atomic ∧ (opM 0x48 5 3 0).body.length = 16 ∧ mustWait withMem (opM 0x48 5 3 0) = false ∧ (opM 0x48 5 3 0).hdr.mcast = false ∧ (8 : Nat) = atomicWidth (opM 0x48 5 3 0).hdr ∧ (64 : Nat) = 8 * (8 : Nat) ∧ (opM 0x48 5 3 0).hdr.addr.toNat % (8 : Nat) = 0 ∧ (5714589967255750984 : Nat) = leNat (Memory.readN withMem.mem (physSlice 4 + 0x48) (8 : Nat)) ∧ (5 : Nat) = leAt (opM 0x48 5 3 0).body 0 8 % 2 ^ (64 : Nat) ∧ (0 : Nat) = leAt (opM 0x48 5 3 0).body 8 8 % 2 ^ (64 : Nat) ∧ (5 : Nat) = bits (opM 0x48 5 3 0).hdr.aux.toNat 3 0 ∧ (3 : Nat) = bits (opM 0x48 5 3 0).hdr.aux.toNat 7 4 ∧ (5 : Nat) = 5 ∧ ((3 : Nat) = 2 ∨ (3 : Nat) = 3)) ∧
    (FirstTime withMem (opM 0x48 5 2 0).hdr ∧ PlainRun withMem (opM 0x48 5 2 0).hdr.part.toNat (opM 0x48 5 2 0).hdr.addr.toNat (4 : Nat) (physSlice 4 + 0x48) true ∧ (opM 0x48 5 2 0).hdr.op = Op.atomic ∧ (opM 0x48 5 2 0).body.length = 16 ∧ mustWait withMem (opM 0x48 5 2 0) = false ∧ (opM 0x48 5 2 0).hdr.mcast = false ∧ (4 : Nat) = atomicWidth (opM 0x48 5 2 0).hdr ∧ (32 : Nat) = 8 * (4 : Nat) ∧ (opM 0x48 5 2 0).hdr.addr.toNat % (4 : Nat) = 0 ∧ (1263159624 : Nat) = leNat (Memory.readN withMem.mem (physSlice 4 + 0x48) (4 : Nat)) ∧ (5 : Nat) = leAt (opM 0x48 5 2 0).body 0 8 % 2 ^ (32 : Nat) ∧ (0 : Nat) = leAt (opM 0x48 5 2 0).body 8 8 % 2 ^ (32 : Nat) ∧ (5 : Nat) = bits (opM 0x48 5 2 0).hdr.aux.toNat 3 0 ∧ (2 : Nat) = bits (opM 0x48 5 2 0).hdr.aux.toNat 7 4 ∧ (5 : Nat) = 5 ∧ ((2 : Nat) = 2 ∨ (2 : Nat) = 3)) := ⟨⟨(by unfold FirstTime; decide +kernel), plainRun_of (by decide +kernel), by and_intros <;> decide +kernel⟩,
    ⟨(by unfold FirstTime; decide +kernel), plainRun_of (by decide +kernel), by and_intros <;> decide +kernel⟩,
    ⟨(by unfold FirstTime; decide +kernel), plainRun_of (by decide +kernel), by and_intros <;> decide +kernel⟩,
    ⟨(by unfold FirstTime; decide +kernel), plainRun_of (by decide +kernel), by and_intros <;> decide +kernel⟩,
    ⟨(by unfold FirstTime; decide +kernel), plainRun_of (by decide +kernel), by and_intros <;> decide +kernel⟩,
    ⟨(by unfold FirstTime; decide +kernel), plainRun_of (by decide +kernel), by and_intros <;> decide +kernel⟩,
    ⟨(by unfold FirstTime; decide +kernel), plainRun_of (by decide +kernel), by and_intros <;> decide +kernel⟩,
    ⟨(by unfold FirstTime; decide +kernel), plainRun_of (by decide +kernel), by and_intros <;> decide +kernel⟩,
    ⟨(by unfold FirstTime; decide +kernel), plainRun_of (by decide +kernel), by and_intros <;> decide +kernel⟩,
    ⟨(by unfold FirstTime; decide +kernel), plainRun_of (by decide +kernel), by and_intros <;> decide +kernel⟩,
    ⟨(by unfold FirstTime; decide +kernel), plainRun_of (by decide +kernel), by and_intros <;> decide +kernel⟩,
    ⟨(by unfold FirstTime; decide +kernel), plainRun_of (by decide +kernel), by and_intros <;> decide +kernel⟩,
    ⟨(by unfold FirstTime; decide +kernel), plainRun_of (by decide +kernel), by and_intros <;> decide +kernel⟩⟩
/-! ### Terms no command can be: one for each check of `Instr.wf` -/

/-- A message in the row of another opcode (R71) is refused, in every row that carries a message of one opcode. -/
theorem test_ill_formed_opcode : (let m := msg 0xEE 5 0 0 []
    [Instr.load m, .store m, .atomic m, .bulkLoad m, .bulkStore m, .rdShared m, .rdOwn m, .upgrade m, .writeback m, .evict m,
     .homeAtomic m, .cohStore m, .publish m, .open_ m, .mirrorOpen m, .join m, .close m, .abort m, .contrib m, .credit m, .bag m,
     .scatterAdd m, .filter m, .objMove m, .trigger m, .fill m, .copy m, .compare m, .memReduce m, .build m, .encode m,
     .basisLoad m, .basisRetire m, .expand m, .atReq m, .atFinish m, .kxInit 5 m, .kxResp 5 m, .kxActive 5 m, .kxRetire 5 m,
     .fence m].all fun i => !i.wf) = true := by decide +kernel

/-- A body that does not fill 16-byte blocks (R67, R73) is refused. -/
theorem test_ill_formed_body : (Instr.store (msg Op.store 3 0 0 [1, 2, 3])).wf = false ∧
    (Instr.store (msg Op.store 3 0 0 (body16 7))).wf = true := by decide +kernel

/-- A packet of another opcode, of another length than its PLEN, or from no ingress, is refused (R67, R71, R116). -/
theorem test_ill_formed_packet :
    (Instr.snoopResp passing).wf = false ∧ (Instr.dataFwd passing).wf = false ∧ (Instr.heartbeat passing).wf = false ∧
    (Instr.snoopResp { hdr := { hdr Op.snoopResp 1 with plen := 1 }, payload := [] }).wf = false ∧
    (Instr.dataFwd { hdr := { hdr Op.dataFwd 1 with plen := 1 }, payload := [] }).wf = false ∧
    (Instr.heartbeat { hdr := { hdr Op.heartbeat 0 with plen := 2 }, payload := [1] }).wf = false ∧
    (Instr.completion 131 passing).wf = false ∧ (Instr.completion 5 heartbeatPkt).wf = false ∧
    (Instr.completion 5 { passing with payload := [1] }).wf = false ∧ (Instr.completion 5 passing).wf = true ∧
    (Instr.forwardingDecision 131).wf = false ∧ (Instr.forwardingDecision 192).wf = true := by decide +kernel

/-- A packet on a link whose payload or tag has the wrong length (R67) or whose codeword fails unsaid (R53), a block of another length (R43), a datagram whose packet has, a host link without a rate. -/
theorem test_ill_formed_link :
    (let w : WirePacket := { hdr := { hdr Op.store 3 with plen := 1 }, payload := body16 1, tag := [], crc := 0, codewordsOk := true }
     (Instr.packetReceive 5 (.packet 0 {} w)).wf = true ∧ (Instr.packetReceive 5 (.packet 0 {} { w with payload := [1] })).wf = false ∧
     (Instr.packetReceive 5 (.packet 0 {} { w with tag := body16 1 })).wf = false ∧
     (Instr.packetReceive 5 (.packet 0 {} { w with hdr := { w.hdr with ks := 1 } })).wf = false ∧
     (Instr.packetReceive 5 (.packet 0 { uncorr := 1 } w)).wf = false ∧
     (Instr.packetReceive 5 (.packet 0 { uncorr := 1 } { w with codewordsOk := false })).wf = true) ∧
    (Instr.packetReceive 5 (.block {} { bytes := List.replicate 513 0, bad := 0, lseqs := [] })).wf = false ∧
    (Instr.packetReceive 5 (.block {} { bytes := List.replicate 514 0, bad := 0, lseqs := [] })).wf = true ∧
    (Instr.packetReceive 5 (.block { uncorr := 1 } { bytes := List.replicate 514 0, bad := 0, lseqs := [] })).wf = false ∧
    (Instr.hostDatagram 0 { ip := 0, udp := 0, pkt := { passing with payload := [1] } }).wf = false ∧
    (Instr.hostLinkChange 0 true 0).wf = false ∧ (Instr.hostLinkChange 0 true 3).wf = false ∧
    (Instr.hostLinkChange 0 false 0).wf = true := by decide +kernel

/-- A dictionary message of another type (R486), too long, or with a tag that PROT does not announce (R485). -/
theorem test_ill_formed_dictionary : (let m := dmsg 8 1 0x1000 1 []
    [Instr.sessOpen ring m, .sessAuth ring m, .sessClose ring m, .read ring m, .write ring m, .segment ring m, .segAck ring m,
     .dictAbort ring m, .keepalive ring m].all fun i => !i.wf) = true ∧
    (Instr.read ring (dmsg 3 1 0x1000 1 [])).wf = true ∧
    (Instr.read ring { dmsg 3 1 0x1000 1 [] with tag := body16 0 }).wf = false ∧
    (Instr.write ring (dmsg 4 1 0x1000 1 (List.replicate 1025 0))).wf = false ∧
    (Instr.hostFrame 0 { sec := none, body := .dictUdp 0 0 { dmsg 3 1 0x1000 1 [] with tag := [1] } }).wf = false ∧
    (Instr.hostFrame 0 { sec := none, body := .encapUdp { ip := 0, udp := 0, pkt := { passing with payload := [1] } } }).wf = false ∧
    (Instr.hostFrame 0 { sec := none, body := .other }).wf = true ∧
    (Instr.ringFrame false { dst := 0, src := 0, etype := 0, fcsOk := true, msg := { dmsg 3 1 0x1000 1 [] with prot := true } }).wf = false := by
  decide +kernel

/-- No row of the table has bits: no word spells a command, and placing one changes nothing. -/
theorem test_no_table_words : decodeTableWord 32 0 = none ∧ State.reset.withFetchWord 32 0 = State.reset := by decide +kernel

/-! ### Numbers the spec prints -/

/-- The check value of R90 over the digits 1 to 9. -/
theorem test_crc32c_check_value : crc32c [0x31, 0x32, 0x33, 0x34, 0x35, 0x36, 0x37, 0x38, 0x39] = 0xE3069283#32 := by decide +kernel

/-- R44, R47: HCHK of the values whose remainders by x^4 + x + 1 are x + 1 and (x + 1)^2, and the check value of the CRC-16 of
polynomial 0x1021 and initial value 0xFFFF over the digits 1 to 9. -/
theorem test_link_checks : hchk 1 = 3 ∧ hchk 16 = 5 ∧ crcMsb 16 0x1021 0x313233343536373839 72 0xFFFF = 0x29B1 := by decide +kernel

/-- R43 to R46: a packet of 2,084 bytes is 521 words, so it fills four blocks and nine words of a fifth, whose FPTR is then 9; the three
that it fills from their first word on bear 0xFF, and BCNT counts modulo 16. -/
theorem test_link_blocks : (linkBlocks 14 [List.replicate 2084 0x40]).map (fun b => (b.length, readBlockHeader b)) =
    [(514, 0, 14, true), (514, 0xFF, 15, true), (514, 0xFF, 0, true), (514, 0xFF, 1, true), (514, 9, 2, true)] := by decide +kernel

/-- R224: a chunk of 1,024 MXFP6 E2M3 elements occupies 800 bytes. -/
theorem test_mxfp6_chunk_bytes : Fmt.vecBytes .mxe2m3 1024 = 800 := by decide +kernel

/-- Table of R223: the greatest finite FP16, E4M3 and E5M2 values and the MXINT8 pattern 0x80 under scale 1 (R225). -/
theorem test_format_maxima :
    (decodeElem .fp16 0x7BFF).toTerm = (.fin false (65504 * 2 ^ 160), false) ∧
    (decodeElem .e4m3 0x7E).toTerm = (.fin false (448 * 2 ^ 160), false) ∧
    (decodeElem .e5m2 0x7B).toTerm = (.fin false (57344 * 2 ^ 160), false) ∧
    (scaleElem 127 (decodeElem .mxint8 0x80)).toTerm = (.fin true (2 * 2 ^ 160), false) := by decide +kernel

/-- The worked example of chapter 7: 1,000 times BF16 0x3DD0 and 0.4375 (BF16 0x3EE0) give BF16 0x42CC. -/
theorem test_one_index_a_million_times :
    (writeFloat .bf16 (Sum.result .sum 1001 (((default : Sum).add (((decodeElem .bf16 0x3DD0).times 1000).toTerm.1)).add
      (decodeElem .bf16 0x3EE0).toTerm.1))).pat = 0x42CC := by decide +kernel

/-- Worked example of chapter 9: a block of 232 rows and 88 columns at rank 32 with 300 residual entries takes 6,864 bytes, one of
256 by 256 with 512 entries 18,464, and the RAW BF16 block of 232 by 88 takes 40,864. -/
theorem test_block_sizes :
    impliedSize (blockHeader false 1 32 0 0 232 88 6864 300 3 2) = 6864 ∧
    impliedSize (blockHeader false 1 32 0 0 256 256 18464 512 0 0) = 18464 ∧
    impliedSize (blockHeader true 1 0 0 0 232 88 40864 0 3 2) = 40864 := by decide +kernel

/-- Worked example of chapter 12: an ATOMIC ADD of 5 to a U64 word of 100 leaves 105. -/
theorem test_atomic_add : atomicResult 1 1 100 5 0 = some (105, false) := by decide +kernel

/-! ### One step on a small state, with what the spec says of it -/

/-- A step takes the command at the front and leaves the rest of the queue. -/
theorem test_step_takes_the_front :
    (match step { portIn .detect with pending := [.signalDetect 5, .heartbeatTick] } with
      | .next t => decide ((t.port 5).st = .train ∧ t.pending = [.heartbeatTick]) | _ => false) = true := by decide +kernel

/-- R40: a signal in DETECT starts training; a training time-out goes back to DETECT. -/
theorem test_signal_detect : ((after (.signalDetect 5) (portIn .detect)).port 5).st = .train ∧
    ((after (.trainTimeout 5) (portIn .train)).port 5).st = .detect := by decide +kernel

/-- R95: ENABLE is the operator's; a partition's credential is answered ACCESS_DENIED and changes nothing (R390). -/
theorem test_port_enable : ((after (.portEnable opr 5 1) up).port 5).st = .detect ∧
    ((after (.portEnable (prt 3) 5 1) up).port 5).st = .disabled ∧ (after (.portEnable (prt 3) 5 1) up).out = [.answer (prt 3) 0x03 0 []] := by decide +kernel

/-- Bytes written read back, those beside them stay, and a written zero leaves no entry. -/
theorem test_memory_bytes : Memory.readN (Memory.writeN [] 100 [1, 2, 3]) 99 5 = [0#8, 1, 2, 3, 0] ∧
    Memory.writeN (Memory.writeN [] 100 [1, 2, 3]) 100 [0, 0, 0] = [] := by decide +kernel

/-- R175, R176: SWAP, CAS, and MAX of I32, U32 and FP32. -/
theorem test_atomic_forms : atomicResult 3 0 7 9 0 = some (9, false) ∧ atomicResult 2 0 7 9 7 = some (9, false) ∧
    atomicResult 2 0 7 9 8 = some (7, false) ∧ atomicResult 4 2 0xFFFFFFFF 1 0 = some (1, false) ∧
    atomicResult 4 0 0xFFFFFFFF 1 0 = some (0xFFFFFFFF, false) ∧ atomicResult 4 4 0x7F800001 0 0 = some (0x7FC00000, true) := by decide +kernel

/-- R209: a granted folio of this device that is drained is scrubbed: it reads zero and is REVOKED. -/
theorem test_folio_scrub : (let t := after (.folioScrubDone 3 0) folioFull
    Memory.readN t.mem (physStack 3 + 100) 3 = [0#8, 0, 0] ∧ (t.folio 3).st = .revoked) := by decide +kernel

/-- R577: 25,000 edges of a tachometer read 20,000, and are reported once. -/
theorem test_tachometer : (let t := after (.tachGate false 25000) up
    t.scribe.tach0 = 20000 ∧ t.power.tachSat = 0x10 ∧ (after (.tachGate false 25000) t).scribe.tach0 = 20000) := by decide +kernel

/-- R413, R475: after reset memory reads zero and PWR_STATE is that of a device without supplies. -/
theorem test_reset : Memory.readN State.reset.mem 0 4 = [0#8, 0, 0, 0] ∧ State.reset.mem = [] ∧ State.reset.pending = [] ∧
    State.reset.sessions = [] ∧ State.reset.power.vstby = false := by decide +kernel

/-- The model's tick: 10 ns pass on an empty queue. -/
theorem test_tick : (match step up with | .next t => decide (t.time = up.time + 1 ∧ t.timebase = up.timebase + 1) | _ => false) = true := by
  decide +kernel

/-- R131: a ligature list is written whole. -/
theorem test_lig_write : Sparse.get 0 (after (.ligWrite opr [(7, 5)]) up).ligs 7 = 5 := by decide +kernel

/-- R382: granting a port is the operator's. -/
theorem test_ports_of_a_partition : (after (.ports (prt 3) 3 0xFF) (partS .free)).out.getLast? = some (.answer (prt 3) 0x03 0 []) := by
  decide +kernel

/-- R492: the credential of the operator is set once it is written, and cleared by OPR_CRED_CLEAR. -/
theorem test_opr_cred : (after (.oprCred opr 77) up).oprCred = some 77 := by decide +kernel

/-- R180: a request whose target is declared dead leaves the table; the others stay. -/
theorem test_tgt_dead : ((after (.tgtDeadTimeout aKey) (outstanding 3)).tags.map fun x => x.key.tag) = [1] := by decide +kernel

end Sys2Proof.Tests
end

namespace Sys2Proof.Machine

/-! ### What an idle step does (R27, R521)

The tick is taken apart into the part that counts and reads, `advanceClocks`, and the part that ends what is due, `endDue`. -/

/-- Scribe time advances by 10 ns (R521). -/
def countTime (s : State) : State := { s with time := (s.time + 1) % 2 ^ 64 }

/-- Takes power and temperature over into the held readings at a boundary of `holdSpan`. -/
def holdReadings (s : State) : State :=
  if s.time % holdSpan = 0 then { s with scribe := { s.scribe with pHeld := s.scribe.pIn, tHeld := s.scribe.tHot } } else s

/-- The timebase advances by 10 ns while the root PLL runs (R27). -/
def countTimebase (s : State) : State :=
  if s.power.refclkOk then { s with timebase := (s.timebase + 1) % 2 ^ 64 } else s

/-- Takes the counters' snapshot at a boundary of `snapSpan` while the root PLL runs (R392). -/
def snapAtBoundary (s : State) : State :=
  if s.power.refclkOk ∧ s.timebase % snapSpan = 0 then takeSnapshot s else s

/-- The part of a tick before anything due is ended: the counts, and what is read at their boundaries. -/
def advanceClocks (s : State) : State := snapAtBoundary (countTimebase (holdReadings (countTime s)))

/-- Ends the sealings and removals whose moment has come (R398, R410). -/
def endDue (s : State) : State :=
  let s := (sealDue s).foldl flushSealing s
  let s := (releaseDue s).foldl release s
  (drainDue s).foldl endRemoval s

theorem tick_of_vstby_false {s : State} (h : s.power.vstby = false) : tick s = s :=
  if_pos (by simp [h])

theorem tick_of_vstby {s : State} (h : s.power.vstby = true) : tick s = endDue (advanceClocks s) :=
  if_neg (by simp [h])

theorem takeSnapshot_frame (s : State) :
    (takeSnapshot s).time = s.time ∧ (takeSnapshot s).timebase = s.timebase ∧ (takeSnapshot s).parts = s.parts := by
  unfold takeSnapshot
  dsimp only
  split <;> exact ⟨rfl, rfl, rfl⟩

theorem holdReadings_frame (s : State) :
    (holdReadings s).time = s.time ∧ (holdReadings s).timebase = s.timebase ∧ (holdReadings s).parts = s.parts ∧
    (holdReadings s).power = s.power ∧ (holdReadings s).kept = s.kept := by
  unfold holdReadings
  split <;> exact ⟨rfl, rfl, rfl, rfl, rfl⟩

theorem countTimebase_frame (s : State) :
    (countTimebase s).time = s.time ∧
    (countTimebase s).timebase = (if s.power.refclkOk then (s.timebase + 1) % 2 ^ 64 else s.timebase) ∧
    (countTimebase s).parts = s.parts ∧ (countTimebase s).kept = s.kept := by
  unfold countTimebase
  split <;> exact ⟨rfl, rfl, rfl, rfl⟩

theorem snapAtBoundary_frame (s : State) :
    (snapAtBoundary s).time = s.time ∧ (snapAtBoundary s).timebase = s.timebase ∧
    (snapAtBoundary s).parts = s.parts ∧ (snapAtBoundary s).kept = s.kept := by
  unfold snapAtBoundary
  split
  · obtain ⟨time, timebase, parts⟩ := takeSnapshot_frame s
    exact ⟨time, timebase, parts, takeSnapshot_kept s⟩
  · exact ⟨rfl, rfl, rfl, rfl⟩

/-- Scribe time advances always and the timebase with the root PLL; partitions, memory and the queue stay. -/
theorem advanceClocks_frame (s : State) :
    (advanceClocks s).time = (s.time + 1) % 2 ^ 64 ∧
    (advanceClocks s).timebase = (if s.power.refclkOk then (s.timebase + 1) % 2 ^ 64 else s.timebase) ∧
    (advanceClocks s).parts = s.parts ∧ (advanceClocks s).kept = s.kept := by
  simp [advanceClocks, snapAtBoundary_frame, countTimebase_frame, holdReadings_frame, countTime]

/-- No partition is being sealed or removed. -/
def State.partsSettled (s : State) : Prop :=
  ∀ p, p < 32 → (s.part p).sealAt = none ∧ (s.part p).removeAt = none ∧ (s.part p).releaseAt = none

theorem partsSettled_congr {s t : State} (h : t.parts = s.parts) : t.partsSettled ↔ s.partsSettled := by
  simp [State.partsSettled, State.part, h]

theorem endDue_of_partsSettled {s : State} (h : s.partsSettled) : endDue s = s := by
  have never : ∀ p ∈ List.range 32, (s.part p).sealAt = none ∧ (s.part p).removeAt = none ∧ (s.part p).releaseAt = none :=
    fun p hp => h p (List.mem_range.1 hp)
  have noSeal : sealDue s = [] := List.filter_eq_nil_iff.2 fun p hp => by simp [never p hp]
  have noRelease : releaseDue s = [] := List.filter_eq_nil_iff.2 fun p hp => by simp [never p hp]
  have noDrain : drainDue s = [] := List.filter_eq_nil_iff.2 fun p hp => by simp [never p hp]
  simp [endDue, noSeal, noRelease, noDrain]

theorem tick_of_partsSettled {s : State} (hv : s.power.vstby = true) (h : s.partsSettled) : tick s = advanceClocks s := by
  obtain ⟨-, -, parts, -⟩ := advanceClocks_frame s
  rw [tick_of_vstby hv, endDue_of_partsSettled ((partsSettled_congr parts).2 h)]

theorem step_of_pending_cons {s : State} {c : Instr} {cs : List Instr} (h : s.pending = c :: cs) :
    step s = exec c { s with pending := cs } := by
  simp [step, h]

theorem step_of_pending_nil {s : State} (h : s.pending = []) : step s = .next (tick s) := by
  simp [step, h]

/-- Settles O53: with no command waiting a step is a tick, and a tick of settled partitions only advances the clocks. -/
theorem stepPerformsTheFrontCommand : Obligations.StepPerformsTheFrontCommand := by
  intro s c cs
  refine ⟨step_of_pending_cons, step_of_pending_nil, fun hq hv => ?_, fun hq hv settled => ?_⟩
  · rw [step_of_pending_nil hq, tick_of_vstby_false hv]
  · obtain ⟨time, timebase, parts, kept⟩ := advanceClocks_frame s
    refine ⟨advanceClocks s, ?_, time, timebase, congrArg Prod.fst kept, (congrArg Prod.snd kept).trans hq, parts⟩
    rw [step_of_pending_nil hq, tick_of_partsSettled hv settled]

end Sys2Proof.Machine

namespace Sys2Proof.Machine

/-! ### Deficit round robin (R141, R142, R144)

One turn of the loop grants the class at the pointer its quantum and either serves it or passes it. A class that may send
is owed a bounded number of rounds, because a quantum is at least 512 bytes and a packet at most 2,100. -/

/-- The class whose turn it is. -/
def turnClass (ring : List Nat) (st : OutSt) : Nat := ring.getD (st.ptr % ring.length) 0

/-- A fresh class that may send takes its quantum. -/
def grantQuantum (s : State) (o c : Nat) (st : OutSt) : OutSt :=
  if outEligible s o c && st.fresh.getD c true then
    { st with deficit := st.deficit.set c (st.deficit.getD c 0 + quantum s o c), fresh := st.fresh.set c false }
  else st

/-- The class may send and its deficit covers its head. -/
def headCovered (s : State) (o c : Nat) (st : OutSt) : Bool :=
  outEligible s o c && decide (headLen s o c ≤ st.deficit.getD c 0)

/-- The turn passes from a class that is not served; a class with nothing queued loses its deficit. -/
def passTurn (ring : List Nat) (c : Nat) (st : OutSt) : OutSt :=
  let st := { st with fresh := st.fresh.set c true, ptr := (st.ptr + 1) % ring.length }
  if st.q.any (fun h => h.pkt.hdr.cls.toNat == c) then st else { st with deficit := st.deficit.set c 0 }

/-- The scheduler's state once the head of a class is served. -/
def chargeDeficit (s : State) (o c : Nat) (st : OutSt) : OutSt :=
  { st with deficit := st.deficit.set c (st.deficit.getD c 0 - headLen s o c) }

/-- The state in which the turn of the class at the pointer is decided. -/
def granted (s : State) (o : Nat) (ring : List Nat) (st : OutSt) : OutSt := grantQuantum s o (turnClass ring st) st

theorem dwrrLoop_of_headCovered {s : State} {o : Nat} {ring : List Nat} {st : OutSt} (n : Nat)
    (h : headCovered s o (turnClass ring st) (granted s o ring st) = true) :
    dwrrLoop s o ring (n + 1) st = (some (turnClass ring st), chargeDeficit s o (turnClass ring st) (granted s o ring st)) :=
  if_pos h

theorem dwrrLoop_of_not_headCovered {s : State} {o : Nat} {ring : List Nat} {st : OutSt} (n : Nat)
    (h : headCovered s o (turnClass ring st) (granted s o ring st) = false) :
    dwrrLoop s o ring (n + 1) st = dwrrLoop s o ring n (passTurn ring (turnClass ring st) (granted s o ring st)) :=
  if_neg (ne_true_of_eq_false h)

/-! What a grant and a passed turn change. -/

@[simp] theorem grantQuantum_frame (s : State) (o c : Nat) (st : OutSt) :
    (grantQuantum s o c st).q = st.q ∧ (grantQuantum s o c st).tokens = st.tokens ∧ (grantQuantum s o c st).ptr = st.ptr ∧
    (grantQuantum s o c st).deficit.length = st.deficit.length := by
  unfold grantQuantum; split <;> simp

@[simp] theorem passTurn_frame (ring : List Nat) (c : Nat) (st : OutSt) :
    (passTurn ring c st).q = st.q ∧ (passTurn ring c st).tokens = st.tokens ∧
    (passTurn ring c st).ptr = (st.ptr + 1) % ring.length ∧ (passTurn ring c st).fresh = st.fresh.set c true ∧
    (passTurn ring c st).deficit.length = st.deficit.length := by
  unfold passTurn; dsimp only; split <;> simp

theorem getD_set_ne {α : Type} (l : List α) {i j : Nat} (v d : α) (h : i ≠ j) : (l.set i v).getD j d = l.getD j d := by
  simp [List.getD, h]

theorem getD_set_self {α : Type} (l : List α) {i : Nat} (v d : α) (h : i < l.length) : (l.set i v).getD i d = v := by
  simp [List.getD, h]

theorem grantQuantum_other (s : State) (o : Nat) {c e : Nat} (st : OutSt) (h : e ≠ c) :
    (grantQuantum s o e st).deficit.getD c 0 = st.deficit.getD c 0 ∧
    (grantQuantum s o e st).fresh.getD c true = st.fresh.getD c true := by
  unfold grantQuantum
  split
  · exact ⟨getD_set_ne _ _ _ h, getD_set_ne _ _ _ h⟩
  · exact ⟨rfl, rfl⟩

/-- A class that may send has its quantum at its turn, then or from before. -/
theorem grantQuantum_self {s : State} {o c : Nat} {st : OutSt} (h : outEligible s o c = true) (hc : c < st.deficit.length) :
    (grantQuantum s o c st).deficit.getD c 0 = st.deficit.getD c 0 + quantum s o c * (st.fresh.getD c true).toNat := by
  cases hf : st.fresh.getD c true
  · simp only [grantQuantum, h, hf, Bool.and_false, Bool.false_eq_true, if_false, Bool.toNat_false, Nat.mul_zero, Nat.add_zero]
  · simp only [grantQuantum, h, hf, Bool.and_self, if_true, Bool.toNat_true, Nat.mul_one]
    exact getD_set_self _ _ _ hc

/-- A class with a packet queued keeps its deficit when a turn passes, whosever the turn. -/
theorem passTurn_deficit {ring : List Nat} {c e : Nat} {st : OutSt}
    (h : st.q.any (fun h => h.pkt.hdr.cls.toNat == c) = true) :
    (passTurn ring e st).deficit.getD c 0 = st.deficit.getD c 0 := by
  unfold passTurn
  dsimp only
  split
  · rfl
  · next hq =>
    have : e ≠ c := by rintro rfl; exact hq h
    exact getD_set_ne _ _ _ this

theorem getD_set_true_self (l : List Bool) (c : Nat) : (l.set c true).getD c true = true := by
  by_cases h : c < l.length
  · exact getD_set_self _ _ _ h
  · simp [List.getD, Nat.le_of_not_lt h]

/-! The queue of a class that may send holds a packet of it. -/

theorem headOf_mem {s : State} {o c : Nat} {q : List Held} {held : List Nat} {x : Held} (h : headOf s o c q held = some x) :
    x ∈ q ∧ x.pkt.hdr.cls.toNat = c := by
  induction q generalizing held with
  | nil => cases h
  | cons y q ih =>
    simp only [headOf] at h
    split at h
    · exact (ih h).imp_left (List.mem_cons_of_mem _)
    next hy =>
    split at h
    · cases h
      exact ⟨List.mem_cons_self, Decidable.not_not.1 fun hc => hy (.inl hc)⟩
    · exact (ih h).imp_left (List.mem_cons_of_mem _)

theorem queued_of_outEligible {s : State} {o c : Nat} (h : outEligible s o c = true) :
    (s.outSt o).q.any (fun h => h.pkt.hdr.cls.toNat == c) = true := by
  unfold outEligible at h
  split at h
  · next x hx =>
    obtain ⟨mem, cls⟩ := headOf_mem hx
    exact List.any_eq_true.2 ⟨x, mem, by simp [cls]⟩
  · cases h

/-! The turns until a place of the ring. -/

/-- The turns that pass before the turn of place `i`. -/
def turnsUntil (len i ptr : Nat) : Nat := if ptr % len ≤ i then i - ptr % len else i + len - ptr % len

theorem succ_mod_cases {len : Nat} (ptr : Nat) (hl : 0 < len) :
    (ptr % len + 1 = len ∧ (ptr + 1) % len = 0) ∨ (ptr % len + 1 < len ∧ (ptr + 1) % len = ptr % len + 1) := by
  have hp : ptr % len < len := Nat.mod_lt _ hl
  rw [← Nat.mod_add_mod]
  rcases Nat.lt_or_ge (ptr % len + 1) len with h | h
  · exact .inr ⟨h, Nat.mod_eq_of_lt h⟩
  · have e : ptr % len + 1 = len := by omega
    exact .inl ⟨e, by rw [e, Nat.mod_self]⟩

theorem turnsUntil_lt {len i : Nat} (ptr : Nat) (hi : i < len) : turnsUntil len i ptr < len := by
  have hp : ptr % len < len := Nat.mod_lt _ (by omega)
  unfold turnsUntil
  split <;> omega

/-- A turn of another place brings the turn of place `i` one nearer. -/
theorem turnsUntil_succ {len i ptr : Nat} (hi : i < len) (h : ptr % len ≠ i) :
    turnsUntil len i ((ptr + 1) % len) + 1 = turnsUntil len i ptr := by
  have hp : ptr % len < len := Nat.mod_lt _ (by omega)
  unfold turnsUntil
  rw [Nat.mod_mod]
  rcases succ_mod_cases ptr (show 0 < len by omega) with ⟨_, e⟩ | ⟨_, e⟩ <;> rw [e] <;> (repeat' split) <;> omega

/-! The loop. -/

/-- The loop leaves the queue and the token counts alone. -/
theorem dwrrLoop_frame (s : State) (o : Nat) (ring : List Nat) (n : Nat) (st : OutSt) :
    (dwrrLoop s o ring n st).2.q = st.q ∧ (dwrrLoop s o ring n st).2.tokens = st.tokens := by
  induction n generalizing st with
  | zero => exact ⟨rfl, rfl⟩
  | succ n ih =>
    cases h : headCovered s o (turnClass ring st) (granted s o ring st)
    · rw [dwrrLoop_of_not_headCovered n h]
      simpa [granted] using ih (passTurn ring (turnClass ring st) (granted s o ring st))
    · rw [dwrrLoop_of_headCovered n h]
      simp [chargeDeficit, granted]

theorem turnClass_mem {ring : List Nat} {st : OutSt} (h : ring ≠ []) : turnClass ring st ∈ ring := by
  have hp : st.ptr % ring.length < ring.length := Nat.mod_lt _ (List.length_pos_iff.2 h)
  simp [turnClass, List.getD, hp]

/-- A class that the loop chooses is of the ring and may send. -/
theorem dwrrLoop_some {s : State} {o : Nat} {ring : List Nat} (hr : ring ≠ []) {n c : Nat} {st : OutSt}
    (h : (dwrrLoop s o ring n st).1 = some c) : c ∈ ring ∧ outEligible s o c = true := by
  induction n generalizing st with
  | zero => cases h
  | succ n ih =>
    cases hc : headCovered s o (turnClass ring st) (granted s o ring st)
    · rw [dwrrLoop_of_not_headCovered n hc] at h
      exact ih h
    · rw [dwrrLoop_of_headCovered n hc] at h
      cases h
      exact ⟨turnClass_mem hr, (Bool.and_eq_true_iff.1 hc).1⟩

/-- What class `c` has, and takes in `k` rounds after its next turn, covers any packet. -/
def coveredAfter (c k : Nat) (st : OutSt) : Prop :=
  c < st.deficit.length ∧ 2100 ≤ st.deficit.getD c 0 + 512 * (k + (st.fresh.getD c true).toNat)

/-- The turn of another class leaves the rounds that class `c` is owed. -/
theorem coveredAfter_other {s : State} {o c e k : Nat} {ring : List Nat} {st : OutSt} (h : coveredAfter c k st) (he : e ≠ c)
    (hq : st.q.any (fun h => h.pkt.hdr.cls.toNat == c) = true) :
    coveredAfter c k (passTurn ring e (grantQuantum s o e st)) := by
  obtain ⟨len, due⟩ := h
  obtain ⟨deficit, fresh⟩ := grantQuantum_other s o st he
  refine ⟨by simpa using len, ?_⟩
  rw [passTurn_deficit (by simpa using hq), deficit]
  simpa only [passTurn_frame, getD_set_ne _ _ _ he, fresh] using due

/-- A turn of class `c` that does not serve it leaves one round less to wait, and was not the last. -/
theorem coveredAfter_self {s : State} {o c k : Nat} {ring : List Nat} {st : OutSt} (h : coveredAfter c k st)
    (el : outEligible s o c = true) (hq : st.q.any (fun h => h.pkt.hdr.cls.toNat == c) = true)
    (quant : 512 ≤ quantum s o c) (len : headLen s o c ≤ 2100) (nc : headCovered s o c (grantQuantum s o c st) = false) :
    0 < k ∧ coveredAfter c (k - 1) (passTurn ring c (grantQuantum s o c st)) := by
  obtain ⟨hlen, due⟩ := h
  have grant := grantQuantum_self el hlen
  have short : (grantQuantum s o c st).deficit.getD c 0 < 2100 := by
    simp only [headCovered, el, Bool.true_and, decide_eq_false_iff_not] at nc
    omega
  have more : 512 * (st.fresh.getD c true).toNat ≤ quantum s o c * (st.fresh.getD c true).toNat := Nat.mul_le_mul_right _ quant
  have kept : (passTurn ring c (grantQuantum s o c st)).deficit.getD c 0 = (grantQuantum s o c st).deficit.getD c 0 :=
    passTurn_deficit (by simpa using hq)
  have fresh : (passTurn ring c (grantQuantum s o c st)).fresh.getD c true = true := by
    simp only [passTurn_frame, getD_set_true_self]
  refine ⟨by omega, by simpa using hlen, ?_⟩
  rw [kept, fresh, Bool.toNat_true]
  omega

/-- A class that may send and is owed `k` rounds is served, if no other is, within the turns of `k` rounds after its next. -/
theorem dwrrLoop_isSome {s : State} {o i k n : Nat} {ring : List Nat} {st : OutSt} (nodup : ring.Nodup) (hi : i < ring.length)
    (el : outEligible s o ring[i] = true) (quant : 512 ≤ quantum s o ring[i]) (len : headLen s o ring[i] ≤ 2100)
    (hq : st.q.any (fun h => h.pkt.hdr.cls.toNat == ring[i]) = true) (due : coveredAfter ring[i] k st)
    (hn : turnsUntil ring.length i st.ptr + ring.length * k < n) : (dwrrLoop s o ring n st).1.isSome = true := by
  induction n generalizing k st with
  | zero => omega
  | succ n ih =>
    cases hc : headCovered s o (turnClass ring st) (granted s o ring st)
    case true => rw [dwrrLoop_of_headCovered n hc]; rfl
    rw [dwrrLoop_of_not_headCovered n hc]
    have hp : st.ptr % ring.length < ring.length := Nat.mod_lt _ (by omega)
    have turn : turnClass ring st = ring[st.ptr % ring.length] := by simp [turnClass, List.getD, hp]
    have hq' : (passTurn ring (turnClass ring st) (granted s o ring st)).q.any (fun h => h.pkt.hdr.cls.toNat == ring[i]) = true := by
      simpa [granted] using hq
    by_cases own : st.ptr % ring.length = i
    · have hcls : turnClass ring st = ring[i] := by simp only [turn, own]
      simp only [granted, hcls] at hc hq' ⊢
      obtain ⟨kpos, due'⟩ := coveredAfter_self (ring := ring) due el hq quant len hc
      refine ih hq' due' ?_
      have round := turnsUntil_lt (passTurn ring ring[i] (grantQuantum s o ring[i] st)).ptr hi
      have : ring.length * k = ring.length * (k - 1) + ring.length := by
        rw [← Nat.mul_succ, Nat.succ_eq_add_one, Nat.sub_add_cancel kpos]
      omega
    · have hcls : turnClass ring st ≠ ring[i] := fun h => own ((List.getElem_inj nodup).1 (turn.symm.trans h))
      refine ih hq' (coveredAfter_other due hcls hq) ?_
      have nearer := turnsUntil_succ hi own
      simp only [granted, passTurn_frame, grantQuantum_frame]
      omega

theorem dwrrRing_nodup (s : State) (o : Nat) : (dwrrRing s o).Nodup := List.nodup_range.filter _

theorem dwrrRing_length_le (s : State) (o : Nat) : (dwrrRing s o).length ≤ 8 :=
  List.length_filter_le _ (List.range 8)

theorem lt_of_mem_dwrrRing {s : State} {o c : Nat} (h : c ∈ dwrrRing s o) : c < 8 :=
  List.mem_range.1 (List.mem_filter.1 h).1

/-- The 64 turns of R141 reach a packet: five quanta cover one, and a round has at most 8 turns. -/
theorem dwrrLoop_64_isSome {s : State} {o c : Nat} (hd : (s.outSt o).deficit.length = 8) (mem : c ∈ dwrrRing s o)
    (el : outEligible s o c = true) (quant : 512 ≤ quantum s o c) (len : headLen s o c ≤ 2100) :
    (dwrrLoop s o (dwrrRing s o) 64 (s.outSt o)).1.isSome = true := by
  obtain ⟨i, hi, rfl⟩ := List.getElem_of_mem mem
  refine dwrrLoop_isSome (k := 5) (dwrrRing_nodup s o) hi el quant len (queued_of_outEligible el) ⟨?_, by omega⟩ ?_
  · rw [hd]
    exact lt_of_mem_dwrrRing mem
  · have round := turnsUntil_lt (s.outSt o).ptr hi
    have eight := dwrrRing_length_le s o
    omega

theorem dwrr_of_outEligible {s : State} {o c : Nat} (mem : c ∈ dwrrRing s o) (el : outEligible s o c = true) :
    dwrr s o = dwrrLoop s o (dwrrRing s o) 64 (s.outSt o) :=
  if_pos (List.any_eq_true.2 ⟨c, mem, el⟩)

/-- Deficit round robin chooses a class that is not strict and may send while there is one (R141, R142). -/
theorem dwrr_serves {s : State} {o : Nat} (hd : (s.outSt o).deficit.length = 8)
    (bounds : ∀ c, c < 8 → 512 ≤ quantum s o c ∧ headLen s o c ≤ 2100) (ex : ∃ c ∈ dwrrRing s o, outEligible s o c = true) :
    ∃ c st, dwrr s o = (some c, st) ∧ c ∈ dwrrRing s o ∧ outEligible s o c = true ∧ st.q = (s.outSt o).q ∧
      st.tokens = (s.outSt o).tokens := by
  obtain ⟨e, mem, el⟩ := ex
  obtain ⟨quant, len⟩ := bounds e (lt_of_mem_dwrrRing mem)
  obtain ⟨c, hc⟩ := Option.isSome_iff_exists.1 (dwrrLoop_64_isSome hd mem el quant len)
  obtain ⟨hmem, hel⟩ := dwrrLoop_some (List.ne_nil_of_mem mem) hc
  obtain ⟨hq, ht⟩ := dwrrLoop_frame s o (dwrrRing s o) 64 (s.outSt o)
  exact ⟨c, _, (dwrr_of_outEligible mem el).trans (Prod.ext hc rfl), hmem, hel, hq, ht⟩

/-! ### The record of an event in the log (R542, R544) -/

theorem dictSend_scribe (s : State) (v : Session) (m : DMsg) : (dictSend s v m).scribe = s.scribe := by
  simp [dictSend, apply_ite State.scribe, State.setSession, endSession]

theorem offer_scribe (e : Event) (s : State) (sid : BitVec 16) : (offer e s sid).scribe = s.scribe := by
  unfold offer
  split
  · rfl
  · simp [apply_ite State.scribe, dictSend_scribe, State.setSession]

theorem attend_scribe (before : Nat) (s : State) (h : Nat) : (attend before s h).scribe = s.scribe := by
  simp [attend, hrbAttention, apply_ite State.scribe]

/-- Giving an event to the sessions and serving the HRB pins leaves the log. -/
theorem deliverEvent_scribe (s : State) (e : Event) (only : Session → Bool) : (deliverEvent s e only).scribe = s.scribe := by
  have offers : ∀ (l : List (BitVec 16)) (s : State), (l.foldl (offer e) s).scribe = s.scribe := by
    intro l
    induction l with
    | nil => exact fun _ => rfl
    | cons a l ih => exact fun s => (ih _).trans (offer_scribe e s a)
  simp only [deliverEvent, attend_scribe, offers]

theorem markPersist_log (s : State) (n : BitVec 32) : (markPersist s n).2.scribe.log = s.scribe.log := by
  unfold markPersist
  extract_lets sc iv n
  split
  · rfl
  · simp

theorem firstIn_scribe (s : State) (span what unit : Nat) : (s.firstIn span what unit).2.scribe = s.scribe := by
  unfold State.firstIn
  dsimp only
  split <;> rfl

/-- While no occasion is noted the next is the first. -/
theorem firstIn_of_limit_zero {s : State} {what unit : Nat} (span : Nat) (h : Sparse.get 0 s.limits (what * 2 ^ 40 + unit) = 0) :
    (s.firstIn span what unit).1 = true := by
  unfold State.firstIn
  extract_lets k iv
  have unmarked : Sparse.get 0 s.limits k ≠ iv := fun e => Nat.succ_ne_zero _ (e.symm.trans h)
  rw [if_neg unmarked]

/-- What the SRAM log holds of a list of records (R543). -/
def newest (l : List LogRec) : List LogRec := l.drop (l.length - 16384)

theorem newest_append {l m : List LogRec} (h : m.length ≤ 16384) : ∃ l', newest (l ++ m) = l' ++ m :=
  ⟨_, List.drop_append_of_le_length (by rw [List.length_append]; omega)⟩

/-- The event that is raised. -/
def raisedEvent (s : State) (code epart : Nat) (items : List (Nat × Nat)) : Event :=
  { eseq := 0, code := BitVec.ofNat 16 code, epart := BitVec.ofNat 8 epart, coarse := false,
    tstamp := BitVec.ofNat 64 s.time, edata := packItems items }

/-- Its record in the log. -/
def logRecord (s : State) (e : Event) : LogRec :=
  { ev := { (if isSealed s e.epart.toNat then e.coarsen else e) with eseq := s.scribe.logNext }
    boot := s.scribe.bootCount, pno := 0 }

theorem logRecord_ev (s : State) (e : Event) :
    (logRecord s e).ev.eseq = s.scribe.logNext ∧ (logRecord s e).ev.code = e.code := by
  unfold logRecord
  split <;> exact ⟨rfl, rfl⟩

theorem logAppend_log (s : State) (e : Event) : (logAppend s e).scribe.log = newest (s.scribe.log ++ [logRecord s e]) := by
  simp only [logAppend, newest, logRecord]

theorem raiseOnce_log (s : State) (code epart : Nat) (items : List (Nat × Nat)) (only : Session → Bool) :
    (raiseOnce s code epart items only).2.scribe.log =
      newest (s.scribe.log ++ [logRecord s (raisedEvent s code epart items)]) := by
  rw [← logAppend_log]
  unfold raiseOnce
  extract_lets e no s1 r
  rw [deliverEvent_scribe]
  simp only [r]
  split
  · exact markPersist_log s1 no
  · rfl

/-- An event is logged (R542); its record stays when PLOG_DROPPED is raised after it. -/
theorem raise_logs (s : State) (code epart : Nat) (items : List (Nat × Nat)) : Logs s (raise s code epart items) code := by
  refine ⟨logRecord s (raisedEvent s code epart items), ?_, logRecord_ev s _⟩
  obtain ⟨l, hl⟩ := newest_append (l := s.scribe.log) (m := [logRecord s (raisedEvent s code epart items)]) (by simp)
  have first := (raiseOnce_log s code epart items fun _ => true).trans hl
  unfold raise raiseTo
  extract_lets r f
  split
  · split
    · rw [raiseOnce_log, firstIn_scribe, first, List.append_assoc]
      obtain ⟨l', hl'⟩ := newest_append (l := l) (m := [logRecord s (raisedEvent s code epart items)] ++
        [logRecord f.2 (raisedEvent f.2 0x0A1F deviceWide [(4, f.2.c (okey 0x1240 9))])]) (by simp)
      rw [hl']
      simp
    · rw [firstIn_scribe, first]
      simp
  · rw [first]
    simp

/-- A limited event is logged at its first occasion (R597). -/
theorem raiseLimited_logs {s : State} {unit code : Nat} (span epart : Nat) (items : List (Nat × Nat))
    (h : Sparse.get 0 s.limits (code * 2 ^ 40 + unit) = 0) : Logs s (raiseLimited s span unit code epart items) code := by
  have raised : raiseLimited s span unit code epart items = raise (s.firstIn span code unit).2 code epart items :=
    if_pos (firstIn_of_limit_zero span h)
  rw [raised]
  simpa only [Logs, firstIn_scribe] using raise_logs (s.firstIn span code unit).2 code epart items

/-! ### DWRR_STARVE_TIME (R144) -/

theorem exec_dwrrStarveTimeout_waiting {s : State} {o : Output} {c : BitVec 3} (hs : isStrict s o c.toNat = false)
    (he : outEligible s o c.toNat = true) :
    exec (.dwrrStarveTimeout o c) s =
      .next (raiseLimited s (10 * ms) o.val 0x020D (outOwner s o.val) [(1, o.val), (1, c.toNat)]) :=
  congrArg _ (if_pos (by simp [hs, he]))

theorem exec_dwrrStarveTimeout_idle {s : State} {o : Output} {c : BitVec 3}
    (h : isStrict s o c.toNat = true ∨ outEligible s o c.toNat = false) : exec (.dwrrStarveTimeout o c) s = .next s :=
  congrArg _ (if_neg (by rcases h with h | h <;> simp [h]))

/-- Settles O10: a class that may send is owed at most five rounds of at most 8 turns, and the loop has 64. -/
theorem dwrrAlwaysServes : Obligations.DwrrAlwaysServes := by
  refine ⟨fun s o hd _ bounds ex => dwrr_serves hd bounds ex, fun s o c => ⟨fun hs he => ⟨?_, fun first => ?_⟩, ?_⟩⟩
  · exact ⟨_, exec_dwrrStarveTimeout_waiting hs he, raiseLimited_noEvents s _ _ _ _ _⟩
  · exact ⟨_, exec_dwrrStarveTimeout_waiting hs he, raiseLimited_logs _ _ _ first⟩
  · exact exec_dwrrStarveTimeout_idle

end Sys2Proof.Machine

namespace Sys2Proof.Machine

/-! ### Refill boundaries (R146, R148, R152, R154, R155, R157)

A boundary is a row of stages; each stage that goes over units writes every unit once, from what that unit held before. -/

/-- A walk that writes each of its units from that unit's own reading leaves each unit of a list without repetition as one write
leaves it, and every other as it was. -/
theorem foldl_writes_each {β : Type} {f : State → Nat → State} {read : State → Nat → β}
    (other : ∀ s a j, j ≠ a → read (f s a) j = read s j)
    (own : ∀ s t j, read t j = read s j → read (f t j) j = read (f s j) j) {l : List Nat} (nodup : l.Nodup) (s : State) (j : Nat) :
    read (l.foldl f s) j = if j ∈ l then read (f s j) j else read s j := by
  induction l generalizing s with
  | nil => rfl
  | cons a l ih =>
    obtain ⟨ha, hl⟩ := List.nodup_cons.1 nodup
    rw [List.foldl_cons, ih hl]
    by_cases e : j = a
    · subst e
      simp [ha]
    · by_cases hj : j ∈ l
      · simp [hj, own s (f s a) j (other s a j e)]
      · simp [hj, e, other s a j e]

theorem foldl_read {α β : Type} (f : State → α → State) (read : State → β) (h : ∀ s a, read (f s a) = read s) (l : List α)
    (s : State) : read (l.foldl f s) = read s := by
  induction l generalizing s with
  | nil => rfl
  | cons a l ih => exact (ih (f s a)).trans (h s a)

theorem outSt_of_outs {s t : State} (h : t.outs = s.outs) (o : Nat) : t.outSt o = s.outSt o := by
  simp only [State.outSt, h]

theorem meter_of_meters {s t : State} (h : t.meters = s.meters) (m : Nat) : t.meter m = s.meter m := by
  simp only [State.meter, h]

/-- A walk on which no item changes anything ends where it began. -/
theorem foldl_of_forall_skipped {α β : Type} {f : β → α → β} {l : List α} (b : β) (h : ∀ b, ∀ a ∈ l, f b a = b) :
    l.foldl f b = b := by
  induction l with
  | nil => rfl
  | cons a l ih =>
    rw [List.foldl_cons, h b a List.mem_cons_self]
    exact ih fun b c hc => h b c (List.mem_cons_of_mem a hc)

/-! The outputs. -/

/-- What an output holds after a boundary. -/
def refilledOut (s : State) (o : Nat) : OutSt :=
  { s.outSt o with
    tokens := (List.range 9).map fun b => refillBucket (bucketRate s o b) (bucketBurst s o b) ((s.outSt o).tokens.getD b 0)
    avg := redAverage (s.outSt o).avg (queueCells s o 7) (qosVal s (outObj o 1 1)) }

theorem refillOutput_eq (s : State) (o : Nat) : refillOutput s o = s.setOut o (refilledOut s o) := rfl

/-- A refilled output follows from what it held and the values in force. -/
theorem refilledOut_congr {s t : State} {o : Nat} (hq : t.qos = s.qos) (ho : t.outSt o = s.outSt o) :
    refilledOut t o = refilledOut s o := by
  simp [refilledOut, bucketRate, bucketBurst, qosVal, queueCells, hq, ho]

/-- Every output takes its refill. -/
def refillOutputs (s : State) : State := (List.range 130).foldl refillOutput s

theorem refillOutputs_frame (s : State) :
    (refillOutputs s).qos = s.qos ∧ (refillOutputs s).meters = s.meters ∧ (refillOutputs s).holds = s.holds := by
  unfold refillOutputs
  exact ⟨foldl_read refillOutput State.qos (fun _ _ => rfl) (List.range 130) s,
    foldl_read refillOutput State.meters (fun _ _ => rfl) (List.range 130) s,
    foldl_read refillOutput State.holds (fun _ _ => rfl) (List.range 130) s⟩

theorem refillOutputs_outSt (s : State) {o : Nat} (ho : o < 130) : (refillOutputs s).outSt o = refilledOut s o := by
  have h := foldl_writes_each (f := refillOutput) (read := fun s o => (s.qos, s.outSt o))
    (fun s a j hj => by simp [refillOutput_eq, State.outSt_setOut, hj])
    (fun s t j e => by
      obtain ⟨hq, hj⟩ := Prod.mk.inj e
      simp [refillOutput_eq, hq, refilledOut_congr hq hj])
    (List.nodup_range (n := 130)) s o
  rw [if_pos (List.mem_range.2 ho)] at h
  simpa [refillOutputs, refillOutput_eq] using (Prod.mk.inj h).2

/-! The meters. -/

theorem refillMeter_staged (v : MeterSt) :
    (refillMeter v).staged = none ∧ (refillMeter v).word = v.staged.getD v.word := by
  unfold refillMeter
  cases h : v.staged with
  | none => simp [h]
  | some w => dsimp only; split <;> simp

/-- No bucket of a meter passes its ceiling (R152). -/
theorem refillMeter_le_ceiling (v : MeterSt) :
    (refillMeter v).tp ≤ peakCeiling (refillMeter v).word ∧ (refillMeter v).tc ≤ commitCeiling (refillMeter v).word :=
  ⟨Nat.min_le_right _ _, Nat.min_le_right _ _⟩

/-- A meter that was never written has rates of 0 and empty buckets, and stays so. -/
theorem refillMeter_default : refillMeter {} = {} := by decide

/-- One meter takes its refill. -/
def refillMeterAt (s : State) (m : Nat) : State := s.setMeter m (refillMeter (s.meter m))

/-- Every meter takes its refill. -/
def refillMeters (s : State) : State := (s.meters.map (·.1)).foldl refillMeterAt s

theorem Sparse.get_of_not_mem {α : Type} (d : α) {m : Sparse α} {k : Nat} (h : k ∉ m.map (·.1)) : Sparse.get d m k = d := by
  induction m with
  | nil => rfl
  | cons e m ih =>
    obtain ⟨k', v⟩ := e
    obtain ⟨hk, hm⟩ := not_or.1 (mt List.mem_cons.2 h)
    simp only [Sparse.get, if_neg hk, ih hm, ite_self]

theorem refillMeters_meter {s : State} (nodup : (s.meters.map (·.1)).Nodup) (m : Nat) :
    (refillMeters s).meter m = refillMeter (s.meter m) := by
  have h := foldl_writes_each (f := refillMeterAt) (read := State.meter)
    (fun s a j hj => by simp [refillMeterAt, State.meter_setMeter, hj]) (fun s t j e => by simp [refillMeterAt, e]) nodup s m
  refine h.trans ?_
  split
  · simp [refillMeterAt]
  · next hm =>
    have absent : s.meter m = {} := Sparse.get_of_not_mem _ hm
    rw [absent, refillMeter_default]

theorem refillMeters_frame (s : State) :
    (refillMeters s).qos = s.qos ∧ (refillMeters s).outs = s.outs ∧ (refillMeters s).holds = s.holds := by
  unfold refillMeters
  exact ⟨foldl_read refillMeterAt State.qos (fun _ _ => rfl) _ s, foldl_read refillMeterAt State.outs (fun _ _ => rfl) _ s,
    foldl_read refillMeterAt State.holds (fun _ _ => rfl) _ s⟩

/-! The boundary. -/

/-- The staged values apply (R148). -/
def applyBoundaryValues (s : State) : State := { s with qos := boundaryValues s }

@[simp] theorem applyBoundaryValues_frame (s : State) :
    (applyBoundaryValues s).qos = boundaryValues s ∧ (applyBoundaryValues s).outs = s.outs ∧ (applyBoundaryValues s).meters = s.meters ∧
    (applyBoundaryValues s).holds = s.holds := ⟨rfl, rfl, rfl, rfl⟩

/-- Holds of meters that have tokens again end (R154). -/
def endHolds (s : State) : State := { s with holds := s.holds.filter fun h => decide ((s.meter h.meter).tp < 2100) }

theorem endHolds_frame (s : State) :
    (endHolds s).qos = s.qos ∧ (endHolds s).outs = s.outs ∧ (endHolds s).meters = s.meters ∧
    (endHolds s).holds = s.holds.filter fun h => decide ((s.meter h.meter).tp < 2100) := ⟨rfl, rfl, rfl, rfl⟩

theorem noWire_queueing {a b : State} (h : a.noWire = b.noWire) :
    a.qos = b.qos ∧ a.outs = b.outs ∧ a.meters = b.meters ∧ a.holds = b.holds :=
  have qos : a.noWire.qos = b.noWire.qos := congrArg State.qos h
  have outs : a.noWire.outs = b.noWire.outs := congrArg State.outs h
  have meters : a.noWire.meters = b.noWire.meters := congrArg State.meters h
  have holds : a.noWire.holds = b.noWire.holds := congrArg State.holds h
  ⟨qos, outs, meters, holds⟩

theorem updateXoff_noWire (s : State) (p : Nat) : (updateXoff s p).noWire = s.noWire := by
  unfold updateXoff
  dsimp only
  split
  · split <;> rfl
  · rfl

/-- Recomputing XOFF writes ports, counters and what leaves the device only. -/
theorem updateAllXoff_noWire (s : State) : (updateAllXoff s).noWire = s.noWire := by
  have ports := foldl_read updateXoff State.noWire updateXoff_noWire (s.ports.map (·.1)) s
  unfold updateAllXoff
  extract_lets s1 hs used
  split
  · exact ports
  · split <;> exact ports

/-- The device at a boundary before XOFF is recomputed. -/
def refillUnits (s : State) : State := endHolds (refillMeters (refillOutputs (applyBoundaryValues s)))

theorem refill_eq (s : State) : refill s = updateAllXoff (refillUnits s) := by
  unfold refill
  extract_lets staged outputs meters holds
  have hstaged : staged = applyBoundaryValues s := rfl
  have houtputs : outputs = refillOutputs staged := rfl
  have hmeters : meters = refillMeters outputs := rfl
  have hholds : holds = endHolds meters := rfl
  rw [hholds, hmeters, houtputs, hstaged, refillUnits]

theorem refill_frame (s : State) :
    (refill s).qos = boundaryValues s ∧ (refill s).outs = (refillOutputs (applyBoundaryValues s)).outs ∧
    (refill s).meters = (refillMeters (refillOutputs (applyBoundaryValues s))).meters ∧
    (refill s).holds = s.holds.filter fun h =>
      decide (((refillMeters (refillOutputs (applyBoundaryValues s))).meter h.meter).tp < 2100) := by
  obtain ⟨qos, outs, meters, holds⟩ := noWire_queueing (updateAllXoff_noWire (refillUnits s))
  rw [refill_eq, qos, outs, meters, holds]
  simp only [refillUnits, endHolds_frame, refillMeters_frame, refillOutputs_frame, applyBoundaryValues_frame, and_self]

theorem refill_qos (s : State) : (refill s).qos = boundaryValues s :=
  (refill_frame s).1

theorem refill_outSt (s : State) {o : Nat} (ho : o < 130) : (refill s).outSt o = refilledOut (applyBoundaryValues s) o := by
  obtain ⟨-, outs, -⟩ := refill_frame s
  rw [outSt_of_outs outs, refillOutputs_outSt _ ho]

theorem refill_meter {s : State} (nodup : (s.meters.map (·.1)).Nodup) (m : Nat) :
    (refill s).meter m = refillMeter (s.meter m) := by
  obtain ⟨-, -, meters, -⟩ := refill_frame s
  have before : (refillOutputs (applyBoundaryValues s)).meters = s.meters := by
    simp only [refillOutputs_frame, applyBoundaryValues_frame]
  rw [meter_of_meters meters, refillMeters_meter (by rwa [before]), meter_of_meters before]

/-- A hold stays while its meter, refilled, has fewer than 2,100 tokens (R154). -/
theorem refill_holds (s : State) :
    (refill s).holds = s.holds.filter fun h => decide (((refill s).meter h.meter).tp < 2100) := by
  obtain ⟨-, -, meters, holds⟩ := refill_frame s
  simp only [holds, meter_of_meters meters]

/-- With no shaper object written in the boundary's own cycle the written values apply as they stand (R148). -/
theorem boundaryValues_of_settled {s : State} (h : ∀ e ∈ s.outs, ∀ x ∈ e.2.wrote, x.2.2 ≠ s.timebase) :
    boundaryValues s = s.obj.filter fun e => isOutputKey e.1 := by
  unfold boundaryValues
  have skip : ∀ (q : Sparse Nat), ∀ x ∈ s.outs.flatMap (fun e => e.2.wrote),
      (if x.2.2 = s.timebase then Sparse.set (objDefault x.1) q x.1 x.2.1 else q) = q := by
    intro q x hx
    obtain ⟨e, he, hx⟩ := List.mem_flatMap.1 hx
    exact if_neg (h e he x hx)
  exact foldl_of_forall_skipped _ skip

/-! ### One bucket (R146, R148) -/

theorem refillBucket_eq (rate burst : Nat) (t : Int) :
    refillBucket rate burst t =
      if rate = 0 then ((max burst (rate + 2100) : Nat) : Int) else min (t + rate) (max burst (rate + 2100) : Nat) := by
  have ceiling : ((max burst (rate + 2100) : Nat) : Int) = max (burst : Int) (rate + 2100) := by omega
  rw [ceiling]
  rfl

theorem refillBucket_le (rate burst : Nat) (t : Int) : refillBucket rate burst t ≤ (max burst (rate + 2100) : Nat) := by
  rw [refillBucket_eq]
  split
  · exact Int.le_refl _
  · exact Int.min_le_right _ _

theorem refillBucket_rate_zero (burst : Nat) (t : Int) : refillBucket 0 burst t = (max burst 2100 : Nat) := by
  rw [refillBucket_eq, if_pos rfl, Nat.zero_add]

theorem refillBucket_of_le {rate burst : Nat} {t : Int} (pos : 0 < rate) (h : t + rate ≤ (max burst (rate + 2100) : Nat)) :
    refillBucket rate burst t = t + rate := by
  rw [refillBucket_eq, if_neg (Nat.ne_of_gt pos), Int.min_eq_left h]

/-! ### Writes of the queue objects and meters (R155, R159, R161, R162) -/

/-- A refused write raises its event and changes nothing else. -/
theorem rejects_of_exec {c : Instr} {by_ : Caller} {s x : State} {d : BitVec 8}
    (h : exec c s = .next (x.emit (.answer by_ d 0 []))) (hx : x.noEvents = s.noEvents) : Rejects c by_ s d :=
  ⟨_, h, by simp, by simpa using hx⟩

theorem qosRejected_noEvents (s : State) (owner key : Nat) : (qosRejected s owner key).noEvents = s.noEvents :=
  raise_noEvents s _ _ _

theorem setStrictMask_of_valid {s : State} {by_ : Caller} {o v : Nat} (may : mayWriteOutput s by_ o = true) (low : v % 2 = 1)
    (three : ((List.range 8).filter (bit v)).length ≤ 3) : setStrictMask s by_ o v = Ans.ok (s.setO (outObj o 0 1) v) := by
  rw [setStrictMask, may, guardRole_true, if_pos ⟨low, three⟩]

theorem setStrictMask_of_invalid {s : State} {by_ : Caller} {o v : Nat} (may : mayWriteOutput s by_ o = true)
    (h : v % 2 = 0 ∨ 3 < ((List.range 8).filter (bit v)).length) :
    setStrictMask s by_ o v = Ans.no (qosRejected s (outOwner s o) (outObj o 0 1)) Ds.outOfRange := by
  rw [setStrictMask, may, guardRole_true, if_neg (by omega)]

theorem setDropProfile_min {s : State} {by_ : Caller} {o v : Nat} (c : Colour) (may : mayWriteOutput s by_ o = true)
    (hv : v < 2 ^ 32) :
    setDropProfile s by_ o c .min v =
      if s.o (outObj o 1 (profileSub c .max)) ≤ v then
        Ans.no (qosRejected s (outOwner s o) (outObj o 1 (profileSub c .min))) Ds.valueRejected
      else Ans.ok (s.setO (outObj o 1 (profileSub c .min)) v) := by
  have range : (decide (v < 2 ^ 32) && (ProfField.min != .maxp || decide (v < 65536))) = true := by rw [decide_eq_true hv]; rfl
  rw [setDropProfile, may, guardRole_true, range, guardRange_true]
  rfl

theorem setDropProfile_max {s : State} {by_ : Caller} {o v : Nat} (c : Colour) (may : mayWriteOutput s by_ o = true)
    (hv : v < 2 ^ 32) :
    setDropProfile s by_ o c .max v =
      if v ≤ s.o (outObj o 1 (profileSub c .min)) then
        Ans.no (qosRejected s (outOwner s o) (outObj o 1 (profileSub c .max))) Ds.valueRejected
      else Ans.ok (s.setO (outObj o 1 (profileSub c .max)) v) := by
  have range : (decide (v < 2 ^ 32) && (ProfField.max != .maxp || decide (v < 65536))) = true := by rw [decide_eq_true hv]; rfl
  rw [setDropProfile, may, guardRole_true, range, guardRange_true]
  rfl

theorem isOpr_of_oprOver {s : State} {by_ : Caller} {p : Nat} (h : oprOver s by_ p = true) : isOpr s by_ = true :=
  (Bool.and_eq_true_iff.1 h).1

/-- A meter record that the operator may write is staged (R155). -/
theorem writeMeter_staged {s : State} {by_ : Caller} {m : BitVec 32} {w : BitVec 192} {cur own : Nat}
    (hcur : cur = meterOwner ((s.meter m.toNat).staged.getD (s.meter m.toNat).word)) (hown : own = meterOwner (canonMeter w))
    (opr : oprOver s by_ cur = true) (pass : own = cur ∨ (resourcesOpen s cur = true ∧ resourcesOpen s own = true))
    (valid : meterExists s m.toNat = true ∧ meterCir (canonMeter w) ≤ meterPir (canonMeter w) ∧
      meterPir (canonMeter w) ≤ 100000 ∧ partConfigured s own = true) :
    writeMeter by_ s (m, w) = (true, s.setMeter m.toNat { s.meter m.toNat with staged := some (canonMeter w) }) := by
  subst hcur hown
  unfold writeMeter
  dsimp only
  rw [if_pos valid, if_pos ⟨.inl opr, by simpa using pass⟩]

theorem setMeters_single {s t : State} {by_ : Caller} {r : BitVec 32 × BitVec 192} (opr : isOpr s by_ = true)
    (h : writeMeter by_ s r = (true, t)) : setMeters s by_ [r] = Ans.ok t := by
  rw [setMeters, opr, Bool.true_or, guardRole_true, writeRecords_single _ _ _ (by rw [h]), h]

/-! ### The statement's parts -/

/-- A boundary: the staged values, the outputs, the meters and the holds. -/
theorem refillBoundary_applies {s : State} (nodup : (s.meters.map (·.1)).Nodup) :
    Answers .refillBoundary s fun t =>
      t.qos = boundaryValues s ∧
      (∀ o, o < 130 → (t.outSt o).q = (s.outSt o).q ∧
        (t.outSt o).tokens = (List.range 9).map (fun b =>
          refillBucket (bucketRate t o b) (bucketBurst t o b) ((s.outSt o).tokens.getD b 0)) ∧
        (t.outSt o).avg = redAverage (s.outSt o).avg (queueCells s o 7) (qosVal t (outObj o 1 1))) ∧
      (∀ m, t.meter m = refillMeter (s.meter m)) ∧
      t.holds = s.holds.filter (fun h => decide ((t.meter h.meter).tp < 2100)) := by
  refine ⟨refill s, rfl, refill_qos s, fun o ho => ?_, refill_meter nodup, refill_holds s⟩
  have inForce : (applyBoundaryValues s).qos = (refill s).qos := (applyBoundaryValues_frame s).1.trans (refill_qos s).symm
  rw [refill_outSt s ho]
  simp only [refilledOut, bucketRate, bucketBurst, qosVal, inForce]
  exact ⟨rfl, rfl, rfl⟩

/-- Settles O11: the stages of a boundary write each output and each meter once, and the writes go through their guards. -/
theorem bucketsAndQueueConfiguration : Obligations.BucketsAndQueueConfiguration := by
  refine ⟨fun s nodup => ⟨boundaryValues_of_settled, refillBoundary_applies nodup⟩,
    ⟨fun rate burst t => ⟨refillBucket_le rate burst t, ?_, refillBucket_of_le⟩, fun v => ?_⟩,
    fun s by_ o v c n m w => ⟨fun may => ⟨fun low three => ?_, fun bad => ?_, fun lt => ?_, fun lt => ?_, fun le => ?_⟩, ?_⟩⟩
  · rintro rfl
    exact refillBucket_rate_zero burst t
  · obtain ⟨tp, tc⟩ := refillMeter_le_ceiling v
    obtain ⟨staged, word⟩ := refillMeter_staged v
    exact ⟨tp, tc, staged, word⟩
  · exact congrArg (Ans.out · by_) (setStrictMask_of_valid may low three)
  · exact rejects_of_exec (congrArg (Ans.out · by_) (setStrictMask_of_invalid may bad)) (qosRejected_noEvents s _ _)
  · exact congrArg (Ans.out · by_) ((setDropProfile_min c may n.isLt).trans (if_neg (by omega)))
  · exact congrArg (Ans.out · by_) ((setDropProfile_max c may n.isLt).trans (if_neg (by omega)))
  · exact rejects_of_exec (congrArg (Ans.out · by_) ((setDropProfile_min c may n.isLt).trans (if_pos le)))
      (qosRejected_noEvents s _ _)
  · intro cur own hcur hown opr pass exists_ cirPir pirMax configured
    have staged := writeMeter_staged hcur hown opr pass ⟨exists_, cirPir, pirMax, configured⟩
    exact congrArg (Ans.out · by_) (setMeters_single (isOpr_of_oprOver opr) staged)

end Sys2Proof.Machine

namespace Sys2Proof.Machine

/-! ### What the handling of a compression request may write -/

/-- A state without what raising an event may write and without the compression requests in service: their messages, the basis
slots, and what builds, loads, encodes and expands. -/
def State.noCompression (s : State) : State :=
  { s.noEvents with delivered := [], slots := [], basisJobs := [], encJobs := [], expanders := [], expResps := [] }

/-- That state without what completing a request may write either: nothing of it answers a request. -/
def State.noRequests (s : State) : State := { s.noCompression with inq := [], serial := 0, opRecs := [] }

theorem noCompression_of_noEvents {s t : State} (h : t.noEvents = s.noEvents) : t.noCompression = s.noCompression :=
  (congrArg State.noCompression h :)

theorem noRequests_of_noCompression {s t : State} (h : t.noCompression = s.noCompression) : t.noRequests = s.noRequests :=
  (congrArg State.noRequests h :)

theorem noRequests_of_noTraffic {s t : State} (h : t.noTraffic = s.noTraffic) : t.noRequests = s.noRequests :=
  (congrArg State.noRequests h :)

theorem noCompression_fields {s t : State} (h : t.noCompression = s.noCompression) :
    t.mem = s.mem ∧ t.inq = s.inq ∧ t.opRecs = s.opRecs :=
  ⟨(congrArg State.mem h :), (congrArg State.inq h :), (congrArg State.opRecs h :)⟩

theorem mem_of_noRequests {s t : State} (h : t.noRequests = s.noRequests) : t.mem = s.mem := (congrArg State.mem h :)

/-! What a request is decoded by and completed with does not look at the requests in service. -/

/-- A reading that does not look at the requests in service is the same of two states that differ in those only. -/
theorem read_congr {α : Type} {read : State → α} (blind : ∀ s, read s.noRequests = read s) {s t : State}
    (h : t.noRequests = s.noRequests) : read t = read s := by
  rw [← blind t, h, blind s]

theorem mkCmpl_congr {s t : State} (h : t.noRequests = s.noRequests) : mkCmpl t = mkCmpl s := read_congr (fun _ => rfl) h
theorem partQuills_congr {s t : State} (h : t.noRequests = s.noRequests) : partQuills t = partQuills s := read_congr (fun _ => rfl) h
theorem leadQuill_congr {s t : State} (h : t.noRequests = s.noRequests) : leadQuill t = leadQuill s := read_congr (fun _ => rfl) h
theorem quillFlag_congr {s t : State} (h : t.noRequests = s.noRequests) : quillFlag t = quillFlag s := read_congr (fun _ => rfl) h
theorem readPhys_congr {s t : State} (h : t.noRequests = s.noRequests) : readPhys t = readPhys s := read_congr (fun _ => rfl) h

theorem resolveFlats_noRequests (s : State) (p : Nat) (write : Bool) (l : List (Nat × Nat)) :
    resolveFlats s.noRequests p write l = resolveFlats s p write l := by
  have flat : resolveFlat s.noRequests = resolveFlat s := rfl
  induction l with
  | nil => rfl
  | cons r l ih => simp only [resolveFlats, flat, ih]

theorem resolvePieces_noRequests (s : State) (n : Nat) (o : Obj) (write hold : Bool) (l : List (Nat × Nat)) :
    resolvePieces s.noRequests n o write hold l = resolvePieces s n o write hold l := by
  have piece : resolvePiece s.noRequests = resolvePiece s := rfl
  have tier : tierOfPlace s.noRequests = tierOfPlace s := rfl
  have transit : inTransit s.noRequests = inTransit s := rfl
  induction l with
  | nil => rfl
  | cons r l ih => simp only [resolvePieces, piece, tier, transit, ih]

theorem resolveObject_noRequests (s : State) (p a len : Nat) (write hold : Bool) :
    resolveObject s.noRequests p a len write hold = resolveObject s p a len write hold := by
  have refusal : objectRefusal s.noRequests = objectRefusal s := rfl
  have object : s.noRequests.object = s.object := rfl
  simp only [resolveObject, resolvePieces_noRequests, refusal, object]

theorem resolveRange_congr {s t : State} (h : t.noRequests = s.noRequests) : resolveRange t = resolveRange s := by
  refine read_congr (fun s => ?_) h
  have touches : touchesObject s.noRequests = touchesObject s := rfl
  funext p a len write
  simp only [resolveRange, resolveContent, resolveFlats_noRequests, resolveObject_noRequests, touches]

theorem rangeOk_congr {s t : State} (h : t.noRequests = s.noRequests) : rangeOk t = rangeOk s := by
  funext p a len write
  simp only [rangeOk, resolveRange_congr h]

/-! The basis slots are read alone. -/

theorem slot_congr {s t : State} (h : t.slots = s.slots) : t.slot = s.slot := by
  funext n
  simp only [State.slot, h]

theorem entryOf_congr {s t : State} (h : t.slots = s.slots) : entryOf t = entryOf s := by
  funext n i
  simp only [entryOf, slot_congr h]

theorem findGen_congr {s t : State} (h : t.slots = s.slots) : findGen t = findGen s := by
  funext n g ok
  simp only [findGen, entryOf_congr h]

theorem emptyEntry_congr {s t : State} (h : t.slots = s.slots) : emptyEntry t = emptyEntry s := by
  funext n
  simp only [emptyEntry, entryOf_congr h]

theorem nextGen_congr {s t : State} (h : t.slots = s.slots) : nextGen t = nextGen s := by
  funext n
  simp only [nextGen, slot_congr h, findGen_congr h]

theorem encRefusal_congr {s t : State} (h : t.noRequests = s.noRequests) (hs : t.slots = s.slots) (m : Msg) :
    encRefusal t m = encRefusal s m := by
  simp only [encRefusal, slot_congr hs, partQuills_congr h, rangeOk_congr h]

/-! Entries are written one at a time. -/

theorem lt_four_of_find {p : Nat → Bool} {i : Nat} (h : (List.range 4).find? p = some i) : i < 4 :=
  List.mem_range.1 (List.mem_of_find?_eq_some h)

theorem lt_four_of_emptyEntry {s : State} {n i : Nat} (h : emptyEntry s n = some i) : i < 4 := lt_four_of_find h

theorem lt_four_of_findGen {s : State} {n i : Nat} {g : BitVec 8} {ok : GenSt → Bool} (h : findGen s n g ok = some i) : i < 4 :=
  lt_four_of_find h

theorem entryOf_setSlot {s : State} {n i : Nat} (v : BasisSlot) (e : GenEntry) (hl : v.entries.length = 4) (hi : i < 4) :
    entryOf (s.setSlot n { v with entries := v.entries.set i e }) n i = e := by
  simp [entryOf, List.getD, hl, hi]

theorem entryOf_setEntry {s : State} {n i : Nat} (e : GenEntry) (hl : (s.slot n).entries.length = 4) (hi : i < 4) :
    entryOf (setEntry s n i e) n i = e :=
  entryOf_setSlot (s.slot n) e hl hi

theorem setEntry_entries_length (s : State) (n i : Nat) (e : GenEntry) :
    ((setEntry s n i e).slot n).entries.length = (s.slot n).entries.length := by
  simp [setEntry]

/-! ### A request is accepted and completed once (R427, R429) -/

theorem noteBlotter_noEvents (s : State) (n : Nat) : (noteBlotter s n).noEvents = s.noEvents := by
  simp [noteBlotter]

theorem noteBlotter_scribe (s : State) (n : Nat) : (noteBlotter s n).scribe = s.scribe := by
  simp [noteBlotter, apply_ite State.scribe, State.setC]

theorem noteBlotter_c {k : Nat} (s : State) (n : Nat) (h : k ≠ okey 0xA000 3) : (noteBlotter s n).c k = s.c k := by
  unfold noteBlotter
  split
  · rw [State.c_setC, if_neg h]
  · rfl

/-- The state in which a message that came for the first time is performed: it stands in its record and is delivered no more. -/
def accepted (s : State) (m : Msg) : State := openOp (takeDelivered s m) m.hdr

theorem accepted_frame (s : State) (m : Msg) :
    (accepted s m).noRequests = s.noRequests ∧ (accepted s m).slots = s.slots ∧ (accepted s m).basisJobs = s.basisJobs ∧
    (accepted s m).encJobs = s.encJobs ∧ (accepted s m).inq = s.inq ∧ (accepted s m).scribe = s.scribe := by
  unfold accepted openOp
  extract_lets t r
  have view := noteBlotter_noEvents { takeDelivered s m with opRecs := (takeDelivered s m).opRecs ++ [r] } t
  have scribe := noteBlotter_scribe { takeDelivered s m with opRecs := (takeDelivered s m).opRecs ++ [r] } t
  generalize noteBlotter { takeDelivered s m with opRecs := (takeDelivered s m).opRecs ++ [r] } t = u at view scribe ⊢
  exact ⟨(congrArg State.noRequests view :), (congrArg State.slots view :), (congrArg State.basisJobs view :),
    (congrArg State.encJobs view :), (congrArg State.inq view :), scribe⟩

theorem accepted_c {k : Nat} (s : State) (m : Msg) (h : k ≠ okey 0xA000 3) : (accepted s m).c k = s.c k :=
  noteBlotter_c _ _ h

/-- A message that came for the first time has a record on which no copy waits. -/
def Opened (s : State) (h : Hdr) : Prop := ∃ r, findOp s h = some r ∧ r.ndup = 0

theorem opened_congr {s t : State} {h : Hdr} (e : t.opRecs = s.opRecs) (o : Opened s h) : Opened t h := by
  simpa only [Opened, findOp, e] using o

theorem accepted_opened {s : State} {m : Msg} (first : FirstTime s m.hdr) : Opened (accepted s m) m.hdr := by
  obtain ⟨none_, -⟩ := first
  have before : (takeDelivered s m).opRecs.find? (fun r => r.src == m.hdr.src && r.part == m.hdr.part && r.opid == m.hdr.opid) = none :=
    none_
  have opRecs : ∀ (u : State) (n : Nat), (noteBlotter u n).opRecs = u.opRecs := fun u n =>
    (congrArg State.opRecs (noteBlotter_noEvents u n) :)
  unfold Opened accepted openOp findOp
  extract_lets t r
  exact ⟨r, by simp [opRecs, List.find?_append, before, r], rfl⟩

theorem inTurn_once_of_firstTime {s : State} {m : Msg} (first : FirstTime s m.hdr) (turn : mustWait s m = false) (ing : Nat)
    (perform : State → State) :
    inTurn s m (fun s => once (takeDelivered s m) ing m perform) = perform (accepted s m) := by
  obtain ⟨none_, window⟩ := first
  have none' : findOp (takeDelivered s m) m.hdr = none := none_
  have window' : inTileWindow (takeDelivered s m) m.hdr = false := window
  simp [inTurn, turn, once, none', window', accepted]

/-! What completing a request sends. -/

theorem enqueueIn_inputQ (s : State) (ing : Nat) (kind : HeldKind) (ret : Option HostRet) (p : Packet) :
    (((enqueueIn s ing kind ret p).inputQ ing).map (·.pkt)) = (s.inputQ ing).map (·.pkt) ++ [p] := by
  have serial : (s.nextSerial).2.inputQ ing = s.inputQ ing := rfl
  simp [enqueueIn, mkHeld, serial]

theorem originate_sends (s : State) (ing : Nat) (kind : HeldKind) (ps : List Packet) :
    Sends s (originate s ing kind ps) ing ps := by
  unfold Sends originate
  induction ps generalizing s with
  | nil => simp
  | cons p ps ih => rw [List.foldl_cons, ih, enqueueIn_inputQ, List.append_assoc, List.singleton_append]

theorem noteStatus_inq (s : State) (tile : Nat) (st : BitVec 8) : (noteStatus s tile st).inq = s.inq := by
  simp only [noteStatus, apply_ite State.inq, raiseLimited_frame, State.bump_frame, ite_self]

theorem inputQ_congr {s t : State} (h : t.inq = s.inq) : t.inputQ = s.inputQ := by
  funext n
  simp only [State.inputQ, h]

theorem sends_of_inq {s u t : State} {ing : Nat} {ps : List Packet} (h : u.inq = s.inq) (hs : Sends u t ing ps) : Sends s t ing ps := by
  simpa only [Sends, inputQ_congr h] using hs

theorem noteStatus_noRequests (s : State) (tile : Nat) (st : BitVec 8) : (noteStatus s tile st).noRequests = s.noRequests :=
  noRequests_of_noTraffic (noteStatus_noTraffic s tile st)

/-- A "once" operation on which no copy waits ends with one completion. -/
theorem finishOnce_eq {s : State} {h : Hdr} (o : Opened s h) (ing : Nat) (st cflg : BitVec 8) (cdat : BitVec 16)
    (res : Option (BitVec 64)) :
    finishOnce s ing h st cflg cdat res = sendOp (setOp s (endedOp s h st cflg cdat res)) ing h (endedOp s h st cflg cdat res) := by
  obtain ⟨r, found, ndup⟩ := o
  simp [finishOnce, found, ndup]

theorem setOp_noRequests (s : State) (r : OpRec) : (setOp s r).noRequests = s.noRequests := rfl

theorem sendOp_sends {h : Hdr} {r : OpRec} (s : State) (ing : Nat) (single : h.mcast = false) (plain : r.res = none) :
    Sends s (sendOp s ing h r) ing [mkCmpl s h r.status r.cflg r.cdat] := by
  unfold sendOp
  simp only [single, Bool.false_eq_true, if_false]
  generalize (tileOfIngress s ing h).val = tile
  have completion : opCompletion (noteStatus s tile r.status) h r = [mkCmpl s h r.status r.cflg r.cdat] := by
    simp [opCompletion, single, plain, mkCmpl_congr (noteStatus_noRequests s tile r.status)]
  rw [completion]
  exact sends_of_inq (noteStatus_inq s tile _) (originate_sends _ ing .unit _)

theorem finishOnce_sends {s : State} {h : Hdr} (o : Opened s h) (single : h.mcast = false) (ing : Nat) (st cflg : BitVec 8)
    (cdat : BitVec 16) : Sends s (finishOnce s ing h st cflg cdat none) ing [mkCmpl s h st cflg cdat] := by
  rw [finishOnce_eq o]
  have sent := sendOp_sends (setOp s (endedOp s h st cflg cdat none)) ing (r := endedOp s h st cflg cdat none) single rfl
  exact sends_of_inq rfl (mkCmpl_congr (setOp_noRequests s _) ▸ sent)

theorem sendOp_noTraffic (s : State) (ing : Nat) (h : Hdr) (r : OpRec) : (sendOp s ing h r).noTraffic = s.noTraffic := by
  simp [sendOp]

theorem finishOnce_frame {s : State} {h : Hdr} (o : Opened s h) (ing : Nat) (st cflg : BitVec 8) (cdat : BitVec 16)
    (res : Option (BitVec 64)) :
    (finishOnce s ing h st cflg cdat res).noRequests = s.noRequests ∧ (finishOnce s ing h st cflg cdat res).slots = s.slots ∧
    (finishOnce s ing h st cflg cdat res).basisJobs = s.basisJobs ∧ (finishOnce s ing h st cflg cdat res).encJobs = s.encJobs := by
  rw [finishOnce_eq o]
  generalize endedOp s h st cflg cdat res = r
  have view := sendOp_noTraffic (setOp s r) ing h r
  generalize sendOp (setOp s r) ing h r = t at view ⊢
  exact ⟨(congrArg State.noRequests view :), (congrArg State.slots view :), (congrArg State.basisJobs view :),
    (congrArg State.encJobs view :)⟩

/-- A status that no counter of completions follows. -/
def uncounted (st : BitVec 8) : Prop := st ≠ St.replayExhausted ∧ st ≠ St.tgtDead ∧ st ≠ St.uncorrectable

theorem noteStatus_of_uncounted {st : BitVec 8} (h : uncounted st) (s : State) (tile : Nat) : noteStatus s tile st = s := by
  obtain ⟨replay, dead, uncorr⟩ := h
  rw [noteStatus, if_neg replay, if_neg dead, if_neg uncorr]

theorem originate_ctr (s : State) (ing : Nat) (kind : HeldKind) (ps : List Packet) : (originate s ing kind ps).ctr = s.ctr :=
  foldl_read (fun s p => enqueueIn s ing kind none p) State.ctr (fun _ _ => rfl) ps s

theorem finishOnce_c {s : State} {h : Hdr} (o : Opened s h) {st : BitVec 8} (plain : uncounted st) (ing : Nat) (cflg : BitVec 8)
    (cdat : BitVec 16) (res : Option (BitVec 64)) : (finishOnce s ing h st cflg cdat res).c = s.c := by
  funext k
  rw [finishOnce_eq o]
  have status : (endedOp s h st cflg cdat res).status = st := rfl
  simp only [sendOp, status, noteStatus_of_uncounted plain, ite_self, State.c, originate_ctr]
  rfl

/-! ### Which counters an event moves (R508, R544) -/

/-- An event moves at most PLOG_DROPPED's count (0x1240.09) and the count of HRB pulses (0x1201.06). -/
def noEventCounter (k : Nat) : Prop := k ≠ okey 0x1240 9 ∧ k ≠ okey 0x1201 6

theorem offer_ctr (e : Event) (s : State) (sid : BitVec 16) : (offer e s sid).ctr = s.ctr := by
  have sent : ∀ (s : State) (v : Session) (m : DMsg), (dictSend s v m).ctr = s.ctr := fun s v m => by
    simp [dictSend, apply_ite State.ctr, endSession]
  unfold offer
  split
  · rfl
  · simp [apply_ite State.ctr, sent]

theorem hrbAttention_c {k : Nat} (hk : noEventCounter k) (s : State) (h : Nat) : (hrbAttention s h).c k = s.c k := by
  obtain ⟨-, pulses⟩ := hk
  unfold hrbAttention
  dsimp only
  (repeat' split)
  · rfl
  · exact State.c_bump_ne (s.setHrb h _) 1 pulses
  · rfl

theorem attend_c {k : Nat} (hk : noEventCounter k) (before : Nat) (s : State) (h : Nat) : (attend before s h).c k = s.c k := by
  unfold attend
  split
  · exact hrbAttention_c hk s h
  · rfl

theorem deliverEvent_c {k : Nat} (hk : noEventCounter k) (s : State) (e : Event) (only : Session → Bool) :
    (deliverEvent s e only).c k = s.c k := by
  unfold deliverEvent
  extract_lets b0 b1
  rw [attend_c hk, attend_c hk, State.c, foldl_read (offer e) State.ctr (offer_ctr e), State.c]

theorem markPersist_c {k : Nat} (hk : noEventCounter k) (s : State) (n : BitVec 32) : (markPersist s n).2.c k = s.c k := by
  obtain ⟨dropped, -⟩ := hk
  unfold markPersist
  extract_lets sc iv n
  split
  · rfl
  · exact State.c_bump_ne s 1 dropped

theorem c_scribe (s : State) (v : Scribe) (k : Nat) : ({ s with scribe := v } : State).c k = s.c k := rfl

theorem logAppend_c (s : State) (e : Event) (k : Nat) : (logAppend s e).c k = s.c k := c_scribe s _ k

theorem raiseOnce_c {k : Nat} (hk : noEventCounter k) (s : State) (code epart : Nat) (items : List (Nat × Nat))
    (only : Session → Bool) : (raiseOnce s code epart items only).2.c k = s.c k := by
  unfold raiseOnce
  extract_lets e no s1 r
  rw [deliverEvent_c hk]
  simp only [r]
  split
  · exact (markPersist_c hk s1 no).trans (logAppend_c s e k)
  · exact logAppend_c s e k

theorem firstIn_c (s : State) (span what unit k : Nat) : (s.firstIn span what unit).2.c k = s.c k := by
  unfold State.firstIn
  extract_lets key iv
  split <;> rfl

theorem raise_c {k : Nat} (hk : noEventCounter k) (s : State) (code epart : Nat) (items : List (Nat × Nat)) :
    (raise s code epart items).c k = s.c k := by
  unfold raise raiseTo
  extract_lets r f
  have once : r.2.c k = s.c k := raiseOnce_c hk s code epart items _
  have marked : f.2.c k = s.c k := (firstIn_c r.2 _ _ _ k).trans once
  split
  · split
    · rw [raiseOnce_c hk, marked]
    · exact marked
  · exact once

theorem raiseLimited_c {k : Nat} (hk : noEventCounter k) (s : State) (span unit code epart : Nat) (items : List (Nat × Nat)) :
    (raiseLimited s span unit code epart items).c k = s.c k := by
  unfold raiseLimited
  extract_lets f
  have marked : f.2.c k = s.c k := firstIn_c s _ _ _ k
  split
  · rw [raise_c hk, marked]
  · exact marked

/-! ### What a request counts of the pieces it reaches (R324) -/

/-- A choice that keeps what it has or takes the next item ends with an item of the list, or with what it had. -/
theorem mem_of_foldl_choice {α : Type} {f : Option α → α → Option α} (choice : ∀ b x, f b x = b ∨ f b x = some x) {l : List α}
    {b : Option α} {y : α} (h : l.foldl f b = some y) : y ∈ l ∨ b = some y := by
  induction l generalizing b with
  | nil => exact .inr h
  | cons x l ih =>
    rcases ih h with later | now
    · exact .inl (List.mem_cons_of_mem x later)
    · rcases choice b x with kept | taken
      · exact .inr (kept ▸ now)
      · exact .inl (Option.some.inj (taken.symm.trans now) ▸ List.mem_cons_self)

theorem lowestStall_mem {l : List (Nat × Nat)} {x : Nat × Nat} (h : lowestStall l = some x) : x ∈ l := by
  refine (mem_of_foldl_choice (fun b y => ?_) h).resolve_right (by simp)
  cases b with
  | none => exact .inr rfl
  | some z =>
    dsimp only
    split
    · exact .inr rfl
    · exact .inl rfl

/-- A stall counted on a condition has the cause it is counted under. -/
theorem fst_of_mem_ite {c : Prop} [Decidable c] {k t : Nat} {x : Nat × Nat} (h : x ∈ if c then [(k, t)] else []) : x.1 = k := by
  obtain ⟨-, h⟩ := List.mem_ite_nil_right.1 h
  rw [List.mem_singleton.1 h]

/-- A piece stalls an arriving request under causes 1 to 4. -/
theorem pieceStalls_cause {s : State} {n i : Nat} {x : Nat × Nat} (h : x ∈ pieceStalls s n i) : x.1 ≤ 4 := by
  unfold pieceStalls at h
  extract_lets o mv at h
  simp only [List.mem_append] at h
  rcases h with ((pending | notYet) | transit) | queued
  · simp [fst_of_mem_ite pending]
  · split at notYet
    · simp [fst_of_mem_ite notYet]
    · contradiction
  · simp [fst_of_mem_ite transit]
  · split at queued
    · simp [fst_of_mem_ite queued]
    · contradiction

/-- Counting the stall of an arriving request moves one counter at most. -/
theorem stallRanges_cases (s : State) (p : Nat) (rs : List (Nat × Nat)) :
    stallRanges s p rs = s ∨ ∃ k, stallRanges s p rs = s.bump k 1 := by
  unfold stallRanges stallOnArrival
  split
  · next c t h =>
    obtain ⟨w, -, stalled⟩ := List.mem_flatMap.1 (lowestStall_mem h)
    have cause : c ≤ 4 := by
      cases w with
      | runs l => simp [wantStalls] at stalled
      | pieces q a len =>
        obtain ⟨x, -, piece⟩ := List.mem_flatMap.1 stalled
        exact pieceStalls_cause piece
    exact .inr ⟨stallObj p t c, if_neg (by omega)⟩
  · exact .inl rfl

theorem stallRanges_frame (s : State) (p : Nat) (rs : List (Nat × Nat)) :
    (stallRanges s p rs).noCompression = s.noCompression ∧ (stallRanges s p rs).slots = s.slots ∧
    (stallRanges s p rs).basisJobs = s.basisJobs ∧ (stallRanges s p rs).encJobs = s.encJobs ∧
    (stallRanges s p rs).scribe = s.scribe := by
  rcases stallRanges_cases s p rs with e | ⟨k, e⟩ <;> rw [e] <;> exact ⟨rfl, rfl, rfl, rfl, rfl⟩

/-! ### Reads that a unit starts (R206, R341) -/

theorem sendOwn_noTraffic (s : State) (q : Nat) (op : BitVec 8) (dst : Fid) (part : BitVec 5) (addr aux : Nat) (body : List Byte) :
    (sendOwn s q op dst part addr aux body).2.noTraffic = s.noTraffic := by
  simp [sendOwn, ownHdr]

theorem readAt_noTraffic (s : State) (ov : Fwd) (q : Nat) (p : BitVec 5) (g : Seg) : (readAt s ov q p g).2.noTraffic = s.noTraffic := by
  unfold readAt
  (repeat' split) <;> simp [raiseUncorr, sendOwn_noTraffic]

theorem foldl_keeps {α β γ : Type} {f : β → α → β} {view : β → γ} (h : ∀ b a, view (f b a) = view b) (l : List α) (b : β) :
    view (l.foldl f b) = view b := by
  induction l generalizing b with
  | nil => rfl
  | cons a l ih => rw [List.foldl_cons, ih, h]

theorem overRuns_noTraffic {f : State → Nat → Seg → Sub × State} (h : ∀ s n g, (f s n g).2.noTraffic = s.noTraffic) (s : State)
    (gs : List Seg) : (overRuns f s gs).2.noTraffic = s.noTraffic := by
  unfold overRuns
  exact foldl_keeps (view := fun a : List Sub × State × Nat => a.2.1.noTraffic) (fun a g => h a.2.1 a.2.2 g) gs ([], s, 0)

theorem startFetch_noTraffic (s : State) (q p : Nat) (x : Fetch) : (startFetch s q p x).2.noTraffic = s.noTraffic := by
  have waited : (endFetchWait s p x).noTraffic = s.noTraffic := by simp [endFetchWait]
  unfold startFetch
  split
  · exact waited
  · rfl
  · exact (overRuns_noTraffic (fun s _ g => readAt_noTraffic s [] q _ g) _ _).trans waited

theorem startFetches_noTraffic (s : State) (q p : Nat) (xs : List Fetch) : (startFetches s q p xs).2.noTraffic = s.noTraffic := by
  unfold startFetches
  refine foldl_keeps (view := fun a : List Fetch × State => a.2.noTraffic) (fun a x => ?_) xs ([], s)
  dsimp only
  split
  · exact startFetch_noTraffic a.2 q p x
  · rfl

/-- A read that its partition may make of one run held here, without an uncorrectable word, is done at once. -/
theorem startFetch_here {s : State} {p a n x : Nat} {g : Seg} {d : List Byte} (q : Nat)
    (run : resolveRange s p a n false = .segs [g]) (here : g.loc = .phys x) (len : g.len = n) (sound : readPhys s x n = some d) :
    startFetch s q p { addr := a, len := n } =
      ({ addr := a, len := n, subs := [{ key := default, seg := g, done := true, data := d }] }, s) := by
  have read : readAt s [] q (BitVec.ofNat 5 p) g = ({ key := default, seg := g, done := true, data := d }, s) := by
    simp [readAt, here, readOver, len, sound]
  simp [startFetch, run, loadRuns, here, overRuns, read, endFetchWait]

theorem startFetches_fresh (s : State) (q p a n : Nat) :
    startFetches s q p [{ addr := a, len := n }] =
      ([(startFetch s q p { addr := a, len := n }).1], (startFetch s q p { addr := a, len := n }).2) := by
  simp [startFetches]

/-! ### Basis slots: entries freed, retired and given (R342 to R344) -/

/-- No BUILD or LOAD waits for an entry of the slot. -/
def NoWaiter (s : State) (n : Nat) : Prop := ∀ x ∈ s.basisJobs, x.slot = n → x.stage ≠ .waiting

theorem serveWaiters_of_noWaiter {s : State} {n : Nat} (h : NoWaiter s n) (k : Nat) : serveWaiters k s n = s := by
  cases k with
  | zero => rfl
  | succ k =>
    have none_ : (s.basisJobs.find? fun j => j.slot == n && j.stage == .waiting) = none :=
      List.find?_eq_none.2 fun x hx => by simpa using h x hx
    unfold serveWaiters
    rw [none_]
    split
    · contradiction
    · rfl

theorem freeGen_of_noWaiter {s : State} {n : Nat} (h : NoWaiter s n) (i : Nat) :
    (freeGen s n i).noEvents = (setEntry s n i {}).noEvents := by
  unfold freeGen
  extract_lets e u v
  have freed : v.noEvents = u.noEvents := by simp only [v]; split <;> simp
  have jobs : v.basisJobs = s.basisJobs := (congrArg State.basisJobs freed :)
  rw [serveWaiters_of_noWaiter (by rwa [NoWaiter, jobs]), freed]

/-- What RETIRE makes of an entry (R342). -/
def retired (e : GenEntry) : GenEntry := if e.refs = 0 then {} else { e with st := .retiring }

theorem retireEntry_frame {s : State} {n i : Nat} (h : NoWaiter s n) (hl : (s.slot n).entries.length = 4) (hi : i < 4) :
    (retireEntry s n i).noCompression = s.noCompression ∧ entryOf (retireEntry s n i) n i = retired (entryOf s n i) := by
  unfold retireEntry
  extract_lets e u
  split
  · next idle =>
    have freed := freeGen_of_noWaiter (s := u) h i
    have slots : (freeGen u n i).slots = (setEntry u n i {}).slots := (congrArg State.slots freed :)
    refine ⟨(noCompression_of_noEvents freed :), ?_⟩
    rw [entryOf_congr slots, entryOf_setEntry _ (by rw [setEntry_entries_length, hl]) hi, retired, if_pos idle]
  · next held => exact ⟨rfl, by rw [entryOf_setEntry _ hl hi, retired, if_neg held]⟩

/-- The generation under which a BUILD or LOAD takes its entry (R343). -/
def givenGen (s : State) (j : BasisJob) : BitVec 8 := if eCmd j.msg == 1 then nextGen s j.slot else j.gen

/-- The slot of a BUILD or LOAD once it has taken an entry. -/
def takenSlot (s : State) (j : BasisJob) (i : Nat) : BasisSlot :=
  let v := s.slot j.slot
  { v with last := givenGen s j, entries := v.entries.set i { st := .loading, gen := givenGen s j, rank := j.rank } }

theorem assignEntry_frame {s : State} {j : BasisJob} (fresh : eCmd j.msg = 1 ∨ findGen s j.slot j.gen notEmpty = none) (i : Nat) :
    (assignEntry s j i).mem = s.mem ∧ (assignEntry s j i).slots = (s.setSlot j.slot (takenSlot s j i)).slots ∧
    ∃ rs, (assignEntry s j i).basisJobs =
      (setJob s { j with stage := .reading, entry := i, gen := givenGen s j, reads := rs }).basisJobs := by
  unfold assignEntry
  extract_lets build g v u rs x
  have notHeld : ¬(¬build = true ∧ (findGen s j.slot g notEmpty).isSome = true) := by
    rintro ⟨load, held⟩
    have cmd : eCmd j.msg ≠ 1 := by simpa [build] using load
    simp [g, load, fresh.resolve_left cmd] at held
  rw [if_neg notHeld]
  have reading : x.2.noTraffic = u.noTraffic := startFetches_noTraffic u _ _ rs
  have mem : x.2.mem = u.mem := (congrArg State.mem reading :)
  have slots : x.2.slots = u.slots := (congrArg State.slots reading :)
  have jobs : x.2.basisJobs = u.basisJobs := (congrArg State.basisJobs reading :)
  refine ⟨mem, slots, x.1, ?_⟩
  simp only [setJob, jobs, u, State.setSlot_frame]
  rfl

theorem mem_setJob {s : State} {x j : BasisJob} (h : x ∈ s.basisJobs) (e : sameJob x.msg j.msg = true) : j ∈ (setJob s j).basisJobs :=
  List.mem_map.2 ⟨x, h, if_pos e⟩

theorem sameJob_self (m : Msg) : sameJob m m = true := beq_self_eq_true _

theorem wantEntry_of_free {s : State} {j : BasisJob} {i : Nat} (free : emptyEntry s j.slot = some i)
    (first : ∀ x ∈ s.basisJobs, x.slot = j.slot → x.stage = .waiting → sameJob x.msg j.msg = true) :
    wantEntry s j = assignEntry s j i := by
  have none_ : (s.basisJobs.any fun x => x.slot == j.slot && x.stage == .waiting && !sameJob x.msg j.msg) = false := by
    simpa [List.any_eq_false] using first
  simp only [wantEntry, free, none_]

theorem wantEntry_of_full {s : State} {j : BasisJob} (full : emptyEntry s j.slot = none) :
    wantEntry s j = raise (setJob s { j with stage := .waiting }) 0x0703 (s.slot j.slot).owner.val [(2, j.slot)] := by
  simp only [wantEntry, full]

/-! ### A request is performed (R345 to R347) -/

/-- Where an ENCODE of any command is completed. -/
def encIngress (s : State) (m : Msg) : Nat :=
  if (partQuills s m.hdr.part.toNat).isEmpty then ingMemory else ingQuill (leadQuill s m.hdr.part.toNat)

/-- Its completion. -/
def encCmpl (s : State) (m : Msg) (st : BitVec 8) (cdat : Nat) : Packet :=
  mkCmpl s m.hdr st (quillFlag s (leadQuill s m.hdr.part.toNat)) (BitVec.ofNat 16 cdat)

theorem encEnd_frame {s : State} {m : Msg} (o : Opened s m.hdr) (st : BitVec 8) (cdat : Nat) :
    (encEnd s m st cdat).noRequests = s.noRequests ∧ (encEnd s m st cdat).slots = s.slots ∧
    (encEnd s m st cdat).basisJobs = s.basisJobs ∧ (encEnd s m st cdat).encJobs = s.encJobs :=
  finishOnce_frame o _ _ _ _ _

/-- A request that is completed after only compression's own state has changed is answered as from the state before. -/
theorem encEnd_sends {s u : State} {m : Msg} (rest : u.noRequests = s.noRequests) (inq : u.inq = s.inq) (o : Opened u m.hdr)
    (single : m.hdr.mcast = false) (st : BitVec 8) (cdat : Nat) :
    Sends s (encEnd u m st cdat) (encIngress s m) [encCmpl s m st cdat] := by
  have sent := finishOnce_sends o single (encIngress u m) st (quillFlag u (leadQuill u m.hdr.part.toNat)) (BitVec.ofNat 16 cdat)
  unfold encIngress encCmpl
  rw [← mkCmpl_congr rest, ← quillFlag_congr rest, ← leadQuill_congr rest, ← partQuills_congr rest]
  exact sends_of_inq inq sent

theorem encNow_of_refusal {s : State} {m : Msg} {st : BitVec 8} (h : encRefusal s m = some st) : encNow s m = encEnd s m st 0 := by
  simp only [encNow, h]

/-- A state in which a BUILD or LOAD has joined those in progress. -/
def enlisted (s : State) (j : BasisJob) : State := { s with basisJobs := s.basisJobs ++ [j] }

theorem enlisted_frame (s : State) (j : BasisJob) :
    (enlisted s j).noCompression = s.noCompression ∧ (enlisted s j).slots = s.slots ∧ (enlisted s j).scribe = s.scribe ∧
    (enlisted s j).basisJobs = s.basisJobs ++ [j] := ⟨rfl, rfl, rfl, rfl⟩

/-- A BUILD as it arrives. -/
def arrivingBuild (m : Msg) : BasisJob := { msg := m, stage := .waiting, slot := eSlot m, rank := eRank m }

/-- A LOAD as it arrives: its image's header is read first (R341). -/
def arrivingLoad (m : Msg) : BasisJob :=
  { msg := m, stage := .header, slot := eSlot m, reads := [{ addr := eIaddr m, len := 32 }] }

theorem encNow_build {s : State} {m : Msg} (sound : encRefusal s m = none) (cmd : eCmd m = 1) :
    ∃ rs, encNow s m = wantEntry (enlisted (stallRanges s m.hdr.part.toNat rs) (arrivingBuild m)) (arrivingBuild m) := by
  simp only [encNow, sound, cmd]
  exact ⟨_, rfl⟩

theorem encNow_encode {s : State} {m : Msg} {i : Nat} (sound : encRefusal s m = none) (cmd : eCmd m = 2)
    (ready : findGen s (eSlot m) (eGen m) isReady = some i) :
    ∃ rs u, u = stallRanges s m.hdr.part.toNat rs ∧ encNow s m =
      { setEntry u (eSlot m) i { entryOf u (eSlot m) i with refs := (entryOf u (eSlot m) i).refs + 1 } with
        encJobs := u.encJobs ++ [{ msg := m, slot := eSlot m, entry := i }] } := by
  simp only [encNow, sound, cmd, ready]
  exact ⟨_, _, rfl, rfl⟩

theorem encNow_encode_absent {s : State} {m : Msg} (sound : encRefusal s m = none) (cmd : eCmd m = 2)
    (absent : findGen s (eSlot m) (eGen m) isReady = none) :
    encNow s m = encEnd (genAbsent s (eSlot m) (eGen m) m.hdr.part.toNat) m St.clrGenAbsent 0 := by
  simp only [encNow, sound, cmd, absent]

theorem encNow_load {s : State} {m : Msg} (sound : encRefusal s m = none) (cmd : eCmd m = 3) :
    ∃ rs, encNow s m = basisAdvance (enlisted (stallRanges s m.hdr.part.toNat rs) (arrivingLoad m)) (arrivingLoad m) := by
  simp only [encNow, sound, cmd]
  exact ⟨_, rfl⟩

theorem encNow_retire {s : State} {m : Msg} {i : Nat} (sound : encRefusal s m = none) (cmd : eCmd m = 4)
    (ready : findGen s (eSlot m) (eGen m) isReady = some i) :
    encNow s m = encEnd (retireEntry s (eSlot m) i) m St.ok 0 := by
  simp only [encNow, sound, cmd, ready]

/-- A LOAD of which the header has come (R341). -/
def headedLoad (j : BasisJob) (h : List Byte) : BasisJob :=
  { j with gen := BitVec.ofNat 8 (leAt h 0 1), rank := leAt h 1 1, image := h, reads := [] }

/-- A sound header of a generation that the slot does not hold, and an image that may be read (R341, R347). -/
def HeaderSound (s : State) (j : BasisJob) (h : List Byte) : Prop :=
  findGen s j.slot (BitVec.ofNat 8 (leAt h 0 1)) notEmpty = none ∧ 1 ≤ leAt h 1 1 ∧ leAt h 1 1 ≤ 64 ∧
  leAt h 4 4 = 32 + 512 * leAt h 1 1 ∧ rangeOk s j.msg.hdr.part.toNat (eIaddr j.msg) (32 + 512 * leAt h 1 1) false = true

theorem loadHeader_of_sound {s : State} {j : BasisJob} {h : List Byte} {x : Fetch} {y : Sub} (reads : j.reads = [x]) (subs : x.subs = [y])
    (ok : y.st = St.ok) (data : y.data = h) (sound : HeaderSound s j h) : loadHeader s j = wantEntry s (headedLoad j h) := by
  obtain ⟨absent, pos, le, size, readable⟩ := sound
  have none_ : fetchFailed j.reads = none := by simp [fetchFailed, fetchSubs, failedSub, reads, subs, ok]
  have bytes : j.reads.flatMap Fetch.data = h := by simp [Fetch.data, subsData, reads, subs, data]
  have form : ¬(leAt h 1 1 = 0 ∨ 64 < leAt h 1 1 ∨ leAt h 4 4 ≠ 32 + 512 * leAt h 1 1) := by omega
  simp only [loadHeader, none_, bytes, absent, Option.isSome_none, Bool.false_eq_true, if_false, if_neg form, readable,
    not_true_eq_false]
  rfl

/-- The header of an arriving LOAD that lies in one run held here is read at once. -/
theorem basisAdvance_arrivingLoad {s : State} {m : Msg} {g : Seg} {x : Nat} {h : List Byte}
    (run : resolveRange s m.hdr.part.toNat (eIaddr m) 32 false = .segs [g]) (here : g.loc = .phys x) (len : g.len = 32)
    (read : readPhys s x 32 = some h) (sound : HeaderSound s (arrivingLoad m) h) :
    basisAdvance s (arrivingLoad m) = wantEntry s (headedLoad (arrivingLoad m) h) := by
  have fetched := startFetch_here (leadQuill s m.hdr.part.toNat) run here len read
  have advanced : basisAdvance s (arrivingLoad m) = loadHeader s { arrivingLoad m with
      reads := [{ addr := eIaddr m, len := 32, subs := [{ key := default, seg := g, done := true, data := h }] }] } := by
    simp [basisAdvance, arrivingLoad, startFetches_fresh, fetched, advanceLoad, Fetch.done]
  rw [advanced]
  exact loadHeader_of_sound rfl rfl rfl rfl sound

/-! ### An ENCODE message that comes for the first time -/

theorem encRequest_of_firstTime {s : State} {m : Msg} (first : FirstTime s m.hdr) (turn : mustWait s m = false) :
    encRequest s m = encNow (accepted s m) m :=
  inTurn_once_of_firstTime first turn ingMemory _

/-- Its four commands begin alike (R345). -/
theorem exec_encRequest {c : Instr} {m : Msg} (h : c = .build m ∨ c = .encode m ∨ c = .basisLoad m ∨ c = .basisRetire m) (s : State) :
    exec c s = .next (encRequest s m) := by
  rcases h with rfl | rfl | rfl | rfl <;> rfl

/-- What holds of an ENCODE message that is performed now, and of the slot it names. -/
structure Arriving (s : State) (m : Msg) : Prop where
  first : FirstTime s m.hdr
  turn : mustWait s m = false
  single : m.hdr.mcast = false
  four : (s.slot (eSlot m)).entries.length = 4
  alone : NoWaiter s (eSlot m)

section Arriving
variable {s : State} {m : Msg}

theorem Arriving.request (a : Arriving s m) : encRequest s m = encNow (accepted s m) m := encRequest_of_firstTime a.first a.turn

theorem Arriving.refusal (_ : Arriving s m) : encRefusal (accepted s m) m = encRefusal s m :=
  have ⟨rest, slots, _⟩ := accepted_frame s m
  encRefusal_congr rest slots m

/-- A refused request is completed with its status and changes nothing else. -/
theorem Arriving.refused (a : Arriving s m) {st : BitVec 8} (h : encRefusal s m = some st) :
    (encRequest s m).slots = s.slots ∧ (encRequest s m).basisJobs = s.basisJobs ∧ (encRequest s m).encJobs = s.encJobs ∧
    (encRequest s m).mem = s.mem ∧ Sends s (encRequest s m) (encIngress s m) [encCmpl s m st 0] := by
  have opened := accepted_opened a.first
  obtain ⟨rest, slots, jobs, encs, inq, -⟩ := accepted_frame s m
  obtain ⟨rest', slots', jobs', encs'⟩ := encEnd_frame opened st 0
  rw [a.request, encNow_of_refusal (a.refusal.trans h)]
  exact ⟨slots'.trans slots, jobs'.trans jobs, encs'.trans encs, mem_of_noRequests (rest'.trans rest),
    encEnd_sends rest inq opened a.single st 0⟩

/-- A BUILD or LOAD `j` that has joined those in progress after nothing but counting, and takes an entry. -/
theorem Arriving.takes {u : State} {j k : BasisJob} {i : Nat} (a : Arriving s m) (rest : u.noRequests = s.noRequests)
    (slots : u.slots = s.slots) (jobs : u.basisJobs = s.basisJobs) (slot : j.slot = eSlot m) (mine : j.msg = m) (mine' : k.msg = m)
    (fresh : eCmd m = 1 ∨ findGen s (eSlot m) j.gen notEmpty = none) (free : emptyEntry s (eSlot m) = some i) :
    (wantEntry (enlisted u k) j).mem = s.mem ∧
    entryOf (wantEntry (enlisted u k) j) (eSlot m) i = { st := .loading, gen := givenGen s j, rank := j.rank } ∧
    ((wantEntry (enlisted u k) j).slot (eSlot m)).last = givenGen s j ∧
    (∀ n, n ≠ eSlot m → (wantEntry (enlisted u k) j).slot n = s.slot n) ∧
    ∃ x ∈ (wantEntry (enlisted u k) j).basisJobs, x.msg = m ∧ x.stage = .reading ∧ x.gen = givenGen s j := by
  obtain ⟨four, alone⟩ : (s.slot j.slot).entries.length = 4 ∧ NoWaiter s j.slot := slot ▸ ⟨a.four, a.alone⟩
  rw [← slot] at fresh free ⊢
  generalize hw : enlisted u k = w
  obtain ⟨wrest, wslots, -, wjobs⟩ := hw ▸ enlisted_frame u k
  have same : w.slots = s.slots := wslots.trans slots
  have listed : k ∈ w.basisJobs := by rw [wjobs]; exact List.mem_append_right _ List.mem_cons_self
  have ours : sameJob k.msg j.msg = true := by rw [mine, mine']; exact sameJob_self m
  have firstOfSlot : ∀ x ∈ w.basisJobs, x.slot = j.slot → x.stage = .waiting → sameJob x.msg j.msg = true := by
    intro x hx hslot waits
    rw [wjobs, jobs, List.mem_append, List.mem_singleton] at hx
    rcases hx with old | rfl
    · exact absurd waits (alone x old hslot)
    · exact ours
  have given : givenGen w j = givenGen s j := by simp only [givenGen, nextGen_congr same]
  have taken : takenSlot w j i = takenSlot s j i := by simp only [takenSlot, given, slot_congr same]
  have reads : ∀ n, (w.setSlot j.slot (takenSlot w j i)).slot n = (s.setSlot j.slot (takenSlot s j i)).slot n := by
    intro n
    simp only [State.slot_setSlot, taken, slot_congr same]
  rw [wantEntry_of_free (by rwa [emptyEntry_congr same]) firstOfSlot]
  obtain ⟨mem, slots', rs, jobs'⟩ := assignEntry_frame (s := w) (j := j)
    (by rw [mine, findGen_congr same]; exact fresh) i
  refine ⟨mem.trans (mem_of_noRequests ((noRequests_of_noCompression wrest).trans rest)), ?_, ?_, ?_, ?_⟩
  · rw [entryOf, slot_congr slots', reads]
    exact entryOf_setSlot (s := s) { s.slot j.slot with last := givenGen s j } _ four (lt_four_of_emptyEntry free)
  · rw [slot_congr slots', reads, State.slot_setSlot_self]
    rfl
  · intro n hn
    rw [slot_congr slots', reads, State.slot_setSlot, if_neg hn]
  · rw [jobs', given]
    exact ⟨_, mem_setJob listed ours, mine, rfl, rfl⟩

/-- A BUILD takes the slot's first EMPTY entry under the next generation (R343). -/
theorem Arriving.build_takes (a : Arriving s m) (sound : encRefusal s m = none) (cmd : eCmd m = 1) {i : Nat}
    (free : emptyEntry s (eSlot m) = some i) :
    (encRequest s m).mem = s.mem ∧
    entryOf (encRequest s m) (eSlot m) i = { st := .loading, gen := nextGen s (eSlot m), rank := eRank m } ∧
    ((encRequest s m).slot (eSlot m)).last = nextGen s (eSlot m) ∧
    (∀ n, n ≠ eSlot m → (encRequest s m).slot n = s.slot n) ∧
    ∃ x ∈ (encRequest s m).basisJobs, x.msg = m ∧ x.stage = .reading ∧ x.gen = nextGen s (eSlot m) := by
  obtain ⟨rest, slots, jobs, -⟩ := accepted_frame s m
  obtain ⟨rs, now⟩ := encNow_build (a.refusal.trans sound) cmd
  obtain ⟨rest', slots', jobs', -⟩ := stallRanges_frame (accepted s m) m.hdr.part.toNat rs
  have given : givenGen s (arrivingBuild m) = nextGen s (eSlot m) := by simp [givenGen, arrivingBuild, cmd]
  rw [a.request, now, ← given]
  exact a.takes ((noRequests_of_noCompression rest').trans rest) (slots'.trans slots) (jobs'.trans jobs) rfl rfl rfl (.inl cmd) free

/-- A BUILD of a slot without an EMPTY entry waits for one (R344). -/
theorem Arriving.build_waits (a : Arriving s m) (sound : encRefusal s m = none) (cmd : eCmd m = 1)
    (full : emptyEntry s (eSlot m) = none) :
    (encRequest s m).mem = s.mem ∧ (encRequest s m).slots = s.slots ∧ Logs s (encRequest s m) 0x0703 ∧
    ∃ x ∈ (encRequest s m).basisJobs, x.msg = m ∧ x.stage = .waiting := by
  obtain ⟨rest, slots, -, -, -, scribe⟩ := accepted_frame s m
  obtain ⟨rs, now⟩ := encNow_build (a.refusal.trans sound) cmd
  obtain ⟨rest', slots', -, -, scribe'⟩ := stallRanges_frame (accepted s m) m.hdr.part.toNat rs
  generalize hu : stallRanges (accepted s m) m.hdr.part.toNat rs = u at rest' slots' scribe' now
  have same : u.slots = s.slots := slots'.trans slots
  have full' : emptyEntry (enlisted u (arrivingBuild m)) (eSlot m) = none := by rw [emptyEntry_congr (t := enlisted u _) same, full]
  rw [a.request, now, wantEntry_of_full full']
  generalize hv : setJob (enlisted u (arrivingBuild m)) _ = v
  have logNext : v.scribe.logNext = s.scribe.logNext := by rw [← scribe, ← scribe', ← hv]; rfl
  refine ⟨?_, ?_, ?_, arrivingBuild m, ?_, rfl, rfl⟩
  · have mem : v.mem = u.mem := by rw [← hv]; rfl
    simpa [mem] using mem_of_noRequests ((noRequests_of_noCompression rest').trans rest)
  · have kept : v.slots = u.slots := by rw [← hv]; rfl
    simpa [kept] using same
  · have logged := raise_logs v 0x0703 ((enlisted u (arrivingBuild m)).slot (eSlot m)).owner.val [(2, eSlot m)]
    rwa [Logs, logNext] at logged
  · have waits : arrivingBuild m ∈ v.basisJobs := by
      rw [← hv]
      exact mem_setJob (List.mem_append_right _ List.mem_cons_self) (sameJob_self m)
    simpa using waits

/-- An ENCODE holds the generation it names. -/
theorem Arriving.encode_holds (a : Arriving s m) (sound : encRefusal s m = none) (cmd : eCmd m = 2) {i : Nat}
    (ready : findGen s (eSlot m) (eGen m) isReady = some i) :
    (encRequest s m).mem = s.mem ∧
    entryOf (encRequest s m) (eSlot m) i = { entryOf s (eSlot m) i with refs := (entryOf s (eSlot m) i).refs + 1 } ∧
    (encRequest s m).encJobs = s.encJobs ++ [{ msg := m, slot := eSlot m, entry := i }] := by
  obtain ⟨rest, slots, -, encs, -⟩ := accepted_frame s m
  obtain ⟨rs, u, hu, now⟩ := encNow_encode (a.refusal.trans sound) cmd (by rwa [findGen_congr slots])
  obtain ⟨rest', slots', -, encs', -⟩ := stallRanges_frame (accepted s m) m.hdr.part.toNat rs
  rw [← hu] at rest' slots' encs'
  have same : u.slots = s.slots := slots'.trans slots
  have four : (u.slot (eSlot m)).entries.length = 4 := by rw [slot_congr same, a.four]
  rw [a.request, now, encs', encs, entryOf_congr same]
  exact ⟨mem_of_noRequests ((noRequests_of_noCompression rest').trans rest), entryOf_setEntry _ four (lt_four_of_findGen ready), rfl⟩

theorem genAbsent_frame (s : State) (n : Nat) (g : BitVec 8) (p : Nat) :
    (genAbsent s n g p).noEvents = s.noEvents ∧ (genAbsent s n g p).c (okey 0x9002 4) = (s.c (okey 0x9002 4) + 1) % 2 ^ 64 := by
  refine ⟨by simp [genAbsent], ?_⟩
  rw [genAbsent, raiseLimited_c ⟨by decide, by decide⟩, State.c_bump_self]

/-- An ENCODE of an absent generation is counted and refused (R347, R361). -/
theorem Arriving.encode_absent (a : Arriving s m) (sound : encRefusal s m = none) (cmd : eCmd m = 2)
    (absent : findGen s (eSlot m) (eGen m) isReady = none) :
    (encRequest s m).mem = s.mem ∧ (encRequest s m).slots = s.slots ∧
    (encRequest s m).c (okey 0x9002 4) = (s.c (okey 0x9002 4) + 1) % 2 ^ 64 ∧
    Sends s (encRequest s m) (encIngress s m) [encCmpl s m St.clrGenAbsent 0] := by
  obtain ⟨rest, slots, -, -, inq, -⟩ := accepted_frame s m
  obtain ⟨view, counted⟩ := genAbsent_frame (accepted s m) (eSlot m) (eGen m) m.hdr.part.toNat
  rw [a.request, encNow_encode_absent (a.refusal.trans sound) cmd (by rwa [findGen_congr slots])]
  generalize genAbsent (accepted s m) (eSlot m) (eGen m) m.hdr.part.toNat = u at view counted ⊢
  have urest : u.noRequests = s.noRequests := (noRequests_of_noCompression (noCompression_of_noEvents view)).trans rest
  have opened : Opened u m.hdr := opened_congr (congrArg State.opRecs view :) (accepted_opened a.first)
  obtain ⟨rest', slots', -⟩ := encEnd_frame opened St.clrGenAbsent 0
  refine ⟨mem_of_noRequests (rest'.trans urest), slots'.trans ((congrArg State.slots view :).trans slots), ?_,
    encEnd_sends urest ((congrArg State.inq view :).trans inq) opened a.single St.clrGenAbsent 0⟩
  rw [encEnd, finishOnce_c opened ⟨by decide, by decide, by decide⟩, counted, accepted_c s m (by decide)]

/-- A LOAD whose header lies here takes the slot's first EMPTY entry under the image's generation (R341, R343). -/
theorem Arriving.load_takes (a : Arriving s m) (sound : encRefusal s m = none) (cmd : eCmd m = 3) {g : Seg} {x i : Nat} {h : List Byte}
    (run : resolveRange s m.hdr.part.toNat (eIaddr m) 32 false = .segs [g]) (here : g.loc = .phys x) (len : g.len = 32)
    (read : readPhys s x 32 = some h) (header : HeaderSound s (arrivingLoad m) h) (free : emptyEntry s (eSlot m) = some i) :
    (encRequest s m).mem = s.mem ∧
    entryOf (encRequest s m) (eSlot m) i = { st := .loading, gen := BitVec.ofNat 8 (leAt h 0 1), rank := leAt h 1 1 } ∧
    (∀ n, n ≠ eSlot m → (encRequest s m).slot n = s.slot n) ∧
    ∃ y ∈ (encRequest s m).basisJobs, y.msg = m ∧ y.stage = .reading := by
  obtain ⟨rest, slots, jobs, -⟩ := accepted_frame s m
  obtain ⟨rs, now⟩ := encNow_load (a.refusal.trans sound) cmd
  obtain ⟨rest', slots', jobs', -⟩ := stallRanges_frame (accepted s m) m.hdr.part.toNat rs
  generalize stallRanges (accepted s m) m.hdr.part.toNat rs = u at rest' slots' jobs' now
  have urest : u.noRequests = s.noRequests := (noRequests_of_noCompression rest').trans rest
  have same : u.slots = s.slots := slots'.trans slots
  obtain ⟨wrest, wslots, -⟩ := enlisted_frame u (arrivingLoad m)
  have wrest' := (noRequests_of_noCompression wrest).trans urest
  obtain ⟨absent, pos, le, size, readable⟩ := header
  have header' : HeaderSound (enlisted u (arrivingLoad m)) (arrivingLoad m) h :=
    ⟨by rwa [findGen_congr (wslots.trans same)], pos, le, size, by rwa [rangeOk_congr wrest']⟩
  have given : givenGen s (headedLoad (arrivingLoad m) h) = BitVec.ofNat 8 (leAt h 0 1) := by
    simp [givenGen, headedLoad, arrivingLoad, cmd]
  rw [a.request, now, basisAdvance_arrivingLoad (by rwa [resolveRange_congr wrest']) here len (by rwa [readPhys_congr wrest']) header']
  obtain ⟨mem, entry, -, others, y, listed, mine, reading, -⟩ :=
    a.takes (k := arrivingLoad m) (j := headedLoad (arrivingLoad m) h) urest same (jobs'.trans jobs) rfl rfl rfl (.inr absent) free
  exact ⟨mem, given ▸ entry, others, y, listed, mine, reading⟩

/-- A RETIRE empties an entry that nothing refers to, and marks any other (R342). -/
theorem Arriving.retires (a : Arriving s m) (sound : encRefusal s m = none) (cmd : eCmd m = 4) {i : Nat}
    (ready : findGen s (eSlot m) (eGen m) isReady = some i) :
    (encRequest s m).mem = s.mem ∧ entryOf (encRequest s m) (eSlot m) i = retired (entryOf s (eSlot m) i) ∧
    Sends s (encRequest s m) (encIngress s m) [encCmpl s m St.ok 0] := by
  obtain ⟨rest, slots, jobs, -, inq, -⟩ := accepted_frame s m
  have alone : NoWaiter (accepted s m) (eSlot m) := by rw [NoWaiter, jobs]; exact a.alone
  obtain ⟨view, entry⟩ := retireEntry_frame alone (by rw [slot_congr slots, a.four]) (lt_four_of_findGen ready)
  rw [a.request, encNow_retire (a.refusal.trans sound) cmd (by rwa [findGen_congr slots])]
  generalize retireEntry (accepted s m) (eSlot m) i = u at view entry ⊢
  obtain ⟨-, inq', opRecs⟩ := noCompression_fields view
  have urest : u.noRequests = s.noRequests := (noRequests_of_noCompression view).trans rest
  have opened : Opened u m.hdr := opened_congr opRecs (accepted_opened a.first)
  obtain ⟨rest', slots', -⟩ := encEnd_frame opened St.ok 0
  refine ⟨mem_of_noRequests (rest'.trans urest), ?_, encEnd_sends urest (inq'.trans inq) opened a.single St.ok 0⟩
  rw [entryOf_congr slots', entry, entryOf_congr slots]

end Arriving

/-! ### Dictionary writes of basis slots (R340, R360) -/

/-- A record for a slot that is not valid, by one who may write for its owner. -/
theorem setSlots_single {s : State} {by_ : Caller} {w : BitVec 64} (role : isOpr s by_ = true ∨ by_.role = .prt)
    (slot : bits w.toNat 15 0 < 512) (part : bits w.toNat 22 16 < 32) (may : ownerWrites s by_ (bits w.toNat 22 16) = true)
    (invalid : (s.slot (bits w.toNat 15 0)).valid = false) :
    setSlots s by_ [w] = Ans.ok (s.setSlot (bits w.toNat 15 0) { s.slot (bits w.toNat 15 0) with
      valid := bit w.toNat 23, owner := ⟨bits w.toNat 22 16, part⟩ }) := by
  have owner : (⟨bits w.toNat 22 16 % 32, by omega⟩ : Part) = ⟨bits w.toNat 22 16, part⟩ := Fin.ext (Nat.mod_eq_of_lt part)
  have written : writeSlot by_ s w = (true, s.setSlot (bits w.toNat 15 0) { s.slot (bits w.toNat 15 0) with
      valid := bit w.toNat 23, owner := ⟨bits w.toNat 22 16, part⟩ }) := by
    rw [writeSlot, if_neg (by simp [may, invalid]; omega)]
    simp only [owner]
  have allowed : (isOpr s by_ || by_.role == .prt) = true := by simpa using role
  rw [setSlots, allowed, guardRole_true, writeRecords_single _ _ _ (by rw [written]), written]

theorem setBasisSlice_ok {s : State} {by_ : Caller} {v : Nat} (opr : isOpr s by_ = true) (exists_ : sliceExists s v = true)
    (empty : ∀ e ∈ s.slots, ∀ g ∈ e.2.entries, g.st = .empty) (free : sliceGranted s v = false) (dir : v ∉ dirSliceList s)
    (queue : v ∉ (List.range 16).map (queueSliceOf s)) (spill : v ∉ spillSliceList s) :
    setBasisSlice s by_ v = Ans.ok (s.setO (okey 0x9000 1) v) := by
  have idle : (s.slots.any fun e => e.2.entries.any fun g => g.st != .empty) = false := by
    simpa [List.any_eq_false] using fun a b h => empty (a, b) h
  have unused : (!sliceGranted s v && !decide (v ∈ dirSliceList s) && !decide (v ∈ (List.range 16).map (queueSliceOf s)) &&
      !decide (v ∈ spillSliceList s)) = true := by simp only [free, dir, queue, spill, decide_false]; rfl
  rw [setBasisSlice, opr, guardRole_true, exists_, guardRange_true, idle, if_neg (by simp), unused, guardValue_true]

theorem setGenRetire_of_ready {s : State} {by_ : Caller} {v i : Nat} (may : oprOver s by_ (s.slot (bits v 8 0)).owner.val = true)
    (ready : findGen s (bits v 8 0) (BitVec.ofNat 8 (bits v 23 16)) isReady = some i) :
    setGenRetire s by_ v = Ans.ok (retireEntry s (bits v 8 0) i) := by
  simp only [setGenRetire, may, guardRole_true, ready]

theorem setGenRetire_of_absent {s : State} {by_ : Caller} {v : Nat} (may : oprOver s by_ (s.slot (bits v 8 0)).owner.val = true)
    (absent : findGen s (bits v 8 0) (BitVec.ofNat 8 (bits v 23 16)) isReady = none) :
    setGenRetire s by_ v = Ans.no s Ds.valueRejected := by
  simp only [setGenRetire, may, guardRole_true, absent]

/-- Settles O30: a request is performed in its record's opening state, which reads as the state before, and each command takes,
holds or empties one entry. -/
theorem compressionRequests : Obligations.CompressionRequests := by
  refine ⟨fun s m p q ing sl f hp hq hing hf hsl first turn single four alone => ?_,
    fun s by_ w v n i => ⟨fun role slot part may invalid => ?_, fun opr exists_ empty free dir queue spill => ?_,
      fun may four alone => ⟨fun ready => ?_, fun absent => ?_⟩⟩⟩
  · subst hp hq hing hf hsl
    have a : Arriving s m := ⟨first, turn, single, four, alone⟩
    refine ⟨fun c hc st refusal => ⟨_, exec_encRequest hc s, a.refused refusal⟩, fun sound =>
      ⟨fun cmd i free => ⟨_, rfl, a.build_takes sound cmd free⟩, fun cmd full => ⟨_, rfl, a.build_waits sound cmd full⟩,
        fun cmd i ready => ⟨_, rfl, a.encode_holds sound cmd ready⟩, fun cmd absent => ⟨_, rfl, a.encode_absent sound cmd absent⟩,
        fun cmd g x h i run here len read absent pos le size readable free =>
          ⟨_, rfl, a.load_takes sound cmd run here len read ⟨absent, pos, le, size, readable⟩ free⟩,
        fun cmd i ready => ⟨_, rfl, a.retires sound cmd ready⟩⟩⟩
  · refine ⟨_, congrArg (Ans.out · by_) (setSlots_single role slot part may invalid), writeOk_emit _ _, ?_⟩
    simp +contextual [Ans.ok, State.slot_setSlot]
  · exact congrArg (Ans.out · by_) (setBasisSlice_ok opr exists_ empty free dir queue spill)
  · obtain ⟨view, entry⟩ := retireEntry_frame alone four (lt_four_of_findGen ready)
    obtain ⟨mem, -⟩ := noCompression_fields view
    exact ⟨_, congrArg (Ans.out · by_) (setGenRetire_of_ready may ready), writeOk_emit _ _, mem, entry⟩
  · exact rejects_of_exec (congrArg (Ans.out · by_) (setGenRetire_of_absent may absent)) rfl

end Sys2Proof.Machine

namespace Sys2Proof.Machine

/-! ### A LOAD whose header is outstanding (R313, R341)

BASIS_WRITTEN and EXPAND_BLOCK_DONE first go on with every LOAD whose header is still to be read (`loadAdvance`), so what they do to
the requests in progress and to the packets that wait is not only their own request's. -/

/-- The header of a request of another device. -/
def compressionHdr (op : BitVec 8) (part : BitVec 5) (tag : BitVec 16) (opid : BitVec 40) : Hdr :=
  { (default : Hdr) with ver := 1, cls := 5, op := op, src := 0x010200, part := part, tag := tag, opid := opid }

/-- The record of a request of that device in service. -/
def serviceRec (part : BitVec 5) (opid : BitVec 40) : OpRec :=
  { tile := 0, src := 0x010200, part := part, opid := opid, done := false, ndup := 0, status := 0, cflg := 0, cdat := 0, res := none
    tdone := 0 }

/-- A LOAD of partition 1, which owns no quill, for slot 2: its image lies in object 9. The header's read waited for a piece in
TRANSIT, and the object has been deleted since. -/
def strandedLoad : BasisJob :=
  { msg := { hdr := compressionHdr Op.encode 1 10 78, body := leBytes 64 (3 + 2 * 2 ^ 32 + objAddr 9 0 * 2 ^ 256) }
    stage := .header, slot := 2, reads := [{ addr := objAddr 9 0, len := 32, wait := true }] }

/-- A BUILD of partition 0 for entry 0 of slot 1, its image written. -/
def writtenBuild : BasisJob :=
  { msg := { hdr := compressionHdr Op.encode 0 9 77, body := leBytes 64 (1 + 2 ^ 16 + 2 ^ 32) }
    stage := .writing, slot := 1, gen := 7, rank := 1 }

/-- Both in progress. -/
def buildBesideLoad : State :=
  { (State.reset.setSlot 1 { valid := true, last := 7, entries := [{ st := .loading, gen := 7, rank := 1 }, {}, {}, {}] }).setSlot 2
      { valid := true, owner := 1 } with
    basisJobs := [strandedLoad, writtenBuild], opRecs := [serviceRec 1 78, serviceRec 0 77] }

/-- Refutes O31: BASIS_WRITTEN of the BUILD also ends the LOAD, whose header can no longer be read, so the requests in progress are
not those of before but for the BUILD. -/
theorem not_compressionEnds : ¬ Obligations.CompressionEnds := by
  intro h
  obtain ⟨written, -, -⟩ := h buildBesideLoad (hdrKey writtenBuild.msg.hdr) 0 0 (ingQuill 0) 0 (serviceRec 0 77) writtenBuild.msg.hdr
    rfl (by decide +kernel) (by decide +kernel) (by decide +kernel) (by decide +kernel) rfl rfl
  obtain ⟨t, ran, -, -, jobs, -⟩ := written 1 0 writtenBuild (by decide +kernel) rfl rfl rfl rfl (by decide +kernel)
  obtain rfl := next_inj ran
  have kept : strandedLoad ∈ buildBesideLoad.basisJobs.filter (fun x => !sameJob x.msg writtenBuild.msg) := by decide +kernel
  rw [← jobs] at kept
  exact absurd kept (by decide +kernel)

/-- A RAW block of one FP32 element, 1.0. -/
def rawBlock : List Byte := blockHeader true 0 0 0 0 1 1 48 0 0 0 ++ leBytes 16 0x3F800000

/-- An EXPAND to FP32 of one block, which lies in object 8. -/
def oneBlockExpand : Msg :=
  { hdr := compressionHdr Op.expand 0 9 77, body := leBytes 16 (1 * 2 ^ 8) ++ leBytes 16 (objAddr 8 0) }

/-- The block as it is queued at its expander. -/
def queuedBlock : ExpBlock :=
  { id := 3, part := 0, n := 0, baddr := BitVec.ofNat 56 (objAddr 8 0), hdr := rawBlock.take 32, slot := 0, entry := none }

/-- The response that waits for it. -/
def openExpand : ExpResp := { id := 3, msg := oneBlockExpand, heads := [], accepted := true, blocks := [{}] }

/-- The block, in a unit of quill store that is object 8's home, beside the LOAD. -/
def expandBesideLoad : State :=
  { (State.reset.setObject 8 { st := .home, size := 1, homea := BitVec.ofNat 56 (t0Place 0 0), unitsH := [0] }).setSlot 2
      { valid := true, owner := 1 } with
    mem := Memory.writeN [] (physT0 0 0) rawBlock, basisJobs := [strandedLoad], opRecs := [serviceRec 1 78]
    expanders := [(2, [queuedBlock])], expResps := [openExpand] }

/-- Where the block lies. -/
def blockRun : Seg := { loc := .phys (physT0 0 0), len := 48, addr := objAddr 8 0, tier := 0, obj := some (8, 0) }

/-- Refutes O32: EXPAND_BLOCK_DONE also ends the LOAD, whose CMPL leaves by the memory path before the response, since its partition
owns no quill. -/
theorem not_expansion : ¬ Obligations.Expansion := by
  intro h
  obtain ⟨-, -, done⟩ := h expandBesideLoad oneBlockExpand 0 (physT0 0 0) blockRun rfl rfl
  obtain ⟨t, ran, -, -, -, -, sent⟩ := done 2 queuedBlock [] openExpand {} .fp32 rawBlock (leBytes 4 0x3F800000)
    (by decide +kernel) rfl rfl rfl rfl rfl rfl rfl rfl rfl (by decide +kernel) rfl (by decide +kernel) (by decide +kernel)
    (by decide +kernel) (by decide +kernel) (by decide +kernel)
  obtain rfl := next_inj ran
  have ops := congrArg (List.map (·.hdr.op)) sent
  exact absurd ops (by decide +kernel)

end Sys2Proof.Machine
